-- ==== Sys2Proof/Word.lean ====
section
/-!
DEFINITION. The word types of the part and their plainest arithmetic: 32-bit register words, 64-bit GTB times and
engine registers, bytes, and the `Sparse` lists that hold register words and memory bytes in one canonical form.
-/
namespace Sys2Proof

/-- A register word (R8). -/
abbrev Word := BitVec 32
/-- A 64-bit value: an engine register, or a GTB time in units of 125 ps (R6). -/
abbrev Dword := BitVec 64
/-- A byte of memory. -/
abbrev Byte := BitVec 8
/-- A GTB time (R6, R33). -/
abbrev Time := BitVec 64

/-- The value that is never a valid GTB time (R36). -/
def noTime : Time := BitVec.allOnes 64

/-- Low word of a 64-bit value (R8: the low word lies at the lower offset). -/
def loWord (x : Dword) : Word := x.truncate 32
/-- High word of a 64-bit value. -/
def hiWord (x : Dword) : Word := (x >>> 32).truncate 32
/-- The 64-bit value of a high and a low word. -/
def joinWords (hi lo : Word) : Dword := hi ++ lo

/-- Unsigned saturating increment at `top`. -/
def satInc (x top : Nat) : Nat := if x < top then x + 1 else top

/-- Sign-extension of the low `n` bits of a natural number to an integer. -/
def signExt (n x : Nat) : Int :=
  let y := x % 2 ^ n
  if 2 * y < 2 ^ n then (y : Int) else (y : Int) - (2 ^ n : Nat)

/-- An integer as a 32-bit two's complement word. -/
def wordOfInt (x : Int) : Word := BitVec.ofInt 32 x
/-- An integer as a 64-bit two's complement value. -/
def dwordOfInt (x : Int) : Dword := BitVec.ofInt 64 x

/-- Replace element `i` of a vector by its image under `f`. -/
def vmod {α : Type} {n : Nat} (v : Vector α n) (i : Fin n) (f : α → α) : Vector α n := v.set i (f v[i])

/-- Data that differs from its resting value at few keys: pairs of a key and a value, keys strictly rising, no pair
holding the resting value of its key. -/
abbrev Sparse (α : Type) := List (Nat × α)

/-- The value at key `k`; an unlisted key reads as `d k`. -/
def Sparse.get {α : Type} (d : Nat → α) : Sparse α → Nat → α
  | [], k => d k
  | (j, x) :: r, k => if k = j then x else if k < j then d k else Sparse.get d r k

/-- Set key `k` to `x`, keeping the canonical form: the resting value is not listed. -/
def Sparse.put {α : Type} [DecidableEq α] (d : Nat → α) : Sparse α → Nat → α → Sparse α
  | [], k, x => if x = d k then [] else [(k, x)]
  | (j, y) :: r, k, x =>
    if k = j then (if x = d k then r else (k, x) :: r)
    else if k < j then (if x = d k then (j, y) :: r else (k, x) :: (j, y) :: r)
    else (j, y) :: Sparse.put d r k x

/-- The canonical form: keys strictly rising and no entry at its resting value. -/
def Sparse.wf {α : Type} [DecidableEq α] (d : Nat → α) : Sparse α → Bool
  | [] => true
  | [(j, x)] => decide (x ≠ d j)
  | (j, x) :: (k, y) :: r => decide (x ≠ d j) && decide (j < k) && Sparse.wf d ((k, y) :: r)

end Sys2Proof
end

