-- ==== Sys2Proof/Syntax.lean ====
section
/-!
DEFINITION. The commands of the block: one constructor of `Instr` for each row of spec/opcode_table.json, with the
operands the row's rules name. What only the outside world decides (a pin's signal and its phase, the voltage at a
converter, a received cell, an ECC outcome) is an operand too.
-/
namespace Sys2Proof

/-- Who writes TB_SLEW (R38): the host, the PTP servo, Sloulo alignment. -/
inductive SlewOwner where
  | host | ptp | sloulo
  deriving DecidableEq, Repr

/-- Outcome of reading a word protected by SECDED: clean, corrected, uncorrectable (R140, R142, R265). -/
inductive Ecc where
  | clean | corrected | uncorrectable
  deriving DecidableEq, Repr

/-- What the SECDED check of a group fetched from the program store finds (R140): an error corrected in the fetch, one that is
uncorrectable in the copy that serves the quad, or one that is uncorrectable in its sibling too. -/
inductive GroupError where
  | corrected | oneCopy | bothCopies
  deriving DecidableEq, Repr

/-- Notices returned to the node that sent a release over the fabric (R58). -/
inductive Notice where
  | late | busy | refused | cancelLate
  deriving DecidableEq, Repr

/-- Causes of a channel in bit order (R144). -/
inductive Cause where
  | capture | match' | late | mute | stuck | flush | counter | sync | tooth | cam | map | draft | adc
  | post | rpost | event | wake | host | start
  deriving DecidableEq, Repr

/-- Bit of a cause in TLR_CH_PEND (R144). -/
def Cause.bit : Cause → Nat
  | .capture => 0 | .match' => 1 | .late => 2 | .mute => 3 | .stuck => 4 | .flush => 5 | .counter => 6
  | .sync => 7 | .tooth => 8 | .cam => 9 | .map => 10 | .draft => 11 | .adc => 12 | .post => 13
  | .rpost => 14 | .event => 15 | .wake => 16 | .host => 17 | .start => 18

/-- Self-check faults that fence an engine, with the numbers of ENG_STATe.fence_cause (spec/06, R165). -/
inductive FenceCause where
  | parity | regEcc | sequencer | budgetGuard | nestedTrap | host
  deriving DecidableEq, Repr

/-- Number of a fence cause in ENG_STATe.fence_cause. -/
def FenceCause.code : FenceCause → Nat
  | .parity => 1 | .regEcc => 2 | .sequencer => 3 | .budgetGuard => 4 | .nestedTrap => 5 | .host => 6

/-- A capture queue: a facet's or a counter's. -/
inductive CapQueue where
  | facet (n : Fin 256)
  | counter (n : Fin 32)
  deriving DecidableEq, Repr

/-- An entry on its way to a facet's armed queue (R61): its time, or none when the time is the GTB of the cycle after
arrival (R204, FCT_SCHED_CMD.now); action; LATE_DROP; tag; notify; the draft it comes from as (domain, entry). -/
structure ArmSpec where
  time : Option Time
  act : BitVec 2
  drop : Bool
  tag : Byte
  notify : Bool
  origin : Option (Fin 8 × Fin 256)
  deriving DecidableEq, Repr

/-- The fields a draft write carries (R121). -/
structure DraftSpec where
  angle : BitVec 21
  act : BitVec 2
  facet : Fin 256
  lead : BitVec 2
  drop : Bool
  tag : Byte
  notify : Bool
  autoFree : Bool
  limp : Bool
  owner : Fin 512
  hostOwn : Bool
  pairEn : Bool
  pair : Fin 256
  dur : Word
  deriving DecidableEq, Repr

/-- What the SECDED check of a Vault line finds, by word of the line (R264): words corrected, and words uncorrectable. -/
structure LineEcc where
  corr : BitVec 4
  bad : BitVec 4
  deriving DecidableEq, Repr

/-- A requester of the Vault port (R255, R258): an engine, the commit unit, a DMA channel, or another class. -/
inductive Requester where
  | engine (e : Fin 17)
  | commit
  | adc
  | dma (n : Fin 32)
  | host | assayer | bezel | sloulo
  deriving DecidableEq, Repr

/-- An access to one line (R254): a read; a write of the bytes given, with the others masked; an atomic on a word. -/
inductive LineOp where
  | read
  | write (bytes : List (Option Byte))
  | atomic (word : Fin 4) (swap : Bool) (v : Dword)
  deriving DecidableEq, Repr

/-- A request ready at the Vault port: who, which line, what, and what the check of the line would find. -/
structure VaultRequest where
  who : Requester
  line : Fin 524288
  op : LineOp
  ecc : LineEcc
  deriving DecidableEq, Repr

/-- A host access through a window: a read of a number of bytes, or a write with its byte
enables. -/
inductive HostAccess where
  | read (len : Nat)
  | write (bytes : List (Option Byte))
  deriving DecidableEq, Repr

/-- A legacy instruction as R195–R197 map it. What the reference manual of the Jengor member gives (the result and flags of
an ALU operation, whether a branch is taken) is an operand, as is what the context RAM finds at the commit of a legacy end (R142); `flags` stands as bits 3:0 of the context's flags. -/
inductive LegacyOp where
  | alu (d : Fin 8) (r : Word) (flags : BitVec 4)
  | compare (flags : BitVec 4)
  | branch (taken : Bool) (target : BitVec 16)
  | paramRead (d : Fin 8) (a : BitVec 22)
  | paramWrite (a : BitVec 22) (d : Fin 8)
  | schedule (pin : BitVec 6) (t : Fin 8) (act : BitVec 2) (drop : Bool) (tag : Byte) (notify : Bool)
  | counter (n : Fin 32) (k : Fin 4) (t : Fin 8)
  | flush (pin : BitVec 6)
  | safe (pin : BitVec 6)
  | release (pin : BitVec 6)
  | timeRead (d : Fin 8)
  | post (ch : BitVec 6)
  | finish (next : BitVec 16) (ctx : Ecc)
  deriving DecidableEq, Repr

/-- The facet of a facet instruction (R198): from bits 7:0 of a register (even opcode) or the bound facet (odd). -/
inductive FacetSel where
  | reg (b : Fin 16)
  | bound
  deriving DecidableEq, Repr

/-- What a DMA source read returns beside the bytes the part itself holds (R296, R306): the ECC outcome of a Vault or Daybook
line, the bytes of a host-memory line, or an error of the access. -/
structure DmaReply where
  ecc : LineEcc
  host : List Byte
  err : Option (BitVec 4)
  deriving DecidableEq, Repr

/-- The payload of a TOOTH cell (R367): edge time, position Θ_k mod (16 × cycle), the angles e1 to e4 ahead, slot, state,
reason, source domain, whether the state changed, the cycle bit, and the sequence number. -/
structure ToothCell where
  time : BitVec 40
  pos : BitVec 25
  e : Vector (BitVec 25) 4
  slot : BitVec 10
  state : BitVec 3
  reason : BitVec 4
  dom : BitVec 2
  trans : Bool
  cycle : Bool
  seq : BitVec 6
  deriving DecidableEq, Repr

/-- What a REPORT tells (R359, R374): the node's UID, the ID it holds, and for each UP or DEGRADED port the UID behind it, the delay and
whether it is DEGRADED. The spec lays out no payload of DISCOVER, REPORT and ROUTE; they stand as what they tell. -/
structure NodeReport where
  uid : Dword
  id : Option (Fin 64)
  links : Vector (Option (Dword × Nat × Bool)) 4
  deriving DecidableEq, Repr

/-- What a ROUTE cell gives a node (R359, R361): its UID, its ID, its SLO_ROUTE words, its depth, the node behind each port, its
broadcast-tree ports, the root's ID, and whether it belongs to a census or an admission. -/
structure RouteTable where
  uid : Dword
  id : Fin 64
  entries : List Word
  depth : Nat
  far : Vector (Option (Fin 64)) 4
  tree : Vector Bool 4
  root : Fin 64
  census : Bool
  deriving DecidableEq, Repr

/-- SUB cells (R351, R366). -/
inductive SubOp where
  | subscribe | unsubscribe | accept | refuse
  deriving DecidableEq, Repr

/-- Payload of a cell, by type (R351). -/
inductive CellBody where
  | tooth (c : ToothCell)
  | rpost (ch src : Fin 512) (time : Time)
  | revt (m : BitVec 5)
  | goat (cancel : Bool) (tally : Dword)
  | notice (tally : Dword) (kind : Notice)
  | bulk (data : List Byte) (post : Option (Fin 512))
  | discover (root : Dword) (full : Bool)
  | report (x : NodeReport)
  | route (x : RouteTable)
  | sub (op : SubOp) (source : Fin 4) (mirror : Fin 4)
  | hello (root : Dword)
  | reserved (type : BitVec 4)
  deriving DecidableEq, Repr

/-- A cell without its link fields (R350). -/
structure Cell where
  bcast : Bool
  dst : Fin 64
  src : Fin 64
  body : CellBody
  deriving DecidableEq, Repr

/-- The delay measurement a LINK cell carries (R363): a request, or a reply with t2 and t3. -/
inductive LinkTime where
  | none
  | request
  | reply (t2 t3 : Time)
  deriving DecidableEq, Repr

/-- A LINK cell (R352, R353, R356, R363): acknowledgement, credits by VC, nak, what the port declares of itself, its identity, the
delay measurement. -/
structure LinkCell where
  ack : BitVec 7
  credits : Vector Byte 4
  nak : Bool
  degraded : Bool
  down : Bool
  uid : Option Dword
  time : LinkTime
  deriving DecidableEq, Repr

/-- A census or an admission as one node sees it (R359, R360): the root with the reports it has gathered; any other node with the ROUTE
it is sent. -/
inductive Admission where
  | root (reports : List NodeReport)
  | node (x : RouteTable)
  deriving DecidableEq, Repr

/-- An input pad (R77, R92): a facet with the level that the outside drives now, or none; or a WHL input with its signal, in mV (R91): the differential
voltage in VR mode, that of WHLn_P in Hall mode. -/
inductive Pad where
  | facet (n : Fin 256) (level : Option Bool)
  | whl (n : Fin 8) (mv : Int)
  deriving DecidableEq, Repr

/-- What a PCIe configuration write sets (R340, R380–R382): the command register's memory and bus master enables; a BAR; MSI-X enable and
Function Mask; MSI enable with its message; the D-state with PME_En and a write of 1 to PME_Status; the payload and read-request sizes. -/
inductive CfgItem where
  | command (mem master : Bool)
  | bar (k : Fin 3) (addr : Dword)
  | msix (enable maskAll : Bool)
  | msi (enable : Bool) (addr : Dword) (data : BitVec 16)
  | power (d3 pmeEn clear : Bool)
  | sizes (mps mrrs : BitVec 3)
  deriving DecidableEq, Repr

/-- A PCIe configuration request: a read of the dword at an offset, or a write. -/
inductive ConfigReq where
  | read (off : BitVec 12)
  | write (x : CfgItem)
  deriving DecidableEq, Repr

/-- A host request that no window takes (R383, R386): a BAR0 read or write of another size, alignment or with enables off, or a write TLP
with EP set. -/
inductive BadAccess where
  | read | write | poisoned
  deriving DecidableEq, Repr

/-- What a JTAG debugger does (R415): the two instructions that are always there; control and inspection of the Assayer core; accesses of
registers and of the Vault. -/
inductive JtagOp where
  | idcode
  | bypass
  | halt
  | step
  | inspect
  | regRead (off : Nat)
  | regWrite (off : Nat) (v : Word)
  | vaultRead (addr : BitVec 24) (len : Nat) (eccs : List LineEcc)
  | vaultWrite (addr : BitVec 24) (bytes : List Byte) (eccs : List LineEcc)
  deriving DecidableEq, Repr

/-- The commands of the block, one constructor per row of spec/opcode_table.json. -/
inductive Instr where
  | registerWrite (off : Nat) (v : Word)
  | go (late : Bool)
  | counterWrap (n : Fin 32)
  | compareWrite (n : Fin 32) (k : Fin 4) (v : Word)
  | compareDisarm (n : Fin 32) (k : Fin 4)
  | counterMatch (n : Fin 32) (k : Fin 4)
  | goatReceive (origin : Fin 64) (cancel : Bool) (tally : Dword)
  | noticeReceive (kind : Notice)
  | armedEntryArrival (n : Fin 256) (x : ArmSpec)
  | facetCompareMatch (n : Fin 256)
  | facetCancel (n : Fin 256) (tag : Byte)
  | facetFlush (n : Fin 256)
  | facetSafe (n : Fin 256)
  | facetRelease (n : Fin 256)
  | edgeAccept (n : Fin 256)
  | muteEnd (n : Fin 256)
  | stuckDetect (n : Fin 256)
  | captureRemoval (q : CapQueue) (count : Nat)
  | primaryEdgeDecision (d : Fin 8)
  | secondaryEdgeDecision (d : Fin 8)
  | limpWatchStart (d : Fin 8)
  | overdue (d : Fin 8)
  | keepExpiry (d : Fin 8)
  | whlEdgeAccept (n : Fin 8)
  | whlMuteEnd (n : Fin 8)
  | whlStuckDetect (n : Fin 8)
  | vrPeakTimeout (n : Fin 8)
  | draftArrival (d : Fin 8) (k : Fin 256) (x : DraftSpec)
  | draftCancelArrival (d : Fin 8) (k : Fin 256) (ch : Fin 512)
  | draftFreeArrival (d : Fin 8) (k : Fin 256) (ch : Fin 512)
  | mirrorCellDecision (d : Fin 8)
  | coastSynthesis (d : Fin 8)
  | coastEnd (d : Fin 8)
  | wakeTimeReached (ch : Fin 512)
  | dispatch (q : Fin 4) (ctx : Ecc) (fetch : Ecc)
  | preemption (ctx : Ecc) (fetch : Ecc)
  | budgetAbort (e : Fin 17)
  | commitVaultWrite (ecc : LineEcc)
  | psRewriteDone (c : Fin 4) (pass : Bool)
  | illegalInstruction (e : Fin 17)
  | nop (e : Fin 17)
  | mov (e : Fin 17) (d : Fin 16) (a : Fin 16)
  | add (e : Fin 17) (d : Fin 16) (a : Fin 16) (b : Fin 16)
  | sub (e : Fin 17) (d : Fin 16) (a : Fin 16) (b : Fin 16)
  | and (e : Fin 17) (d : Fin 16) (a : Fin 16) (b : Fin 16)
  | or (e : Fin 17) (d : Fin 16) (a : Fin 16) (b : Fin 16)
  | xor (e : Fin 17) (d : Fin 16) (a : Fin 16) (b : Fin 16)
  | shl (e : Fin 17) (d : Fin 16) (a : Fin 16) (b : Fin 16)
  | shr (e : Fin 17) (d : Fin 16) (a : Fin 16) (b : Fin 16)
  | sar (e : Fin 17) (d : Fin 16) (a : Fin 16) (b : Fin 16)
  | mul (e : Fin 17) (d : Fin 16) (a : Fin 16) (b : Fin 16)
  | mulhu (e : Fin 17) (d : Fin 16) (a : Fin 16) (b : Fin 16)
  | mulsh (e : Fin 17) (d : Fin 16) (a : Fin 16) (b : Fin 16)
  | divu (e : Fin 17) (d : Fin 16) (a : Fin 16) (b : Fin 16)
  | remu (e : Fin 17) (d : Fin 16) (a : Fin 16) (b : Fin 16)
  | cmp (e : Fin 17) (a : Fin 16) (b : Fin 16)
  | tst (e : Fin 17) (a : Fin 16) (b : Fin 16)
  | minu (e : Fin 17) (d : Fin 16) (a : Fin 16) (b : Fin 16)
  | maxu (e : Fin 17) (d : Fin 16) (a : Fin 16) (b : Fin 16)
  | mins (e : Fin 17) (d : Fin 16) (a : Fin 16) (b : Fin 16)
  | maxs (e : Fin 17) (d : Fin 16) (a : Fin 16) (b : Fin 16)
  | ext (e : Fin 17) (d : Fin 16) (a : Fin 16) (func : BitVec 12)
  | ins (e : Fin 17) (d : Fin 16) (a : Fin 16) (func : BitVec 12)
  | addi (e : Fin 17) (d : Fin 16) (a : Fin 16) (imm : BitVec 16)
  | andi (e : Fin 17) (d : Fin 16) (a : Fin 16) (imm : BitVec 16)
  | ori (e : Fin 17) (d : Fin 16) (a : Fin 16) (imm : BitVec 16)
  | xori (e : Fin 17) (d : Fin 16) (a : Fin 16) (imm : BitVec 16)
  | shli (e : Fin 17) (d : Fin 16) (a : Fin 16) (imm : BitVec 16)
  | shri (e : Fin 17) (d : Fin 16) (a : Fin 16) (imm : BitVec 16)
  | sari (e : Fin 17) (d : Fin 16) (a : Fin 16) (imm : BitVec 16)
  | muli (e : Fin 17) (d : Fin 16) (a : Fin 16) (imm : BitVec 16)
  | cmpi (e : Fin 17) (a : Fin 16) (imm : BitVec 16)
  | cmpui (e : Fin 17) (a : Fin 16) (imm : BitVec 16)
  | ldi (e : Fin 17) (d : Fin 16) (imm : BitVec 16)
  | movk (e : Fin 17) (d : Fin 16) (k : BitVec 4) (imm : BitVec 16)
  | b (e : Fin 17) (off : BitVec 24)
  | call (e : Fin 17) (off : BitVec 24)
  | jr (e : Fin 17) (a : Fin 16)
  | beq (e : Fin 17) (off : BitVec 24)
  | bne (e : Fin 17) (off : BitVec 24)
  | blt (e : Fin 17) (off : BitVec 24)
  | bge (e : Fin 17) (off : BitVec 24)
  | bgt (e : Fin 17) (off : BitVec 24)
  | ble (e : Fin 17) (off : BitVec 24)
  | blo (e : Fin 17) (off : BitVec 24)
  | bhs (e : Fin 17) (off : BitVec 24)
  | bhi (e : Fin 17) (off : BitVec 24)
  | bls (e : Fin 17) (off : BitVec 24)
  | bmi (e : Fin 17) (off : BitVec 24)
  | bpl (e : Fin 17) (off : BitVec 24)
  | bvs (e : Fin 17) (off : BitVec 24)
  | bvc (e : Fin 17) (off : BitVec 24)
  | blate (e : Fin 17) (off : BitVec 24)
  | bnlate (e : Fin 17) (off : BitVec 24)
  | bqe (e : Fin 17) (off : BitVec 24)
  | bnqe (e : Fin 17) (off : BitVec 24)
  | ldw (e : Fin 17) (d : Fin 16) (a : Fin 16) (imm : BitVec 16)
  | ldd (e : Fin 17) (d : Fin 16) (a : Fin 16) (imm : BitVec 16)
  | ldh (e : Fin 17) (a : Fin 16) (imm : BitVec 16)
  | ldl (e : Fin 17) (a : Fin 16) (imm : BitVec 16)
  | stw (e : Fin 17) (d : Fin 16) (a : Fin 16) (imm : BitVec 16)
  | std (e : Fin 17) (d : Fin 16) (a : Fin 16) (imm : BitVec 16)
  | sth (e : Fin 17) (a : Fin 16) (imm : BitVec 16)
  | stl (e : Fin 17) (a : Fin 16) (imm : BitVec 16)
  | fadd (e : Fin 17) (d : Fin 16) (a : Fin 16) (b : Fin 16) (func : BitVec 12)
  | fswp (e : Fin 17) (d : Fin 16) (a : Fin 16) (b : Fin 16) (func : BitVec 12)
  | padd (e : Fin 17) (a : Fin 16) (b : Fin 16) (func : BitVec 12)
  | pswp (e : Fin 17) (a : Fin 16) (b : Fin 16) (func : BitVec 12)
  | endR (e : Fin 17) (imm : BitVec 16) (ctx : Ecc)
  | wait (e : Fin 17) (a : Fin 16) (func : BitVec 12) (ctx : Ecc)
  | yieldR (e : Fin 17) (ctx : Ecc)
  | post (e : Fin 17) (a : Fin 16) (func : BitVec 12)
  | trig (e : Fin 17) (func : BitVec 12)
  | mfs (e : Fin 17) (d : Fin 16) (func : BitVec 12)
  | mts (e : Fin 17) (a : Fin 16) (func : BitVec 12)
  | sched (e : Fin 17) (a : Fin 16) (fs : FacetSel) (func : BitVec 12)
  | drv (e : Fin 17) (fs : FacetSel) (func : BitVec 12)
  | fcan (e : Fin 17) (fs : FacetSel) (func : BitVec 12)
  | fcmdFlush (e : Fin 17) (fs : FacetSel)
  | fcmdSafe (e : Fin 17) (fs : FacetSel)
  | fcmdRelease (e : Fin 17) (fs : FacetSel)
  | fcap (e : Fin 17) (d : Fin 16) (fs : FacetSel) (func : BitVec 12)
  | flvl (e : Fin 17) (d : Fin 16) (fs : FacetSel)
  | ccmp (e : Fin 17) (a : Fin 16) (func : BitVec 12)
  | cdis (e : Fin 17) (func : BitVec 12)
  | cval (e : Fin 17) (d : Fin 16) (func : BitVec 12)
  | ccap (e : Fin 17) (d : Fin 16) (func : BitVec 12)
  | a2t (e : Fin 17) (d : Fin 16) (a : Fin 16) (func : BitVec 12)
  | t2a (e : Fin 17) (d : Fin 16) (a : Fin 16) (func : BitVec 12)
  | apos (e : Fin 17) (d : Fin 16) (func : BitVec 12)
  | awin (e : Fin 17) (d : Fin 16) (a : Fin 16) (b : Fin 16) (func : BitVec 12)
  | dwr (e : Fin 17) (d : Fin 16) (a : Fin 16) (b : Fin 16) (func : BitVec 12)
  | dcan (e : Fin 17) (a : Fin 16) (func : BitVec 12)
  | dfree (e : Fin 17) (a : Fin 16) (func : BitVec 12)
  | dst (e : Fin 17) (d : Fin 16) (a : Fin 16) (func : BitVec 12)
  | dtm (e : Fin 17) (d : Fin 16) (a : Fin 16) (func : BitVec 12)
  | conv (e : Fin 17) (a : Fin 16) (func : BitVec 12)
  | convu (e : Fin 17) (a : Fin 16) (func : BitVec 12)
  | rred (e : Fin 17) (d : Fin 16) (func : BitVec 12)
  | rwin (e : Fin 17) (a : Fin 16) (b : Fin 16) (func : BitVec 12)
  | rpost (e : Fin 17) (a : Fin 16) (func : BitVec 12)
  | remoteEvent (e : Fin 17) (a : Fin 16) (func : BitVec 12)
  | note (e : Fin 17) (a : Fin 16) (b : Fin 16) (func : BitVec 12)
  | seal (e : Fin 17) (a : Fin 16) (func : BitVec 12)
  | mintInstruction (e : Fin 17) (w : Word)
  | legacyInstruction (e : Fin 17) (x : LegacyOp)
  | mintTrapTimeout (e : Fin 17)
  | hostAtomicApply (ecc : LineEcc)
  | scrubRead (ecc : LineEcc)
  | channelTrigger (g : Fin 8) (time : Option Time) (tag : Byte)
  | timeTrigger (g : Fin 8)
  | angleTargetFire (g : Fin 8)
  | eventTrigger (g : Fin 8)
  | slotSample (g : Fin 8)
  | urgentRequestArrival (c : Fin 24) (input : BitVec 2) (addr : BitVec 24) (ch : Fin 512)
  | urgentConversion (c : Fin 24)
  | writerLineWrite (ecc : LineEcc)
  | windowClose (c : Fin 24) (r : Fin 4)
  | windowPublish (c : Fin 24) (r : Fin 4)
  | windowSubmit (c : Fin 24) (r : Fin 4) (start : Dword) (stop : Dword)
  | transferLoad (n : Fin 32) (pulsed : Bool)
  | pacePulse (n : Fin 32)
  | dmaReadReturn (n : Fin 32) (x : DmaReply)
  | dmaWriteIssue (n : Fin 32) (ecc : LineEcc)
  | assemblerLineWrite (m : Fin 16) (ecc : LineEcc)
  | copierArm (m : Fin 16)
  | sealArrival (m : Fin 16) (time : Time)
  | streamFreeze (m : Fin 16)
  | telemetryPacket (t : Fin 8)
  | sourcePending (n : Fin 1024)
  | delivery (t : Fin 35)
  | retarget (n : Fin 1024) (t : BitVec 6)
  | cellTransmit (p : Fin 4)
  | resendTimeout (p : Fin 4)
  | portDown (p : Fin 4)
  | portUp (p : Fin 4)
  | portDegraded (p : Fin 4)
  | linkMeasurement (p : Fin 4) (t1 : Time) (t2 : Time) (t3 : Time) (t4 : Time)
  | rootLost (acts : Bool)
  | routeReceive (x : RouteTable)
  | mirrorSubscribe (k : Fin 4)
  | subReceive (node : Fin 64) (op : SubOp) (source : Fin 4) (mirror : Fin 4)
  | rpostDelivery (ch : Fin 512)
  | revtDelivery (m : BitVec 5)
  | bulkTxRead (ecc : LineEcc)
  | consumerCountWrite (ecc : LineEcc)
  | bulkReceive (node : Fin 64) (data : List Byte) (post : Option (Fin 512)) (time : Time)
  | engineFence (e : Fin 17) (cause : FenceCause)
  | psUncorrectable (e : Fin 17) (x : GroupError)
  | reintegrationComplete (e : Fin 17) (pass : Bool)
  | parityRepair (e : Fin 17) (again : Bool) (master : Bool)
  | vaultAccess (reqs : List VaultRequest)
  | bar2Access (off : BitVec 25) (x : HostAccess) (eccs : List LineEcc)
  | conversionEnd (c : Fin 24) (vin : Int) (vext : Nat)
  | dmaPause (n : Fin 32) (p : Bool)
  | busError (n : Fin 32) (kind : BitVec 4) (addr : Dword)
  | throttleChange (temp : BitVec 16)
  | bar4Read (off : BitVec 28) (len : Nat) (eccs : List LineEcc)
  | transmitDone (m : Fin 2) (sfd : Time)
  | frameReceive (m : Fin 2) (bytes : List Byte) (sfd : Time) (good : Bool)
  | linkChange (m : Fin 2) (up : Bool)
  | eoi (n : Fin 1024)
  | wakePin (level : Bool)
  | linkCellReceive (p : Fin 4) (good : Bool) (x : LinkCell) (sof : Time)
  | cellReceive (p : Fin 4) (good : Bool) (seq : BitVec 7) (ack : BitVec 7) (x : Cell)
  | census (x : Admission)
  | incrementalAdmission (x : Admission)
  | qspiRead (addr : Word) (len : Byte) (eccs : List LineEcc) (cut : Bool)
  | qspiWrite (addr : Word) (len : Byte) (bytes : List Byte)
  | perst (low : Bool)
  | resetNRelease (hostsel : BitVec 2) (root : Bool) (bootSrc : Bool)
  | firmwareReady (bad0 : Bool) (bad1 : Bool)
  | ucodeLoaded (version : Word) (ms : BitVec 16) (disp : List Word) (legacy : List Word)
  | fwUpdate (ok : Bool)
  | otpKey (ok : Bool)
  | otpCfg (ok : Bool)
  | rollback (ok : Bool)
  | sensorSample (temps : Vector (BitVec 16) 9) (sups : Vector (BitVec 16) 10) (vio : List (Fin 8 × BitVec 16)) (ref : Word)
  | ledgerWrite (ok : Bool)
  | blockLockGained (p : Fin 4)
  | jtagAccess (x : JtagOp)
  | pcieConfigRequest (x : ConfigReq)
  | pcieLinkUp (speed : BitVec 3) (width : BitVec 3)
  | padTransition (pad : Pad) (phase : Fin 8)
  | hstBatchDataWrite (v : Word)
  | slewWrite (src : SlewOwner) (rate : Word)
  | counterCtrlWrite (n : Fin 32) (v : Word)
  | counterValueWrite (n : Fin 32) (v : Word)
  | counterCapturePop (n : Fin 32)
  | clrDrops (n : Fin 32)
  | gblGo (mask : Word)
  | gblHalt (mask : Word)
  | facetCtrlWrite (n : Fin 256) (v : Word)
  | schedPush (n : Fin 256) (v : Word)
  | facetUnmute (n : Fin 256)
  | facetClrCounts (n : Fin 256)
  | capClear (n : Fin 256)
  | filtWrite (n : Fin 256) (v : Word)
  | rateWrite (n : Fin 256) (v : Word)
  | capturePop (n : Fin 256)
  | domainEnable (d : Fin 8)
  | domainDisable (d : Fin 8)
  | reseek (d : Fin 8)
  | flipRev (d : Fin 8)
  | mapClear (d : Fin 8)
  | tableDataAccess (d : Fin 8) (w : Option Word)
  | edgeTimeRead (d : Fin 8)
  | whlUnmute (n : Fin 8)
  | whlClrCounts (n : Fin 8)
  | hostDraftWrite (d : Fin 8)
  | hostDraftCancel (d : Fin 8)
  | hostDraftFree (d : Fin 8)
  | draftRead (d : Fin 8)
  | draftClrCount (d : Fin 8)
  | causeSet (ch : Fin 512) (c : Cause)
  | programStoreWrite (k : BitVec 16) (v : Word)
  | contextWrite (ch : Fin 512) (off : Nat) (v : Word)
  | channelEnable (ch : Fin 512)
  | channelDisable (ch : Fin 512)
  | clrPend (ch : Fin 512)
  | hostCause (ch : Fin 512)
  | tellerRun (run : Bool)
  | hostFence (e : Fin 17)
  | reintegrate (e : Fin 17)
  | nanoWordLoad (v : Word)
  | nanoAddrWrite (v : Word)
  | microWordAccess (w : Option Word)
  | dispatchEntryWrite (k : Fin 256) (v : Word)
  | hostAtomicGo (swap : Bool)
  | hostTrigger (g : Fin 8)
  | groupStop (g : Fin 8)
  | groupClrCounts (g : Fin 8)
  | gtimeArm (g : Fin 8) (v : Word)
  | reducerEnable (c : Fin 24) (r : Fin 4) (v : Word)
  | groupEnableWrite (g : Fin 8) (v : Word)
  | ringEnable (v : Word)
  | calibrationGo (v : Word)
  | dmaArm (n : Fin 32)
  | dmaDisarm (n : Fin 32)
  | dmaAbort (n : Fin 32)
  | dmaClrCounts (n : Fin 32)
  | curSrcRead (n : Fin 32)
  | hostSeal (m : Fin 16)
  | sealEvent (m : Fin 16)
  | rearm (m : Fin 16)
  | streamClrCount (m : Fin 16)
  | streamEnable (m : Fin 16) (v : Word)
  | frameSend (m : Fin 2) (v : Word)
  | rxPop (m : Fin 2)
  | ptpOffsetWrite (v : Word)
  | pendWithdraw (n : Fin 1024)
  | sourceConfigWrite (n : Fin 1024) (v : Word)
  | runDozeSelect (doze : Bool)
  | bar0BadAccess (x : BadAccess)
  | abort
  | batchApply
  | tallyBoundary
  | gtbLowRead
  | pllLockLoss
  | pllRelock
  | goAtArm
  | goAtCancel
  | goAtRelease
  | safeNFall
  | safeNRise
  | globalSafeRelease
  | safeLock
  | ioRelease
  | commitStep3
  | clrPeak
  | mintLock
  | mintHide
  | scrubRewrite
  | vaultClrPeak
  | frameClose
  | calibrationComplete
  | burstStart
  | dmaRestart
  | blockClose
  | bar4Write
  | txtsPop
  | parkEntry
  | deepParkEntry
  | parkWake
  | deepParkWake
  | aonAlarm
  | readmit
  | alignHold
  | helloSend
  | qspiWriteApply
  | qspiStatus
  | qspiUnknownOpcode
  | hotReset
  | resetNAssert
  | pllLock
  | vaultClearDone
  | daybookTrained
  | mailboxInfo
  | ledgerRead
  | ledgerNote
  | fwRestart
  | ucodeLoad
  | progLoad
  | mintLoad
  | fwBoot
  | dbgChal
  | dbgResp
  | mailboxUnknownOpcode
  | mailboxResponse
  | debugClose
  | watchdogRestart
  | faultEdge
  | pulseToggle
  | asyClockStop
  deriving DecidableEq, Repr

end Sys2Proof
end

