-- ==== Sys2Proof/Decode.lean ====
section
/-!
DEFINITION. The opcode table gives the rows of this block no bits: its commands are events and accesses, not words.
-/
namespace Sys2Proof

/-- The command that a word spells by the table's bits: none, for every word. -/
def decodeTableWord (_nbits _w : Nat) : Option Instr := none

end Sys2Proof
end

