-- ==== Sys2Proof/Machine/RegMap.lean ====
section
/-!
DEFINITION. The register map: the offset of every register of BAR0, its fields, and for every register word its reset
value and which of its bits each access code of R10 governs. Each entry restates a register table of spec/.
-/
namespace Sys2Proof.Machine

/-- A field of a register word: the word's offset and the field's highest and lowest bit. -/
structure Fld where
  off : Nat
  hi : Nat
  lo : Nat
  deriving DecidableEq, Repr

/-- One register word, repeated `n1` times at stride `s1` and `n2` times at stride `s2`: its reset value, the bits of
each access code (R10), the RWL bits among the RW ones, and the reserved encodings of its fields as (high bit, low
bit, first, last), which a write replaces by the reset value (R9). -/
structure RegWord where
  base : Nat
  s1 : Nat
  n1 : Nat
  s2 : Nat
  n2 : Nat
  reset : Nat
  rw : Nat
  w1c : Nat
  w1s : Nat
  rwl : Nat
  wo : Nat
  bad : List (Nat × Nat × Nat × Nat)
  deriving DecidableEq, Repr

/-- Offset of HST_BATCH_CTRL (spec/01 register table). -/
def HST_BATCH_CTRL : Nat := 0x1c0000
def HST_BATCH_CTRL.late_policy : Fld := ⟨HST_BATCH_CTRL, 8, 8⟩
def HST_BATCH_CTRL.abort : Fld := ⟨HST_BATCH_CTRL, 1, 1⟩
def HST_BATCH_CTRL.go : Fld := ⟨HST_BATCH_CTRL, 0, 0⟩
/-- Offset of HST_BATCH_STAT (spec/01 register table). -/
def HST_BATCH_STAT : Nat := 0x1c0004
def HST_BATCH_STAT.abort_late : Fld := ⟨HST_BATCH_STAT, 21, 21⟩
def HST_BATCH_STAT.go_busy : Fld := ⟨HST_BATCH_STAT, 20, 20⟩
def HST_BATCH_STAT.overflow : Fld := ⟨HST_BATCH_STAT, 19, 19⟩
def HST_BATCH_STAT.reject : Fld := ⟨HST_BATCH_STAT, 18, 18⟩
def HST_BATCH_STAT.late : Fld := ⟨HST_BATCH_STAT, 17, 17⟩
def HST_BATCH_STAT.pending : Fld := ⟨HST_BATCH_STAT, 16, 16⟩
def HST_BATCH_STAT.fill_count : Fld := ⟨HST_BATCH_STAT, 6, 0⟩
/-- Offset of HST_BATCH_TALLY (spec/01 register table). -/
def HST_BATCH_TALLY : Nat := 0x1c0008
/-- Offset of HST_BATCH_ADDR (spec/01 register table). -/
def HST_BATCH_ADDR : Nat := 0x1c0010
def HST_BATCH_ADDR.offset : Fld := ⟨HST_BATCH_ADDR, 23, 2⟩
/-- Offset of HST_BATCH_DATA (spec/01 register table). -/
def HST_BATCH_DATA : Nat := 0x1c0014
def HST_BATCH_DATA.value : Fld := ⟨HST_BATCH_DATA, 31, 0⟩
/-- Offset of HST_BATCH_LAST (spec/01 register table). -/
def HST_BATCH_LAST : Nat := 0x1c0018
/-- Offset of TB_GTB (spec/02 register table). -/
def TB_GTB : Nat := 0x010000
/-- Offset of TB_TALLY (spec/02 register table). -/
def TB_TALLY : Nat := 0x010008
/-- Offset of TB_STAT (spec/02 register table). -/
def TB_STAT : Nat := 0x010010
def TB_STAT.step_cause : Fld := ⟨TB_STAT, 5, 4⟩
def TB_STAT.slew_sat : Fld := ⟨TB_STAT, 2, 2⟩
def TB_STAT.noncont : Fld := ⟨TB_STAT, 1, 1⟩
def TB_STAT.pll_lock : Fld := ⟨TB_STAT, 0, 0⟩
/-- Offset of TB_CTRL (spec/02 register table). -/
def TB_CTRL : Nat := 0x010014
def TB_CTRL.slew_src : Fld := ⟨TB_CTRL, 1, 0⟩
/-- Offset of TB_SLEW (spec/02 register table). -/
def TB_SLEW : Nat := 0x010018
def TB_SLEW.rate : Fld := ⟨TB_SLEW, 31, 0⟩
/-- Offset of TB_PARK_GTB (spec/02 register table). -/
def TB_PARK_GTB : Nat := 0x010020
/-- Offset of TB_RESUME_GTB (spec/02 register table). -/
def TB_RESUME_GTB : Nat := 0x010028
/-- Offset of GBL_GO (spec/02 register table). -/
def GBL_GO : Nat := 0x000100
def GBL_GO.mask : Fld := ⟨GBL_GO, 31, 0⟩
/-- Offset of GBL_HALT (spec/02 register table). -/
def GBL_HALT : Nat := 0x000104
def GBL_HALT.mask : Fld := ⟨GBL_HALT, 31, 0⟩
/-- Offset of GBL_GO_AT_MASK (spec/02 register table). -/
def GBL_GO_AT_MASK : Nat := 0x000108
def GBL_GO_AT_MASK.mask : Fld := ⟨GBL_GO_AT_MASK, 31, 0⟩
/-- Offset of GBL_GO_AT_CTRL (spec/02 register table). -/
def GBL_GO_AT_CTRL : Nat := 0x00010c
def GBL_GO_AT_CTRL.accept_remote : Fld := ⟨GBL_GO_AT_CTRL, 8, 8⟩
def GBL_GO_AT_CTRL.fabric : Fld := ⟨GBL_GO_AT_CTRL, 2, 2⟩
def GBL_GO_AT_CTRL.cancel : Fld := ⟨GBL_GO_AT_CTRL, 1, 1⟩
def GBL_GO_AT_CTRL.arm : Fld := ⟨GBL_GO_AT_CTRL, 0, 0⟩
/-- Offset of GBL_GO_AT_TALLY (spec/02 register table). -/
def GBL_GO_AT_TALLY : Nat := 0x000110
/-- Offset of GBL_GO_AT_STAT (spec/02 register table). -/
def GBL_GO_AT_STAT : Nat := 0x000118
def GBL_GO_AT_STAT.remote_refused : Fld := ⟨GBL_GO_AT_STAT, 5, 5⟩
def GBL_GO_AT_STAT.remote_late : Fld := ⟨GBL_GO_AT_STAT, 4, 4⟩
def GBL_GO_AT_STAT.busy : Fld := ⟨GBL_GO_AT_STAT, 3, 3⟩
def GBL_GO_AT_STAT.late : Fld := ⟨GBL_GO_AT_STAT, 2, 2⟩
def GBL_GO_AT_STAT.done' : Fld := ⟨GBL_GO_AT_STAT, 1, 1⟩
def GBL_GO_AT_STAT.pending : Fld := ⟨GBL_GO_AT_STAT, 0, 0⟩
/-- Offset of CNT_CMP (spec/02 register table). -/
def CNT_CMP (n : Nat) (k : Nat) : Nat := 0x020000 + 0x40 * n + 0x4 * k
def CNT_CMP.value (n : Nat) (k : Nat) : Fld := ⟨CNT_CMP n k, 31, 0⟩
/-- Offset of CNT_CMPCTL (spec/02 register table). -/
def CNT_CMPCTL (n : Nat) (k : Nat) : Nat := 0x020010 + 0x40 * n + 0x4 * k
def CNT_CMPCTL.armed (n : Nat) (k : Nat) : Fld := ⟨CNT_CMPCTL n k, 31, 31⟩
def CNT_CMPCTL.disarm (n : Nat) (k : Nat) : Fld := ⟨CNT_CMPCTL n k, 30, 30⟩
def CNT_CMPCTL.evt (n : Nat) (k : Nat) : Fld := ⟨CNT_CMPCTL n k, 17, 17⟩
def CNT_CMPCTL.svc (n : Nat) (k : Nat) : Fld := ⟨CNT_CMPCTL n k, 16, 16⟩
def CNT_CMPCTL.facet (n : Nat) (k : Nat) : Fld := ⟨CNT_CMPCTL n k, 15, 8⟩
def CNT_CMPCTL.pin_act (n : Nat) (k : Nat) : Fld := ⟨CNT_CMPCTL n k, 1, 0⟩
/-- Offset of CNT_CTRL (spec/02 register table). -/
def CNT_CTRL (n : Nat) : Nat := 0x020020 + 0x40 * n
def CNT_CTRL.div (n : Nat) : Fld := ⟨CNT_CTRL n, 31, 16⟩
def CNT_CTRL.sel (n : Nat) : Fld := ⟨CNT_CTRL n, 15, 8⟩
def CNT_CTRL.edge (n : Nat) : Fld := ⟨CNT_CTRL n, 7, 6⟩
def CNT_CTRL.zero_on_go (n : Nat) : Fld := ⟨CNT_CTRL n, 5, 5⟩
def CNT_CTRL.src (n : Nat) : Fld := ⟨CNT_CTRL n, 3, 1⟩
def CNT_CTRL.run (n : Nat) : Fld := ⟨CNT_CTRL n, 0, 0⟩
/-- Offset of CNT_VAL (spec/02 register table). -/
def CNT_VAL (n : Nat) : Nat := 0x020024 + 0x40 * n
def CNT_VAL.count (n : Nat) : Fld := ⟨CNT_VAL n, 31, 0⟩
/-- Offset of CNT_STAT (spec/02 register table). -/
def CNT_STAT (n : Nat) : Nat := 0x020028 + 0x40 * n
def CNT_STAT.cap_depth (n : Nat) : Fld := ⟨CNT_STAT n, 18, 16⟩
def CNT_STAT.angle_hold (n : Nat) : Fld := ⟨CNT_STAT n, 12, 12⟩
def CNT_STAT.wr_ignored (n : Nat) : Fld := ⟨CNT_STAT n, 11, 11⟩
def CNT_STAT.pin_blocked (n : Nat) : Fld := ⟨CNT_STAT n, 10, 10⟩
def CNT_STAT.cap_ovf (n : Nat) : Fld := ⟨CNT_STAT n, 9, 9⟩
def CNT_STAT.wrap (n : Nat) : Fld := ⟨CNT_STAT n, 8, 8⟩
def CNT_STAT.late (n : Nat) : Fld := ⟨CNT_STAT n, 7, 4⟩
def CNT_STAT.match' (n : Nat) : Fld := ⟨CNT_STAT n, 3, 0⟩
/-- Offset of CNT_BIND (spec/02 register table). -/
def CNT_BIND (n : Nat) : Nat := 0x02002c + 0x40 * n
def CNT_BIND.en (n : Nat) : Fld := ⟨CNT_BIND n, 15, 15⟩
def CNT_BIND.channel (n : Nat) : Fld := ⟨CNT_BIND n, 8, 0⟩
/-- Offset of CNT_CAP_TIME (spec/02 register table). -/
def CNT_CAP_TIME (n : Nat) : Nat := 0x020030 + 0x40 * n
/-- Offset of CNT_CAP_VAL (spec/02 register table). -/
def CNT_CAP_VAL (n : Nat) : Nat := 0x020038 + 0x40 * n
def CNT_CAP_VAL.count (n : Nat) : Fld := ⟨CNT_CAP_VAL n, 31, 0⟩
/-- Offset of CNT_CAP_CTRL (spec/02 register table). -/
def CNT_CAP_CTRL (n : Nat) : Nat := 0x02003c + 0x40 * n
def CNT_CAP_CTRL.drops (n : Nat) : Fld := ⟨CNT_CAP_CTRL n, 31, 24⟩
def CNT_CAP_CTRL.clr_drops (n : Nat) : Fld := ⟨CNT_CAP_CTRL n, 23, 23⟩
def CNT_CAP_CTRL.svc (n : Nat) : Fld := ⟨CNT_CAP_CTRL n, 18, 18⟩
def CNT_CAP_CTRL.edge (n : Nat) : Fld := ⟨CNT_CAP_CTRL n, 17, 16⟩
def CNT_CAP_CTRL.sel (n : Nat) : Fld := ⟨CNT_CAP_CTRL n, 15, 8⟩
def CNT_CAP_CTRL.src (n : Nat) : Fld := ⟨CNT_CAP_CTRL n, 1, 0⟩
/-- Offset of FCT_CTRL (spec/03 register table). -/
def FCT_CTRL (n : Nat) : Nat := 0x040000 + 0x40 * n
def FCT_CTRL.cap_owner (n : Nat) : Fld := ⟨FCT_CTRL n, 15, 15⟩
def FCT_CTRL.cnt_act_en (n : Nat) : Fld := ⟨FCT_CTRL n, 14, 14⟩
def FCT_CTRL.cap_edge (n : Nat) : Fld := ⟨FCT_CTRL n, 13, 12⟩
def FCT_CTRL.safe_lvl (n : Nat) : Fld := ⟨FCT_CTRL n, 9, 8⟩
def FCT_CTRL.pull (n : Nat) : Fld := ⟨FCT_CTRL n, 5, 4⟩
def FCT_CTRL.mode (n : Nat) : Fld := ⟨FCT_CTRL n, 2, 0⟩
/-- Offset of FCT_BIND (spec/03 register table). -/
def FCT_BIND (n : Nat) : Nat := 0x040004 + 0x40 * n
def FCT_BIND.flush_en (n : Nat) : Fld := ⟨FCT_BIND n, 21, 21⟩
def FCT_BIND.stuck_en (n : Nat) : Fld := ⟨FCT_BIND n, 20, 20⟩
def FCT_BIND.mute_en (n : Nat) : Fld := ⟨FCT_BIND n, 19, 19⟩
def FCT_BIND.late_en (n : Nat) : Fld := ⟨FCT_BIND n, 18, 18⟩
def FCT_BIND.match_en (n : Nat) : Fld := ⟨FCT_BIND n, 17, 17⟩
def FCT_BIND.cap_en (n : Nat) : Fld := ⟨FCT_BIND n, 16, 16⟩
def FCT_BIND.en (n : Nat) : Fld := ⟨FCT_BIND n, 15, 15⟩
def FCT_BIND.channel (n : Nat) : Fld := ⟨FCT_BIND n, 8, 0⟩
/-- Offset of FCT_FILT (spec/03 register table). -/
def FCT_FILT (n : Nat) : Nat := 0x040008 + 0x40 * n
def FCT_FILT.stuck_lim (n : Nat) : Fld := ⟨FCT_FILT n, 31, 16⟩
def FCT_FILT.stuck_lvl (n : Nat) : Fld := ⟨FCT_FILT n, 8, 8⟩
def FCT_FILT.len (n : Nat) : Fld := ⟨FCT_FILT n, 7, 0⟩
/-- Offset of FCT_RATE (spec/03 register table). -/
def FCT_RATE (n : Nat) : Nat := 0x04000c + 0x40 * n
def FCT_RATE.mute_cnt (n : Nat) : Fld := ⟨FCT_RATE n, 31, 16⟩
def FCT_RATE.latch (n : Nat) : Fld := ⟨FCT_RATE n, 12, 12⟩
def FCT_RATE.hold (n : Nat) : Fld := ⟨FCT_RATE n, 11, 8⟩
def FCT_RATE.max (n : Nat) : Fld := ⟨FCT_RATE n, 7, 0⟩
/-- Offset of FCT_SCHED_TIME (spec/03 register table). -/
def FCT_SCHED_TIME (n : Nat) : Nat := 0x040010 + 0x40 * n
/-- Offset of FCT_SCHED_CMD (spec/03 register table). -/
def FCT_SCHED_CMD (n : Nat) : Nat := 0x040018 + 0x40 * n
def FCT_SCHED_CMD.push (n : Nat) : Fld := ⟨FCT_SCHED_CMD n, 31, 31⟩
def FCT_SCHED_CMD.now (n : Nat) : Fld := ⟨FCT_SCHED_CMD n, 18, 18⟩
def FCT_SCHED_CMD.notify (n : Nat) : Fld := ⟨FCT_SCHED_CMD n, 17, 17⟩
def FCT_SCHED_CMD.policy (n : Nat) : Fld := ⟨FCT_SCHED_CMD n, 16, 16⟩
def FCT_SCHED_CMD.tag (n : Nat) : Fld := ⟨FCT_SCHED_CMD n, 15, 8⟩
def FCT_SCHED_CMD.act (n : Nat) : Fld := ⟨FCT_SCHED_CMD n, 1, 0⟩
/-- Offset of FCT_CMD (spec/03 register table). -/
def FCT_CMD (n : Nat) : Nat := 0x04001c + 0x40 * n
def FCT_CMD.tag (n : Nat) : Fld := ⟨FCT_CMD n, 23, 16⟩
def FCT_CMD.unmute (n : Nat) : Fld := ⟨FCT_CMD n, 8, 8⟩
def FCT_CMD.clr_counts (n : Nat) : Fld := ⟨FCT_CMD n, 7, 7⟩
def FCT_CMD.cap_clear (n : Nat) : Fld := ⟨FCT_CMD n, 6, 6⟩
def FCT_CMD.cancel (n : Nat) : Fld := ⟨FCT_CMD n, 5, 5⟩
def FCT_CMD.flush (n : Nat) : Fld := ⟨FCT_CMD n, 4, 4⟩
def FCT_CMD.release (n : Nat) : Fld := ⟨FCT_CMD n, 1, 1⟩
def FCT_CMD.safe (n : Nat) : Fld := ⟨FCT_CMD n, 0, 0⟩
/-- Offset of FCT_CAP_TIME (spec/03 register table). -/
def FCT_CAP_TIME (n : Nat) : Nat := 0x040020 + 0x40 * n
/-- Offset of FCT_CAP_INFO (spec/03 register table). -/
def FCT_CAP_INFO (n : Nat) : Nat := 0x040028 + 0x40 * n
def FCT_CAP_INFO.drops (n : Nat) : Fld := ⟨FCT_CAP_INFO n, 31, 16⟩
def FCT_CAP_INFO.depth (n : Nat) : Fld := ⟨FCT_CAP_INFO n, 11, 8⟩
def FCT_CAP_INFO.valid (n : Nat) : Fld := ⟨FCT_CAP_INFO n, 1, 1⟩
def FCT_CAP_INFO.pol (n : Nat) : Fld := ⟨FCT_CAP_INFO n, 0, 0⟩
/-- Offset of FCT_STAT (spec/03 register table). -/
def FCT_STAT (n : Nat) : Nat := 0x04002c + 0x40 * n
def FCT_STAT.stuck (n : Nat) : Fld := ⟨FCT_STAT n, 8, 8⟩
def FCT_STAT.muted (n : Nat) : Fld := ⟨FCT_STAT n, 7, 7⟩
def FCT_STAT.cap_ovf (n : Nat) : Fld := ⟨FCT_STAT n, 6, 6⟩
def FCT_STAT.blocked (n : Nat) : Fld := ⟨FCT_STAT n, 5, 5⟩
def FCT_STAT.flushed (n : Nat) : Fld := ⟨FCT_STAT n, 4, 4⟩
def FCT_STAT.late_drop (n : Nat) : Fld := ⟨FCT_STAT n, 3, 3⟩
def FCT_STAT.qfull (n : Nat) : Fld := ⟨FCT_STAT n, 2, 2⟩
def FCT_STAT.late (n : Nat) : Fld := ⟨FCT_STAT n, 1, 1⟩
def FCT_STAT.match' (n : Nat) : Fld := ⟨FCT_STAT n, 0, 0⟩
/-- Offset of FCT_LEVEL (spec/03 register table). -/
def FCT_LEVEL (n : Nat) : Nat := 0x040030 + 0x40 * n
def FCT_LEVEL.armed (n : Nat) : Fld := ⟨FCT_LEVEL n, 18, 16⟩
def FCT_LEVEL.mute_now (n : Nat) : Fld := ⟨FCT_LEVEL n, 5, 5⟩
def FCT_LEVEL.stuck_now (n : Nat) : Fld := ⟨FCT_LEVEL n, 4, 4⟩
def FCT_LEVEL.held (n : Nat) : Fld := ⟨FCT_LEVEL n, 3, 3⟩
def FCT_LEVEL.out (n : Nat) : Fld := ⟨FCT_LEVEL n, 2, 2⟩
def FCT_LEVEL.filt (n : Nat) : Fld := ⟨FCT_LEVEL n, 1, 1⟩
def FCT_LEVEL.pad (n : Nat) : Fld := ⟨FCT_LEVEL n, 0, 0⟩
/-- Offset of FCT_NEXT (spec/03 register table). -/
def FCT_NEXT (n : Nat) : Nat := 0x040038 + 0x40 * n
/-- Offset of FCT_BANK (spec/03 register table). -/
def FCT_BANK (b : Nat) : Nat := 0x044000 + 0x4 * b
def FCT_BANK.vmis (b : Nat) : Fld := ⟨FCT_BANK b, 16, 16⟩
def FCT_BANK.drive (b : Nat) : Fld := ⟨FCT_BANK b, 9, 8⟩
def FCT_BANK.slew (b : Nat) : Fld := ⟨FCT_BANK b, 5, 4⟩
def FCT_BANK.schmitt (b : Nat) : Fld := ⟨FCT_BANK b, 3, 3⟩
def FCT_BANK.vsel (b : Nat) : Fld := ⟨FCT_BANK b, 0, 0⟩
/-- Offset of FCT_GSAFE (spec/03 register table). -/
def FCT_GSAFE : Nat := 0x044040
def FCT_GSAFE.lock : Fld := ⟨FCT_GSAFE, 7, 7⟩
def FCT_GSAFE.safe_n : Fld := ⟨FCT_GSAFE, 6, 6⟩
def FCT_GSAFE.seen : Fld := ⟨FCT_GSAFE, 5, 5⟩
def FCT_GSAFE.io_hold : Fld := ⟨FCT_GSAFE, 4, 4⟩
def FCT_GSAFE.io_release : Fld := ⟨FCT_GSAFE, 3, 3⟩
def FCT_GSAFE.release : Fld := ⟨FCT_GSAFE, 2, 2⟩
def FCT_GSAFE.latch : Fld := ⟨FCT_GSAFE, 1, 1⟩
def FCT_GSAFE.held : Fld := ⟨FCT_GSAFE, 0, 0⟩
/-- Offset of FCT_MUTED_SUM (spec/03 register table). -/
def FCT_MUTED_SUM (w : Nat) : Nat := 0x044080 + 0x4 * w
def FCT_MUTED_SUM.muted (w : Nat) : Fld := ⟨FCT_MUTED_SUM w, 31, 0⟩
/-- Offset of FCT_ROUTE (spec/03 register table). -/
def FCT_ROUTE (s : Nat) : Nat := 0x044100 + 0x4 * s
def FCT_ROUTE.en (s : Nat) : Fld := ⟨FCT_ROUTE s, 31, 31⟩
def FCT_ROUTE.edge (s : Nat) : Fld := ⟨FCT_ROUTE s, 9, 8⟩
def FCT_ROUTE.facet (s : Nat) : Fld := ⟨FCT_ROUTE s, 7, 0⟩
/-- Offset of BZL_CTRL (spec/04 register table). -/
def BZL_CTRL (d : Nat) : Nat := 0x060000 + 0x1000 * d
def BZL_CTRL.en (d : Nat) : Fld := ⟨BZL_CTRL d, 0, 0⟩
/-- Offset of BZL_CMD (spec/04 register table). -/
def BZL_CMD (d : Nat) : Nat := 0x060004 + 0x1000 * d
def BZL_CMD.map_clear (d : Nat) : Fld := ⟨BZL_CMD d, 2, 2⟩
def BZL_CMD.flip_rev (d : Nat) : Fld := ⟨BZL_CMD d, 1, 1⟩
def BZL_CMD.reseek (d : Nat) : Fld := ⟨BZL_CMD d, 0, 0⟩
/-- Offset of BZL_CFG (spec/04 register table). -/
def BZL_CFG (d : Nat) : Nat := 0x060008 + 0x1000 * d
def BZL_CFG.slots (d : Nat) : Fld := ⟨BZL_CFG d, 29, 20⟩
def BZL_CFG.uniform (d : Nat) : Fld := ⟨BZL_CFG d, 19, 19⟩
def BZL_CFG.sync_mode (d : Nat) : Fld := ⟨BZL_CFG d, 18, 18⟩
def BZL_CFG.cycle (d : Nat) : Fld := ⟨BZL_CFG d, 17, 17⟩
def BZL_CFG.pri_facet (d : Nat) : Fld := ⟨BZL_CFG d, 15, 8⟩
def BZL_CFG.pri_edge (d : Nat) : Fld := ⟨BZL_CFG d, 7, 6⟩
def BZL_CFG.pri_kind (d : Nat) : Fld := ⟨BZL_CFG d, 5, 4⟩
def BZL_CFG.pri_whl (d : Nat) : Fld := ⟨BZL_CFG d, 2, 0⟩
/-- Offset of BZL_REF_ANGLE (spec/04 register table). -/
def BZL_REF_ANGLE (d : Nat) : Nat := 0x06000c + 0x1000 * d
def BZL_REF_ANGLE.angle (d : Nat) : Fld := ⟨BZL_REF_ANGLE d, 20, 0⟩
/-- Offset of BZL_WIN_NORM (spec/04 register table). -/
def BZL_WIN_NORM (d : Nat) : Nat := 0x060010 + 0x1000 * d
def BZL_WIN_NORM.hi (d : Nat) : Fld := ⟨BZL_WIN_NORM d, 31, 16⟩
def BZL_WIN_NORM.lo (d : Nat) : Fld := ⟨BZL_WIN_NORM d, 15, 0⟩
/-- Offset of BZL_WIN_GAP (spec/04 register table). -/
def BZL_WIN_GAP (d : Nat) : Nat := 0x060014 + 0x1000 * d
def BZL_WIN_GAP.hi (d : Nat) : Fld := ⟨BZL_WIN_GAP d, 31, 16⟩
def BZL_WIN_GAP.lo (d : Nat) : Fld := ⟨BZL_WIN_GAP d, 15, 0⟩
/-- Offset of BZL_SYNC (spec/04 register table). -/
def BZL_SYNC (d : Nat) : Nat := 0x060018 + 0x1000 * d
def BZL_SYNC.confirm_teeth (d : Nat) : Fld := ⟨BZL_SYNC d, 25, 16⟩
def BZL_SYNC.cam_lost_lim (d : Nat) : Fld := ⟨BZL_SYNC d, 15, 12⟩
def BZL_SYNC.limp_en (d : Nat) : Fld := ⟨BZL_SYNC d, 11, 11⟩
def BZL_SYNC.no_cam (d : Nat) : Fld := ⟨BZL_SYNC d, 10, 10⟩
def BZL_SYNC.resume (d : Nat) : Fld := ⟨BZL_SYNC d, 9, 9⟩
def BZL_SYNC.auto_reseek (d : Nat) : Fld := ⟨BZL_SYNC d, 8, 8⟩
def BZL_SYNC.limp_start (d : Nat) : Fld := ⟨BZL_SYNC d, 7, 7⟩
def BZL_SYNC.seek_min (d : Nat) : Fld := ⟨BZL_SYNC d, 3, 0⟩
/-- Offset of BZL_STALL (spec/04 register table). -/
def BZL_STALL (d : Nat) : Nat := 0x06001c + 0x1000 * d
def BZL_STALL.keep (d : Nat) : Fld := ⟨BZL_STALL d, 23, 0⟩
/-- Offset of BZL_DIR (spec/04 register table). -/
def BZL_DIR (d : Nat) : Nat := 0x060020 + 0x1000 * d
def BZL_DIR.rev_ofs (d : Nat) : Fld := ⟨BZL_DIR d, 31, 16⟩
def BZL_DIR.dir_sel (d : Nat) : Fld := ⟨BZL_DIR d, 15, 8⟩
def BZL_DIR.dir_kind (d : Nat) : Fld := ⟨BZL_DIR d, 7, 7⟩
def BZL_DIR.dir_lvl (d : Nat) : Fld := ⟨BZL_DIR d, 6, 6⟩
def BZL_DIR.dir_mode (d : Nat) : Fld := ⟨BZL_DIR d, 5, 4⟩
/-- Offset of BZL_DIR_WIDTH (spec/04 register table). -/
def BZL_DIR_WIDTH (d : Nat) : Nat := 0x060024 + 0x1000 * d
def BZL_DIR_WIDTH.rev_width (d : Nat) : Fld := ⟨BZL_DIR_WIDTH d, 15, 0⟩
/-- Offset of BZL_LIMP (spec/04 register table). -/
def BZL_LIMP (d : Nat) : Nat := 0x060028 + 0x1000 * d
def BZL_LIMP.start_wait (d : Nat) : Fld := ⟨BZL_LIMP d, 31, 16⟩
def BZL_LIMP.ratio (d : Nat) : Fld := ⟨BZL_LIMP d, 15, 0⟩
/-- Offset of BZL_STATE (spec/04 register table). -/
def BZL_STATE (d : Nat) : Nat := 0x060040 + 0x1000 * d
def BZL_STATE.slot (d : Nat) : Fld := ⟨BZL_STATE d, 25, 16⟩
def BZL_STATE.map_valid (d : Nat) : Fld := ⟨BZL_STATE d, 8, 8⟩
def BZL_STATE.cam_track (d : Nat) : Fld := ⟨BZL_STATE d, 7, 7⟩
def BZL_STATE.rev_assumed (d : Nat) : Fld := ⟨BZL_STATE d, 6, 6⟩
def BZL_STATE.rev (d : Nat) : Fld := ⟨BZL_STATE d, 5, 5⟩
def BZL_STATE.pos_valid (d : Nat) : Fld := ⟨BZL_STATE d, 4, 4⟩
def BZL_STATE.dir (d : Nat) : Fld := ⟨BZL_STATE d, 3, 3⟩
def BZL_STATE.state (d : Nat) : Fld := ⟨BZL_STATE d, 2, 0⟩
/-- Offset of BZL_FLAGS (spec/04 register table). -/
def BZL_FLAGS (d : Nat) : Nat := 0x060044 + 0x1000 * d
def BZL_FLAGS.resumed (d : Nat) : Fld := ⟨BZL_FLAGS d, 10, 10⟩
def BZL_FLAGS.map_err (d : Nat) : Fld := ⟨BZL_FLAGS d, 9, 9⟩
def BZL_FLAGS.map_done (d : Nat) : Fld := ⟨BZL_FLAGS d, 8, 8⟩
def BZL_FLAGS.pri_stuck (d : Nat) : Fld := ⟨BZL_FLAGS d, 7, 7⟩
def BZL_FLAGS.overspeed (d : Nat) : Fld := ⟨BZL_FLAGS d, 6, 6⟩
def BZL_FLAGS.rev_err (d : Nat) : Fld := ⟨BZL_FLAGS d, 5, 5⟩
def BZL_FLAGS.cam_err (d : Nat) : Fld := ⟨BZL_FLAGS d, 4, 4⟩
def BZL_FLAGS.tbl_err (d : Nat) : Fld := ⟨BZL_FLAGS d, 3, 3⟩
def BZL_FLAGS.overdue (d : Nat) : Fld := ⟨BZL_FLAGS d, 2, 2⟩
def BZL_FLAGS.violation (d : Nat) : Fld := ⟨BZL_FLAGS d, 1, 1⟩
def BZL_FLAGS.state_chg (d : Nat) : Fld := ⟨BZL_FLAGS d, 0, 0⟩
/-- Offset of BZL_POS (spec/04 register table). -/
def BZL_POS (d : Nat) : Nat := 0x060048 + 0x1000 * d
def BZL_POS.angle (d : Nat) : Fld := ⟨BZL_POS d, 31, 0⟩
/-- Offset of BZL_EDGE_TIME (spec/04 register table). -/
def BZL_EDGE_TIME (d : Nat) : Nat := 0x060050 + 0x1000 * d
/-- Offset of BZL_PERIOD (spec/04 register table). -/
def BZL_PERIOD (d : Nat) : Nat := 0x060058 + 0x1000 * d
def BZL_PERIOD.interval (d : Nat) : Fld := ⟨BZL_PERIOD d, 31, 0⟩
/-- Offset of BZL_CYCLES (spec/04 register table). -/
def BZL_CYCLES (d : Nat) : Nat := 0x06005c + 0x1000 * d
def BZL_CYCLES.count (d : Nat) : Fld := ⟨BZL_CYCLES d, 31, 0⟩
/-- Offset of BZL_BIND (spec/04 register table). -/
def BZL_BIND (d : Nat) : Nat := 0x060060 + 0x1000 * d
def BZL_BIND.map_en (d : Nat) : Fld := ⟨BZL_BIND d, 19, 19⟩
def BZL_BIND.cam_en (d : Nat) : Fld := ⟨BZL_BIND d, 18, 18⟩
def BZL_BIND.tooth_en (d : Nat) : Fld := ⟨BZL_BIND d, 17, 17⟩
def BZL_BIND.sync_en (d : Nat) : Fld := ⟨BZL_BIND d, 16, 16⟩
def BZL_BIND.en (d : Nat) : Fld := ⟨BZL_BIND d, 15, 15⟩
def BZL_BIND.channel (d : Nat) : Fld := ⟨BZL_BIND d, 8, 0⟩
/-- Offset of BZL_TBL_IDX (spec/04 register table). -/
def BZL_TBL_IDX (d : Nat) : Nat := 0x060080 + 0x1000 * d
def BZL_TBL_IDX.table (d : Nat) : Fld := ⟨BZL_TBL_IDX d, 25, 24⟩
def BZL_TBL_IDX.index (d : Nat) : Fld := ⟨BZL_TBL_IDX d, 9, 0⟩
/-- Offset of BZL_TBL_DATA (spec/04 register table). -/
def BZL_TBL_DATA (d : Nat) : Nat := 0x060084 + 0x1000 * d
def BZL_TBL_DATA.entry (d : Nat) : Fld := ⟨BZL_TBL_DATA d, 31, 0⟩
/-- Offset of BZL_MAP_CTRL (spec/04 register table). -/
def BZL_MAP_CTRL (d : Nat) : Nat := 0x060090 + 0x1000 * d
def BZL_MAP_CTRL.err_lim (d : Nat) : Fld := ⟨BZL_MAP_CTRL d, 31, 16⟩
def BZL_MAP_CTRL.learn_lim (d : Nat) : Fld := ⟨BZL_MAP_CTRL d, 15, 8⟩
def BZL_MAP_CTRL.use (d : Nat) : Fld := ⟨BZL_MAP_CTRL d, 3, 3⟩
def BZL_MAP_CTRL.mode (d : Nat) : Fld := ⟨BZL_MAP_CTRL d, 1, 0⟩
/-- Offset of BZL_MAP_STAT (spec/04 register table). -/
def BZL_MAP_STAT (d : Nat) : Nat := 0x060094 + 0x1000 * d
def BZL_MAP_STAT.rejected (d : Nat) : Fld := ⟨BZL_MAP_STAT d, 31, 16⟩
def BZL_MAP_STAT.counted (d : Nat) : Fld := ⟨BZL_MAP_STAT d, 7, 0⟩
/-- Offset of BZL_SEC_CFG (spec/04 register table). -/
def BZL_SEC_CFG (d : Nat) (w : Nat) : Nat := 0x060100 + 0x1000 * d + 0x20 * w
def BZL_SEC_CFG.en (d : Nat) (w : Nat) : Fld := ⟨BZL_SEC_CFG d w, 31, 31⟩
def BZL_SEC_CFG.facet (d : Nat) (w : Nat) : Fld := ⟨BZL_SEC_CFG d w, 23, 16⟩
def BZL_SEC_CFG.kind (d : Nat) (w : Nat) : Fld := ⟨BZL_SEC_CFG d w, 13, 12⟩
def BZL_SEC_CFG.whl (d : Nat) (w : Nat) : Fld := ⟨BZL_SEC_CFG d w, 10, 8⟩
def BZL_SEC_CFG.edges (d : Nat) (w : Nat) : Fld := ⟨BZL_SEC_CFG d w, 5, 0⟩
/-- Offset of BZL_SEC_PMIN (spec/04 register table). -/
def BZL_SEC_PMIN (d : Nat) (w : Nat) : Nat := 0x060104 + 0x1000 * d + 0x20 * w
def BZL_SEC_PMIN.phase (d : Nat) (w : Nat) : Fld := ⟨BZL_SEC_PMIN d w, 31, 0⟩
/-- Offset of BZL_SEC_PMAX (spec/04 register table). -/
def BZL_SEC_PMAX (d : Nat) (w : Nat) : Nat := 0x060108 + 0x1000 * d + 0x20 * w
def BZL_SEC_PMAX.phase (d : Nat) (w : Nat) : Fld := ⟨BZL_SEC_PMAX d w, 31, 0⟩
/-- Offset of BZL_CAM_LAST (spec/04 register table). -/
def BZL_CAM_LAST (d : Nat) (w : Nat) : Nat := 0x06010c + 0x1000 * d + 0x20 * w
def BZL_CAM_LAST.phase (d : Nat) (w : Nat) : Fld := ⟨BZL_CAM_LAST d w, 31, 0⟩
/-- Offset of BZL_CAM_AVG (spec/04 register table). -/
def BZL_CAM_AVG (d : Nat) (w : Nat) : Nat := 0x060110 + 0x1000 * d + 0x20 * w
def BZL_CAM_AVG.phase (d : Nat) (w : Nat) : Fld := ⟨BZL_CAM_AVG d w, 31, 0⟩
/-- Offset of BZL_CAM_INFO (spec/04 register table). -/
def BZL_CAM_INFO (d : Nat) (w : Nat) : Nat := 0x060114 + 0x1000 * d + 0x20 * w
def BZL_CAM_INFO.count (d : Nat) (w : Nat) : Fld := ⟨BZL_CAM_INFO d w, 22, 16⟩
def BZL_CAM_INFO.idx (d : Nat) (w : Nat) : Fld := ⟨BZL_CAM_INFO d w, 13, 8⟩
def BZL_CAM_INFO.stale (d : Nat) (w : Nat) : Fld := ⟨BZL_CAM_INFO d w, 1, 1⟩
def BZL_CAM_INFO.valid (d : Nat) (w : Nat) : Fld := ⟨BZL_CAM_INFO d w, 0, 0⟩
/-- Offset of BZL_CAM_TIME (spec/04 register table). -/
def BZL_CAM_TIME (d : Nat) (w : Nat) : Nat := 0x060118 + 0x1000 * d + 0x20 * w
/-- Offset of WHL_CFG (spec/04 register table). -/
def WHL_CFG (n : Nat) : Nat := 0x068000 + 0x20 * n
def WHL_CFG.min_thr (n : Nat) : Fld := ⟨WHL_CFG n, 31, 24⟩
def WHL_CFG.thr_frac (n : Nat) : Fld := ⟨WHL_CFG n, 23, 16⟩
def WHL_CFG.vr_pol (n : Nat) : Fld := ⟨WHL_CFG n, 3, 3⟩
def WHL_CFG.mode (n : Nat) : Fld := ⟨WHL_CFG n, 1, 0⟩
/-- Offset of WHL_FILT (spec/04 register table). -/
def WHL_FILT (n : Nat) : Nat := 0x068004 + 0x20 * n
def WHL_FILT.stuck_lim (n : Nat) : Fld := ⟨WHL_FILT n, 31, 16⟩
def WHL_FILT.stuck_lvl (n : Nat) : Fld := ⟨WHL_FILT n, 8, 8⟩
def WHL_FILT.len (n : Nat) : Fld := ⟨WHL_FILT n, 7, 0⟩
/-- Offset of WHL_RATE (spec/04 register table). -/
def WHL_RATE (n : Nat) : Nat := 0x068008 + 0x20 * n
def WHL_RATE.mute_cnt (n : Nat) : Fld := ⟨WHL_RATE n, 31, 16⟩
def WHL_RATE.latch (n : Nat) : Fld := ⟨WHL_RATE n, 12, 12⟩
def WHL_RATE.hold (n : Nat) : Fld := ⟨WHL_RATE n, 11, 8⟩
def WHL_RATE.max (n : Nat) : Fld := ⟨WHL_RATE n, 7, 0⟩
/-- Offset of WHL_CMD (spec/04 register table). -/
def WHL_CMD (n : Nat) : Nat := 0x06800c + 0x20 * n
def WHL_CMD.unmute (n : Nat) : Fld := ⟨WHL_CMD n, 8, 8⟩
def WHL_CMD.clr_counts (n : Nat) : Fld := ⟨WHL_CMD n, 7, 7⟩
/-- Offset of WHL_STAT (spec/04 register table). -/
def WHL_STAT (n : Nat) : Nat := 0x068010 + 0x20 * n
def WHL_STAT.peak (n : Nat) : Fld := ⟨WHL_STAT n, 31, 16⟩
def WHL_STAT.open' (n : Nat) : Fld := ⟨WHL_STAT n, 5, 5⟩
def WHL_STAT.stuck_now (n : Nat) : Fld := ⟨WHL_STAT n, 4, 4⟩
def WHL_STAT.mute_now (n : Nat) : Fld := ⟨WHL_STAT n, 3, 3⟩
def WHL_STAT.stuck (n : Nat) : Fld := ⟨WHL_STAT n, 2, 2⟩
def WHL_STAT.muted (n : Nat) : Fld := ⟨WHL_STAT n, 1, 1⟩
def WHL_STAT.level (n : Nat) : Fld := ⟨WHL_STAT n, 0, 0⟩
/-- Offset of BZL_INTERP (spec/05 register table). -/
def BZL_INTERP (d : Nat) : Nat := 0x060030 + 0x1000 * d
def BZL_INTERP.acc_lim (d : Nat) : Fld := ⟨BZL_INTERP d, 23, 16⟩
def BZL_INTERP.acc_gain (d : Nat) : Fld := ⟨BZL_INTERP d, 15, 0⟩
/-- Offset of BZL_PRED (spec/05 register table). -/
def BZL_PRED (d : Nat) : Nat := 0x060064 + 0x1000 * d
def BZL_PRED.interval (d : Nat) : Fld := ⟨BZL_PRED d, 31, 0⟩
/-- Offset of BZL_LIVE (spec/05 register table). -/
def BZL_LIVE (d : Nat) : Nat := 0x060068 + 0x1000 * d
def BZL_LIVE.angle (d : Nat) : Fld := ⟨BZL_LIVE d, 31, 0⟩
/-- Offset of BZL_INTERP_STAT (spec/05 register table). -/
def BZL_INTERP_STAT (d : Nat) : Nat := 0x06006c + 0x1000 * d
def BZL_INTERP_STAT.clamped (d : Nat) : Fld := ⟨BZL_INTERP_STAT d, 1, 1⟩
def BZL_INTERP_STAT.acc_sat (d : Nat) : Fld := ⟨BZL_INTERP_STAT d, 0, 0⟩
/-- Offset of BZL_DFT_IDX (spec/05 register table). -/
def BZL_DFT_IDX (d : Nat) : Nat := 0x060200 + 0x1000 * d
def BZL_DFT_IDX.index (d : Nat) : Fld := ⟨BZL_DFT_IDX d, 7, 0⟩
/-- Offset of BZL_DFT_CMD (spec/05 register table). -/
def BZL_DFT_CMD (d : Nat) : Nat := 0x060204 + 0x1000 * d
def BZL_DFT_CMD.refused (d : Nat) : Fld := ⟨BZL_DFT_CMD d, 16, 16⟩
def BZL_DFT_CMD.clr_count (d : Nat) : Fld := ⟨BZL_DFT_CMD d, 4, 4⟩
def BZL_DFT_CMD.read (d : Nat) : Fld := ⟨BZL_DFT_CMD d, 3, 3⟩
def BZL_DFT_CMD.free (d : Nat) : Fld := ⟨BZL_DFT_CMD d, 2, 2⟩
def BZL_DFT_CMD.cancel (d : Nat) : Fld := ⟨BZL_DFT_CMD d, 1, 1⟩
def BZL_DFT_CMD.write (d : Nat) : Fld := ⟨BZL_DFT_CMD d, 0, 0⟩
/-- Offset of BZL_DFT_W0 (spec/05 register table). -/
def BZL_DFT_W0 (d : Nat) : Nat := 0x060210 + 0x1000 * d
def BZL_DFT_W0.angle (d : Nat) : Fld := ⟨BZL_DFT_W0 d, 20, 0⟩
/-- Offset of BZL_DFT_W1 (spec/05 register table). -/
def BZL_DFT_W1 (d : Nat) : Nat := 0x060214 + 0x1000 * d
def BZL_DFT_W1.tag (d : Nat) : Fld := ⟨BZL_DFT_W1 d, 23, 16⟩
def BZL_DFT_W1.facet (d : Nat) : Fld := ⟨BZL_DFT_W1 d, 15, 8⟩
def BZL_DFT_W1.policy (d : Nat) : Fld := ⟨BZL_DFT_W1 d, 7, 7⟩
def BZL_DFT_W1.notify (d : Nat) : Fld := ⟨BZL_DFT_W1 d, 6, 6⟩
def BZL_DFT_W1.auto_free (d : Nat) : Fld := ⟨BZL_DFT_W1 d, 5, 5⟩
def BZL_DFT_W1.limp (d : Nat) : Fld := ⟨BZL_DFT_W1 d, 4, 4⟩
def BZL_DFT_W1.lead (d : Nat) : Fld := ⟨BZL_DFT_W1 d, 3, 2⟩
def BZL_DFT_W1.act (d : Nat) : Fld := ⟨BZL_DFT_W1 d, 1, 0⟩
/-- Offset of BZL_DFT_W2 (spec/05 register table). -/
def BZL_DFT_W2 (d : Nat) : Nat := 0x060218 + 0x1000 * d
def BZL_DFT_W2.host_own (d : Nat) : Fld := ⟨BZL_DFT_W2 d, 31, 31⟩
def BZL_DFT_W2.owner (d : Nat) : Fld := ⟨BZL_DFT_W2 d, 24, 16⟩
def BZL_DFT_W2.pair_en (d : Nat) : Fld := ⟨BZL_DFT_W2 d, 15, 15⟩
def BZL_DFT_W2.pair (d : Nat) : Fld := ⟨BZL_DFT_W2 d, 7, 0⟩
/-- Offset of BZL_DFT_W3 (spec/05 register table). -/
def BZL_DFT_W3 (d : Nat) : Nat := 0x06021c + 0x1000 * d
def BZL_DFT_W3.dur (d : Nat) : Fld := ⟨BZL_DFT_W3 d, 31, 0⟩
/-- Offset of BZL_DFT_STATUS (spec/05 register table). -/
def BZL_DFT_STATUS (d : Nat) : Nat := 0x060220 + 0x1000 * d
def BZL_DFT_STATUS.status (d : Nat) : Fld := ⟨BZL_DFT_STATUS d, 7, 4⟩
def BZL_DFT_STATUS.reason (d : Nat) : Fld := ⟨BZL_DFT_STATUS d, 3, 0⟩
/-- Offset of BZL_DFT_TIME (spec/05 register table). -/
def BZL_DFT_TIME (d : Nat) : Nat := 0x060228 + 0x1000 * d
/-- Offset of BZL_DFT_STAT (spec/05 register table). -/
def BZL_DFT_STAT (d : Nat) : Nat := 0x060240 + 0x1000 * d
def BZL_DFT_STAT.withdrawn (d : Nat) : Fld := ⟨BZL_DFT_STAT d, 31, 16⟩
def BZL_DFT_STAT.live (d : Nat) : Fld := ⟨BZL_DFT_STAT d, 8, 0⟩
/-- Offset of BZL_DFT_SUM (spec/05 register table). -/
def BZL_DFT_SUM (d : Nat) (w : Nat) : Nat := 0x060280 + 0x1000 * d + 0x4 * w
def BZL_DFT_SUM.done' (d : Nat) (w : Nat) : Fld := ⟨BZL_DFT_SUM d w, 31, 0⟩
/-- Offset of BZL_MIR_COAST (spec/05 register table). -/
def BZL_MIR_COAST (d : Nat) : Nat := 0x060300 + 0x1000 * d
def BZL_MIR_COAST.en (d : Nat) : Fld := ⟨BZL_MIR_COAST d, 31, 31⟩
def BZL_MIR_COAST.slack (d : Nat) : Fld := ⟨BZL_MIR_COAST d, 27, 16⟩
def BZL_MIR_COAST.max (d : Nat) : Fld := ⟨BZL_MIR_COAST d, 15, 0⟩
/-- Offset of BZL_MIR_STAT (spec/05 register table). -/
def BZL_MIR_STAT (d : Nat) : Nat := 0x060304 + 0x1000 * d
def BZL_MIR_STAT.coasts (d : Nat) : Fld := ⟨BZL_MIR_STAT d, 31, 16⟩
def BZL_MIR_STAT.ended (d : Nat) : Fld := ⟨BZL_MIR_STAT d, 1, 1⟩
def BZL_MIR_STAT.coasting (d : Nat) : Fld := ⟨BZL_MIR_STAT d, 0, 0⟩
/-- Offset of TLR_CTRL (spec/06 register table). -/
def TLR_CTRL : Nat := 0x080000
def TLR_CTRL.clr_peak : Fld := ⟨TLR_CTRL, 16, 16⟩
def TLR_CTRL.preempt_en : Fld := ⟨TLR_CTRL, 8, 8⟩
def TLR_CTRL.run : Fld := ⟨TLR_CTRL, 0, 0⟩
/-- Offset of TLR_STAT (spec/06 register table). -/
def TLR_STAT : Nat := 0x080004
def TLR_STAT.engines : Fld := ⟨TLR_STAT, 23, 19⟩
def TLR_STAT.reserve_free : Fld := ⟨TLR_STAT, 18, 18⟩
def TLR_STAT.replay_fail : Fld := ⟨TLR_STAT, 9, 9⟩
def TLR_STAT.ps_switch : Fld := ⟨TLR_STAT, 8, 8⟩
def TLR_STAT.ps_corr : Fld := ⟨TLR_STAT, 7, 7⟩
def TLR_STAT.ctx_corr : Fld := ⟨TLR_STAT, 6, 6⟩
def TLR_STAT.ctx_wr_ignored : Fld := ⟨TLR_STAT, 5, 5⟩
def TLR_STAT.stage_ovf : Fld := ⟨TLR_STAT, 4, 4⟩
def TLR_STAT.budget : Fld := ⟨TLR_STAT, 3, 3⟩
def TLR_STAT.fence : Fld := ⟨TLR_STAT, 2, 2⟩
/-- Offset of TLR_LOAD (spec/06 register table). -/
def TLR_LOAD : Nat := 0x080008
def TLR_LOAD.peak : Fld := ⟨TLR_LOAD, 31, 16⟩
def TLR_LOAD.last : Fld := ⟨TLR_LOAD, 15, 0⟩
/-- Offset of TLR_FAULT (spec/06 register table). -/
def TLR_FAULT : Nat := 0x08000c
def TLR_FAULT.valid : Fld := ⟨TLR_FAULT, 31, 31⟩
def TLR_FAULT.engine : Fld := ⟨TLR_FAULT, 20, 16⟩
def TLR_FAULT.code : Fld := ⟨TLR_FAULT, 15, 12⟩
def TLR_FAULT.channel : Fld := ⟨TLR_FAULT, 8, 0⟩
/-- Offset of TLR_PS_STAT (spec/06 register table). -/
def TLR_PS_STAT : Nat := 0x080010
def TLR_PS_STAT.corr_count : Fld := ⟨TLR_PS_STAT, 31, 16⟩
def TLR_PS_STAT.serve : Fld := ⟨TLR_PS_STAT, 15, 8⟩
def TLR_PS_STAT.copy_state : Fld := ⟨TLR_PS_STAT, 7, 0⟩
/-- Offset of ENG_STAT (spec/06 register table). -/
def ENG_STAT (e : Nat) : Nat := 0x080100 + 0x10 * e
def ENG_STAT.fence_cause (e : Nat) : Fld := ⟨ENG_STAT e, 31, 28⟩
def ENG_STAT.role (e : Nat) : Fld := ⟨ENG_STAT e, 25, 24⟩
def ENG_STAT.quad (e : Nat) : Fld := ⟨ENG_STAT e, 17, 16⟩
def ENG_STAT.level (e : Nat) : Fld := ⟨ENG_STAT e, 15, 15⟩
def ENG_STAT.trap (e : Nat) : Fld := ⟨ENG_STAT e, 14, 14⟩
def ENG_STAT.busy (e : Nat) : Fld := ⟨ENG_STAT e, 9, 9⟩
def ENG_STAT.channel (e : Nat) : Fld := ⟨ENG_STAT e, 8, 0⟩
/-- Offset of ENG_CMD (spec/06 register table). -/
def ENG_CMD (e : Nat) : Nat := 0x080104 + 0x10 * e
def ENG_CMD.reintegrate (e : Nat) : Fld := ⟨ENG_CMD e, 1, 1⟩
def ENG_CMD.fence (e : Nat) : Fld := ⟨ENG_CMD e, 0, 0⟩
/-- Offset of TLR_CH_CTL (spec/06 register table). -/
def TLR_CH_CTL (n : Nat) : Nat := 0x081000 + 0x10 * n
def TLR_CH_CTL.clr_pend (n : Nat) : Fld := ⟨TLR_CH_CTL n, 1, 1⟩
def TLR_CH_CTL.en (n : Nat) : Fld := ⟨TLR_CH_CTL n, 0, 0⟩
/-- Offset of TLR_CH_CAUSE_EN (spec/06 register table). -/
def TLR_CH_CAUSE_EN (n : Nat) : Nat := 0x081004 + 0x10 * n
def TLR_CH_CAUSE_EN.mask (n : Nat) : Fld := ⟨TLR_CH_CAUSE_EN n, 18, 0⟩
/-- Offset of TLR_CH_PEND (spec/06 register table). -/
def TLR_CH_PEND (n : Nat) : Nat := 0x081008 + 0x10 * n
def TLR_CH_PEND.start (n : Nat) : Fld := ⟨TLR_CH_PEND n, 18, 18⟩
def TLR_CH_PEND.host (n : Nat) : Fld := ⟨TLR_CH_PEND n, 17, 17⟩
def TLR_CH_PEND.pend (n : Nat) : Fld := ⟨TLR_CH_PEND n, 16, 0⟩
/-- Offset of TLR_CH_STAT (spec/06 register table). -/
def TLR_CH_STAT (n : Nat) : Nat := 0x08100c + 0x10 * n
def TLR_CH_STAT.engine (n : Nat) : Fld := ⟨TLR_CH_STAT n, 20, 16⟩
def TLR_CH_STAT.fault (n : Nat) : Fld := ⟨TLR_CH_STAT n, 15, 12⟩
def TLR_CH_STAT.coalesced (n : Nat) : Fld := ⟨TLR_CH_STAT n, 9, 9⟩
def TLR_CH_STAT.replayed (n : Nat) : Fld := ⟨TLR_CH_STAT n, 8, 8⟩
def TLR_CH_STAT.state (n : Nat) : Fld := ⟨TLR_CH_STAT n, 2, 0⟩
/-- Offset of MNT_CTRL (spec/09 register table). -/
def MNT_CTRL : Nat := 0x100000
def MNT_CTRL.hide : Fld := ⟨MNT_CTRL, 2, 2⟩
def MNT_CTRL.lock : Fld := ⟨MNT_CTRL, 1, 1⟩
/-- Offset of MNT_STAT (spec/09 register table). -/
def MNT_STAT : Nat := 0x100004
def MNT_STAT.repair_count : Fld := ⟨MNT_STAT, 31, 16⟩
def MNT_STAT.master_err : Fld := ⟨MNT_STAT, 8, 8⟩
def MNT_STAT.mint_fault : Fld := ⟨MNT_STAT, 7, 7⟩
def MNT_STAT.disp_reject : Fld := ⟨MNT_STAT, 6, 6⟩
def MNT_STAT.load_ignored : Fld := ⟨MNT_STAT, 5, 5⟩
def MNT_STAT.repair : Fld := ⟨MNT_STAT, 4, 4⟩
def MNT_STAT.img_src : Fld := ⟨MNT_STAT, 3, 2⟩
def MNT_STAT.hidden : Fld := ⟨MNT_STAT, 1, 1⟩
def MNT_STAT.locked : Fld := ⟨MNT_STAT, 0, 0⟩
/-- Offset of MNT_VER (spec/09 register table). -/
def MNT_VER : Nat := 0x100008
def MNT_VER.major : Fld := ⟨MNT_VER, 31, 16⟩
def MNT_VER.build : Fld := ⟨MNT_VER, 15, 0⟩
/-- Offset of MNT_UADDR (spec/09 register table). -/
def MNT_UADDR : Nat := 0x100010
def MNT_UADDR.index : Fld := ⟨MNT_UADDR, 12, 0⟩
/-- Offset of MNT_UDATA (spec/09 register table). -/
def MNT_UDATA : Nat := 0x100014
def MNT_UDATA.word : Fld := ⟨MNT_UDATA, 23, 0⟩
/-- Offset of MNT_NADDR (spec/09 register table). -/
def MNT_NADDR : Nat := 0x100018
def MNT_NADDR.index : Fld := ⟨MNT_NADDR, 10, 0⟩
/-- Offset of MNT_NDATA (spec/09 register table). -/
def MNT_NDATA (k : Nat) : Nat := 0x100020 + 0x4 * k
def MNT_NDATA.word (k : Nat) : Fld := ⟨MNT_NDATA k, 31, 0⟩
/-- Offset of MNT_FAULT (spec/09 register table). -/
def MNT_FAULT : Nat := 0x100030
def MNT_FAULT.valid : Fld := ⟨MNT_FAULT, 31, 31⟩
def MNT_FAULT.engine : Fld := ⟨MNT_FAULT, 28, 24⟩
def MNT_FAULT.cause : Fld := ⟨MNT_FAULT, 19, 16⟩
def MNT_FAULT.uaddr : Fld := ⟨MNT_FAULT, 12, 0⟩
/-- Offset of MNT_DISP (spec/09 register table). -/
def MNT_DISP (k : Nat) : Nat := 0x100400 + 0x4 * k
def MNT_DISP.valid (k : Nat) : Fld := ⟨MNT_DISP k, 31, 31⟩
def MNT_DISP.uaddr (k : Nat) : Fld := ⟨MNT_DISP k, 12, 0⟩
/-- Offset of MNT_TSAVE (spec/09 register table). -/
def MNT_TSAVE (e : Nat) (j : Nat) : Nat := 0x101000 + 0x80 * e + 0x4 * j
def MNT_TSAVE.word (e : Nat) (j : Nat) : Fld := ⟨MNT_TSAVE e j, 31, 0⟩
/-- Offset of VLT_CTRL (spec/10 register table). -/
def VLT_CTRL : Nat := 0x110000
def VLT_CTRL.clr_peak : Fld := ⟨VLT_CTRL, 16, 16⟩
def VLT_CTRL.scrub_en : Fld := ⟨VLT_CTRL, 0, 0⟩
/-- Offset of VLT_STAT (spec/10 register table). -/
def VLT_STAT : Nat := 0x110004
def VLT_STAT.scrub_slow : Fld := ⟨VLT_STAT, 7, 7⟩
def VLT_STAT.short_tally : Fld := ⟨VLT_STAT, 6, 6⟩
def VLT_STAT.atom_busy : Fld := ⟨VLT_STAT, 5, 5⟩
def VLT_STAT.poison_wr : Fld := ⟨VLT_STAT, 4, 4⟩
def VLT_STAT.poison_atom : Fld := ⟨VLT_STAT, 3, 3⟩
def VLT_STAT.poison_rd : Fld := ⟨VLT_STAT, 2, 2⟩
def VLT_STAT.uncorr : Fld := ⟨VLT_STAT, 1, 1⟩
def VLT_STAT.corr : Fld := ⟨VLT_STAT, 0, 0⟩
/-- Offset of VLT_ECC_CNT (spec/10 register table). -/
def VLT_ECC_CNT : Nat := 0x110008
def VLT_ECC_CNT.uncorr_count : Fld := ⟨VLT_ECC_CNT, 31, 16⟩
def VLT_ECC_CNT.corr_count : Fld := ⟨VLT_ECC_CNT, 15, 0⟩
/-- Offset of VLT_ERR_ADDR (spec/10 register table). -/
def VLT_ERR_ADDR : Nat := 0x11000c
def VLT_ERR_ADDR.valid : Fld := ⟨VLT_ERR_ADDR, 31, 31⟩
def VLT_ERR_ADDR.requester : Fld := ⟨VLT_ERR_ADDR, 30, 28⟩
def VLT_ERR_ADDR.addr : Fld := ⟨VLT_ERR_ADDR, 23, 3⟩
/-- Offset of VLT_SCRUB (spec/10 register table). -/
def VLT_SCRUB : Nat := 0x110010
def VLT_SCRUB.passes : Fld := ⟨VLT_SCRUB, 31, 16⟩
def VLT_SCRUB.period : Fld := ⟨VLT_SCRUB, 15, 0⟩
/-- Offset of VLT_ROT (spec/10 register table). -/
def VLT_ROT : Nat := 0x110014
def VLT_ROT.shift : Fld := ⟨VLT_ROT, 2, 0⟩
/-- Offset of VLT_ATOM_ADDR (spec/10 register table). -/
def VLT_ATOM_ADDR : Nat := 0x110020
def VLT_ATOM_ADDR.addr : Fld := ⟨VLT_ATOM_ADDR, 23, 3⟩
/-- Offset of VLT_ATOM_OPND (spec/10 register table). -/
def VLT_ATOM_OPND : Nat := 0x110028
/-- Offset of VLT_ATOM_CMD (spec/10 register table). -/
def VLT_ATOM_CMD : Nat := 0x110030
def VLT_ATOM_CMD.poison : Fld := ⟨VLT_ATOM_CMD, 9, 9⟩
def VLT_ATOM_CMD.done' : Fld := ⟨VLT_ATOM_CMD, 8, 8⟩
def VLT_ATOM_CMD.op : Fld := ⟨VLT_ATOM_CMD, 4, 4⟩
def VLT_ATOM_CMD.go : Fld := ⟨VLT_ATOM_CMD, 0, 0⟩
/-- Offset of VLT_ATOM_RES (spec/10 register table). -/
def VLT_ATOM_RES : Nat := 0x110038
/-- Offset of VLT_USE (spec/10 register table). -/
def VLT_USE (c : Nat) : Nat := 0x110100 + 0x4 * c
def VLT_USE.peak (c : Nat) : Fld := ⟨VLT_USE c, 25, 16⟩
def VLT_USE.last (c : Nat) : Fld := ⟨VLT_USE c, 9, 0⟩
/-- Offset of ADC_CTRL (spec/11 register table). -/
def ADC_CTRL : Nat := 0x120000
def ADC_CTRL.ref_sel : Fld := ⟨ADC_CTRL, 8, 8⟩
def ADC_CTRL.en : Fld := ⟨ADC_CTRL, 0, 0⟩
/-- Offset of ADC_STAT (spec/11 register table). -/
def ADC_STAT : Nat := 0x120004
def ADC_STAT.sat : Fld := ⟨ADC_STAT, 5, 5⟩
def ADC_STAT.cal_err : Fld := ⟨ADC_STAT, 4, 4⟩
def ADC_STAT.cal_done : Fld := ⟨ADC_STAT, 3, 3⟩
def ADC_STAT.urg_ovf : Fld := ⟨ADC_STAT, 2, 2⟩
def ADC_STAT.wr_slow : Fld := ⟨ADC_STAT, 1, 1⟩
def ADC_STAT.ring_ovf : Fld := ⟨ADC_STAT, 0, 0⟩
/-- Offset of ADC_RING_BASE (spec/11 register table). -/
def ADC_RING_BASE : Nat := 0x120010
def ADC_RING_BASE.base : Fld := ⟨ADC_RING_BASE, 23, 5⟩
/-- Offset of ADC_RING_SIZE (spec/11 register table). -/
def ADC_RING_SIZE : Nat := 0x120014
def ADC_RING_SIZE.lines : Fld := ⟨ADC_RING_SIZE, 19, 0⟩
/-- Offset of ADC_RING_WR (spec/11 register table). -/
def ADC_RING_WR : Nat := 0x120018
def ADC_RING_WR.laps : Fld := ⟨ADC_RING_WR, 31, 24⟩
def ADC_RING_WR.offset : Fld := ⟨ADC_RING_WR, 23, 0⟩
/-- Offset of ADC_RING_RD (spec/11 register table). -/
def ADC_RING_RD : Nat := 0x12001c
def ADC_RING_RD.offset : Fld := ⟨ADC_RING_RD, 23, 0⟩
/-- Offset of ADC_RING_CTRL (spec/11 register table). -/
def ADC_RING_CTRL : Nat := 0x120020
def ADC_RING_CTRL.stream : Fld := ⟨ADC_RING_CTRL, 7, 4⟩
def ADC_RING_CTRL.log_en : Fld := ⟨ADC_RING_CTRL, 2, 2⟩
def ADC_RING_CTRL.stop_full : Fld := ⟨ADC_RING_CTRL, 1, 1⟩
def ADC_RING_CTRL.en : Fld := ⟨ADC_RING_CTRL, 0, 0⟩
/-- Offset of ADC_RING_DROP (spec/11 register table). -/
def ADC_RING_DROP : Nat := 0x120024
def ADC_RING_DROP.count : Fld := ⟨ADC_RING_DROP, 31, 0⟩
/-- Offset of ADC_WR_USE (spec/11 register table). -/
def ADC_WR_USE : Nat := 0x120028
def ADC_WR_USE.peak : Fld := ⟨ADC_WR_USE, 23, 16⟩
def ADC_WR_USE.last : Fld := ⟨ADC_WR_USE, 7, 0⟩
/-- Offset of ADC_CAL_CTRL (spec/11 register table). -/
def ADC_CAL_CTRL : Nat := 0x120040
def ADC_CAL_CTRL.go : Fld := ⟨ADC_CAL_CTRL, 31, 31⟩
def ADC_CAL_CTRL.e : Fld := ⟨ADC_CAL_CTRL, 19, 16⟩
def ADC_CAL_CTRL.point : Fld := ⟨ADC_CAL_CTRL, 12, 12⟩
def ADC_CAL_CTRL.range : Fld := ⟨ADC_CAL_CTRL, 9, 8⟩
def ADC_CAL_CTRL.input : Fld := ⟨ADC_CAL_CTRL, 6, 0⟩
/-- Offset of ADC_CAL_TGT (spec/11 register table). -/
def ADC_CAL_TGT : Nat := 0x120044
def ADC_CAL_TGT.t1 : Fld := ⟨ADC_CAL_TGT, 31, 16⟩
def ADC_CAL_TGT.t0 : Fld := ⟨ADC_CAL_TGT, 15, 0⟩
/-- Offset of ADC_CAL_MEAN (spec/11 register table). -/
def ADC_CAL_MEAN : Nat := 0x120048
def ADC_CAL_MEAN.m : Fld := ⟨ADC_CAL_MEAN, 31, 0⟩
/-- Offset of ADC_CAL_STAT (spec/11 register table). -/
def ADC_CAL_STAT : Nat := 0x12004c
def ADC_CAL_STAT.err : Fld := ⟨ADC_CAL_STAT, 6, 4⟩
def ADC_CAL_STAT.zero_held : Fld := ⟨ADC_CAL_STAT, 1, 1⟩
def ADC_CAL_STAT.busy : Fld := ⟨ADC_CAL_STAT, 0, 0⟩
/-- Offset of ADC_RD_SEL (spec/11 register table). -/
def ADC_RD_SEL : Nat := 0x120050
def ADC_RD_SEL.field : Fld := ⟨ADC_RD_SEL, 14, 12⟩
def ADC_RD_SEL.reducer : Fld := ⟨ADC_RD_SEL, 9, 8⟩
def ADC_RD_SEL.conv : Fld := ⟨ADC_RD_SEL, 4, 0⟩
/-- Offset of ADC_RD_DATA (spec/11 register table). -/
def ADC_RD_DATA : Nat := 0x120058
/-- Offset of ADC_GCFG (spec/11 register table). -/
def ADC_GCFG (g : Nat) : Nat := 0x120100 + 0x40 * g
def ADC_GCFG.en (g : Nat) : Fld := ⟨ADC_GCFG g, 31, 31⟩
def ADC_GCFG.repeat' (g : Nat) : Fld := ⟨ADC_GCFG g, 28, 28⟩
def ADC_GCFG.evt_en (g : Nat) : Fld := ⟨ADC_GCFG g, 26, 26⟩
def ADC_GCFG.angle_en (g : Nat) : Fld := ⟨ADC_GCFG g, 25, 25⟩
def ADC_GCFG.time_en (g : Nat) : Fld := ⟨ADC_GCFG g, 24, 24⟩
def ADC_GCFG.len (g : Nat) : Fld := ⟨ADC_GCFG g, 20, 16⟩
def ADC_GCFG.spacing (g : Nat) : Fld := ⟨ADC_GCFG g, 15, 0⟩
/-- Offset of ADC_GCMD (spec/11 register table). -/
def ADC_GCMD (g : Nat) : Nat := 0x120104 + 0x40 * g
def ADC_GCMD.clr_counts (g : Nat) : Fld := ⟨ADC_GCMD g, 2, 2⟩
def ADC_GCMD.stop (g : Nat) : Fld := ⟨ADC_GCMD g, 1, 1⟩
def ADC_GCMD.trig (g : Nat) : Fld := ⟨ADC_GCMD g, 0, 0⟩
/-- Offset of ADC_GSTAT (spec/11 register table). -/
def ADC_GSTAT (g : Nat) : Nat := 0x120108 + 0x40 * g
def ADC_GSTAT.chan_drops (g : Nat) : Fld := ⟨ADC_GSTAT g, 31, 24⟩
def ADC_GSTAT.chan_drop (g : Nat) : Fld := ⟨ADC_GSTAT g, 11, 11⟩
def ADC_GSTAT.late (g : Nat) : Fld := ⟨ADC_GSTAT g, 10, 10⟩
def ADC_GSTAT.missed (g : Nat) : Fld := ⟨ADC_GSTAT g, 9, 9⟩
def ADC_GSTAT.overrun (g : Nat) : Fld := ⟨ADC_GSTAT g, 8, 8⟩
def ADC_GSTAT.pend_chan (g : Nat) : Fld := ⟨ADC_GSTAT g, 1, 1⟩
def ADC_GSTAT.busy (g : Nat) : Fld := ⟨ADC_GSTAT g, 0, 0⟩
/-- Offset of ADC_GBIND (spec/11 register table). -/
def ADC_GBIND (g : Nat) : Nat := 0x12010c + 0x40 * g
def ADC_GBIND.cnt_en (g : Nat) : Fld := ⟨ADC_GBIND g, 18, 18⟩
def ADC_GBIND.desc_en (g : Nat) : Fld := ⟨ADC_GBIND g, 17, 17⟩
def ADC_GBIND.frame_en (g : Nat) : Fld := ⟨ADC_GBIND g, 16, 16⟩
def ADC_GBIND.en (g : Nat) : Fld := ⟨ADC_GBIND g, 15, 15⟩
def ADC_GBIND.channel (g : Nat) : Fld := ⟨ADC_GBIND g, 8, 0⟩
/-- Offset of ADC_GTIME (spec/11 register table). -/
def ADC_GTIME (g : Nat) : Nat := 0x120110 + 0x40 * g
/-- Offset of ADC_GPER (spec/11 register table). -/
def ADC_GPER (g : Nat) : Nat := 0x120118 + 0x40 * g
def ADC_GPER.period (g : Nat) : Fld := ⟨ADC_GPER g, 31, 0⟩
/-- Offset of ADC_GEVT (spec/11 register table). -/
def ADC_GEVT (g : Nat) : Nat := 0x12011c + 0x40 * g
def ADC_GEVT.delay (g : Nat) : Fld := ⟨ADC_GEVT g, 31, 16⟩
def ADC_GEVT.event (g : Nat) : Fld := ⟨ADC_GEVT g, 7, 0⟩
/-- Offset of ADC_GANG (spec/11 register table). -/
def ADC_GANG (g : Nat) : Nat := 0x120120 + 0x40 * g
def ADC_GANG.start (g : Nat) : Fld := ⟨ADC_GANG g, 20, 0⟩
/-- Offset of ADC_GSTEP (spec/11 register table). -/
def ADC_GSTEP (g : Nat) : Nat := 0x120124 + 0x40 * g
def ADC_GSTEP.domain (g : Nat) : Fld := ⟨ADC_GSTEP g, 30, 28⟩
def ADC_GSTEP.count (g : Nat) : Fld := ⟨ADC_GSTEP g, 27, 16⟩
def ADC_GSTEP.step (g : Nat) : Fld := ⟨ADC_GSTEP g, 15, 0⟩
/-- Offset of ADC_GCNT (spec/11 register table). -/
def ADC_GCNT (g : Nat) : Nat := 0x120128 + 0x40 * g
def ADC_GCNT.missed (g : Nat) : Fld := ⟨ADC_GCNT g, 31, 16⟩
def ADC_GCNT.overrun (g : Nat) : Fld := ⟨ADC_GCNT g, 15, 0⟩
/-- Offset of ADC_GDESC (spec/11 register table). -/
def ADC_GDESC (g : Nat) : Nat := 0x12012c + 0x40 * g
def ADC_GDESC.line (g : Nat) : Fld := ⟨ADC_GDESC g, 23, 5⟩
/-- Offset of ADC_CCFG (spec/11 register table). -/
def ADC_CCFG (c : Nat) : Nat := 0x121000 + 0x200 * c
def ADC_CCFG.member (c : Nat) : Fld := ⟨ADC_CCFG c, 31, 31⟩
def ADC_CCFG.group (c : Nat) : Fld := ⟨ADC_CCFG c, 26, 24⟩
/-- Offset of ADC_CSTAT (spec/11 register table). -/
def ADC_CSTAT (c : Nat) : Nat := 0x121004 + 0x200 * c
def ADC_CSTAT.skips (c : Nat) : Fld := ⟨ADC_CSTAT c, 31, 16⟩
def ADC_CSTAT.skipped (c : Nat) : Fld := ⟨ADC_CSTAT c, 10, 10⟩
def ADC_CSTAT.sat (c : Nat) : Fld := ⟨ADC_CSTAT c, 9, 9⟩
def ADC_CSTAT.urg_ovf (c : Nat) : Fld := ⟨ADC_CSTAT c, 8, 8⟩
def ADC_CSTAT.urg_depth (c : Nat) : Fld := ⟨ADC_CSTAT c, 2, 0⟩
/-- Offset of ADC_SEQ (spec/11 register table). -/
def ADC_SEQ (c : Nat) (s : Nat) : Nat := 0x121080 + 0x200 * c + 0x4 * s
def ADC_SEQ.frame (c : Nat) (s : Nat) : Fld := ⟨ADC_SEQ c s, 2, 2⟩
def ADC_SEQ.in' (c : Nat) (s : Nat) : Fld := ⟨ADC_SEQ c s, 1, 0⟩
/-- Offset of ADC_RCFG (spec/11 register table). -/
def ADC_RCFG (c : Nat) (r : Nat) : Nat := 0x121100 + 0x200 * c + 0x40 * r
def ADC_RCFG.en (c : Nat) (r : Nat) : Fld := ⟨ADC_RCFG c r, 31, 31⟩
def ADC_RCFG.notify (c : Nat) (r : Nat) : Fld := ⟨ADC_RCFG c r, 30, 30⟩
def ADC_RCFG.mode (c : Nat) (r : Nat) : Fld := ⟨ADC_RCFG c r, 28, 28⟩
def ADC_RCFG.kind (c : Nat) (r : Nat) : Fld := ⟨ADC_RCFG c r, 27, 27⟩
def ADC_RCFG.domain (c : Nat) (r : Nat) : Fld := ⟨ADC_RCFG c r, 26, 24⟩
def ADC_RCFG.in_mask (c : Nat) (r : Nat) : Fld := ⟨ADC_RCFG c r, 23, 20⟩
def ADC_RCFG.dir (c : Nat) (r : Nat) : Fld := ⟨ADC_RCFG c r, 19, 18⟩
def ADC_RCFG.channel (c : Nat) (r : Nat) : Fld := ⟨ADC_RCFG c r, 8, 0⟩
/-- Offset of ADC_RTHR (spec/11 register table). -/
def ADC_RTHR (c : Nat) (r : Nat) : Nat := 0x121104 + 0x200 * c + 0x40 * r
def ADC_RTHR.thr (c : Nat) (r : Nat) : Fld := ⟨ADC_RTHR c r, 15, 0⟩
/-- Offset of ADC_RSTART (spec/11 register table). -/
def ADC_RSTART (c : Nat) (r : Nat) : Nat := 0x121108 + 0x200 * c + 0x40 * r
/-- Offset of ADC_REND (spec/11 register table). -/
def ADC_REND (c : Nat) (r : Nat) : Nat := 0x121110 + 0x200 * c + 0x40 * r
/-- Offset of ADC_INCFG (spec/11 register table). -/
def ADC_INCFG (n : Nat) : Nat := 0x124000 + 0x4 * n
def ADC_INCFG.range (n : Nat) : Fld := ⟨ADC_INCFG n, 1, 0⟩
/-- Offset of ADC_CAL_GAIN (spec/11 register table). -/
def ADC_CAL_GAIN (k : Nat) : Nat := 0x125000 + 0x8 * k
def ADC_CAL_GAIN.gain (k : Nat) : Fld := ⟨ADC_CAL_GAIN k, 23, 0⟩
/-- Offset of ADC_CAL_OFS (spec/11 register table). -/
def ADC_CAL_OFS (k : Nat) : Nat := 0x125004 + 0x8 * k
def ADC_CAL_OFS.offset (k : Nat) : Fld := ⟨ADC_CAL_OFS k, 19, 0⟩
/-- Offset of DMA_GCTRL (spec/12 register table). -/
def DMA_GCTRL : Nat := 0x140000
def DMA_GCTRL.arb : Fld := ⟨DMA_GCTRL, 8, 8⟩
def DMA_GCTRL.restart : Fld := ⟨DMA_GCTRL, 1, 1⟩
/-- Offset of DMA_GSTAT (spec/12 register table). -/
def DMA_GSTAT : Nat := 0x140004
def DMA_GSTAT.halted : Fld := ⟨DMA_GSTAT, 31, 31⟩
def DMA_GSTAT.err_chan : Fld := ⟨DMA_GSTAT, 20, 16⟩
def DMA_GSTAT.err_kind : Fld := ⟨DMA_GSTAT, 15, 12⟩
def DMA_GSTAT.ch_flag : Fld := ⟨DMA_GSTAT, 1, 1⟩
def DMA_GSTAT.bus_err : Fld := ⟨DMA_GSTAT, 0, 0⟩
/-- Offset of DMA_ERR_ADDR (spec/12 register table). -/
def DMA_ERR_ADDR : Nat := 0x140008
/-- Offset of DMA_SH_SRC (spec/12 register table). -/
def DMA_SH_SRC (n : Nat) : Nat := 0x140100 + 0x40 * n
/-- Offset of DMA_SH_DST (spec/12 register table). -/
def DMA_SH_DST (n : Nat) : Nat := 0x140108 + 0x40 * n
/-- Offset of DMA_SH_LEN (spec/12 register table). -/
def DMA_SH_LEN (n : Nat) : Nat := 0x140110 + 0x40 * n
def DMA_SH_LEN.len (n : Nat) : Fld := ⟨DMA_SH_LEN n, 31, 0⟩
/-- Offset of DMA_SH_CFG (spec/12 register table). -/
def DMA_SH_CFG (n : Nat) : Nat := 0x140114 + 0x40 * n
def DMA_SH_CFG.trig_evt (n : Nat) : Fld := ⟨DMA_SH_CFG n, 31, 24⟩
def DMA_SH_CFG.pace_evt (n : Nat) : Fld := ⟨DMA_SH_CFG n, 23, 16⟩
def DMA_SH_CFG.trig_en (n : Nat) : Fld := ⟨DMA_SH_CFG n, 15, 15⟩
def DMA_SH_CFG.pace_en (n : Nat) : Fld := ⟨DMA_SH_CFG n, 14, 14⟩
def DMA_SH_CFG.prio (n : Nat) : Fld := ⟨DMA_SH_CFG n, 13, 12⟩
def DMA_SH_CFG.burst (n : Nat) : Fld := ⟨DMA_SH_CFG n, 11, 8⟩
def DMA_SH_CFG.swap (n : Nat) : Fld := ⟨DMA_SH_CFG n, 7, 5⟩
def DMA_SH_CFG.shuffle (n : Nat) : Fld := ⟨DMA_SH_CFG n, 4, 3⟩
def DMA_SH_CFG.atomic (n : Nat) : Fld := ⟨DMA_SH_CFG n, 2, 1⟩
/-- Offset of DMA_SH_FRM (spec/12 register table). -/
def DMA_SH_FRM (n : Nat) : Nat := 0x140118 + 0x40 * n
def DMA_SH_FRM.gap (n : Nat) : Fld := ⟨DMA_SH_FRM n, 31, 24⟩
def DMA_SH_FRM.fpb (n : Nat) : Fld := ⟨DMA_SH_FRM n, 23, 19⟩
def DMA_SH_FRM.elems (n : Nat) : Fld := ⟨DMA_SH_FRM n, 18, 14⟩
def DMA_SH_FRM.esize (n : Nat) : Fld := ⟨DMA_SH_FRM n, 13, 12⟩
def DMA_SH_FRM.hdr (n : Nat) : Fld := ⟨DMA_SH_FRM n, 11, 8⟩
/-- Offset of DMA_SH_PLANE (spec/12 register table). -/
def DMA_SH_PLANE (n : Nat) : Nat := 0x14011c + 0x40 * n
def DMA_SH_PLANE.stride (n : Nat) : Fld := ⟨DMA_SH_PLANE n, 31, 0⟩
/-- Offset of DMA_CTL (spec/12 register table). -/
def DMA_CTL (n : Nat) : Nat := 0x140120 + 0x40 * n
def DMA_CTL.clr_counts (n : Nat) : Fld := ⟨DMA_CTL n, 4, 4⟩
def DMA_CTL.abort (n : Nat) : Fld := ⟨DMA_CTL n, 3, 3⟩
def DMA_CTL.pause (n : Nat) : Fld := ⟨DMA_CTL n, 2, 2⟩
def DMA_CTL.disarm (n : Nat) : Fld := ⟨DMA_CTL n, 1, 1⟩
def DMA_CTL.arm (n : Nat) : Fld := ⟨DMA_CTL n, 0, 0⟩
/-- Offset of DMA_STAT (spec/12 register table). -/
def DMA_STAT (n : Nat) : Nat := 0x140124 + 0x40 * n
def DMA_STAT.credit (n : Nat) : Fld := ⟨DMA_STAT n, 15, 12⟩
def DMA_STAT.pace_ovr (n : Nat) : Fld := ⟨DMA_STAT n, 9, 9⟩
def DMA_STAT.trig_miss (n : Nat) : Fld := ⟨DMA_STAT n, 8, 8⟩
def DMA_STAT.cfg_err (n : Nat) : Fld := ⟨DMA_STAT n, 7, 7⟩
def DMA_STAT.sh_locked (n : Nat) : Fld := ⟨DMA_STAT n, 6, 6⟩
def DMA_STAT.sh_ready (n : Nat) : Fld := ⟨DMA_STAT n, 4, 4⟩
def DMA_STAT.state (n : Nat) : Fld := ⟨DMA_STAT n, 2, 0⟩
/-- Offset of DMA_CUR_SRC (spec/12 register table). -/
def DMA_CUR_SRC (n : Nat) : Nat := 0x140128 + 0x40 * n
/-- Offset of DMA_CUR_DST (spec/12 register table). -/
def DMA_CUR_DST (n : Nat) : Nat := 0x140130 + 0x40 * n
/-- Offset of DMA_CUR_LEN (spec/12 register table). -/
def DMA_CUR_LEN (n : Nat) : Nat := 0x140138 + 0x40 * n
def DMA_CUR_LEN.len (n : Nat) : Fld := ⟨DMA_CUR_LEN n, 31, 0⟩
/-- Offset of DMA_CNT (spec/12 register table). -/
def DMA_CNT (n : Nat) : Nat := 0x14013c + 0x40 * n
def DMA_CNT.pace_ovr (n : Nat) : Fld := ⟨DMA_CNT n, 31, 16⟩
def DMA_CNT.trig_miss (n : Nat) : Fld := ⟨DMA_CNT n, 15, 0⟩
/-- Offset of DBK_GSTAT (spec/13 register table). -/
def DBK_GSTAT : Nat := 0x150000
def DBK_GSTAT.throttle : Fld := ⟨DBK_GSTAT, 5, 4⟩
def DBK_GSTAT.win_wr : Fld := ⟨DBK_GSTAT, 3, 3⟩
def DBK_GSTAT.trained : Fld := ⟨DBK_GSTAT, 2, 2⟩
def DBK_GSTAT.uncorr : Fld := ⟨DBK_GSTAT, 1, 1⟩
def DBK_GSTAT.corr : Fld := ⟨DBK_GSTAT, 0, 0⟩
/-- Offset of DBK_ECC_CNT (spec/13 register table). -/
def DBK_ECC_CNT : Nat := 0x150004
def DBK_ECC_CNT.uncorr_count : Fld := ⟨DBK_ECC_CNT, 31, 16⟩
def DBK_ECC_CNT.corr_count : Fld := ⟨DBK_ECC_CNT, 15, 0⟩
/-- Offset of DBK_ERR_ADDR (spec/13 register table). -/
def DBK_ERR_ADDR : Nat := 0x150008
def DBK_ERR_ADDR.valid : Fld := ⟨DBK_ERR_ADDR, 31, 31⟩
def DBK_ERR_ADDR.offset : Fld := ⟨DBK_ERR_ADDR, 29, 3⟩
/-- Offset of DBK_WIN (spec/13 register table). -/
def DBK_WIN : Nat := 0x15000c
def DBK_WIN.base : Fld := ⟨DBK_WIN, 9, 0⟩
/-- Offset of DBK_CFG (spec/13 register table). -/
def DBK_CFG (m : Nat) : Nat := 0x150100 + 0x40 * m
def DBK_CFG.en (m : Nat) : Fld := ⟨DBK_CFG m, 31, 31⟩
def DBK_CFG.kind (m : Nat) : Fld := ⟨DBK_CFG m, 30, 30⟩
def DBK_CFG.notes_en (m : Nat) : Fld := ⟨DBK_CFG m, 29, 29⟩
def DBK_CFG.seal_evt_en (m : Nat) : Fld := ⟨DBK_CFG m, 28, 28⟩
def DBK_CFG.seal_evt (m : Nat) : Fld := ⟨DBK_CFG m, 27, 20⟩
def DBK_CFG.prio (m : Nat) : Fld := ⟨DBK_CFG m, 19, 18⟩
def DBK_CFG.dma (m : Nat) : Fld := ⟨DBK_CFG m, 17, 13⟩
def DBK_CFG.bezel (m : Nat) : Fld := ⟨DBK_CFG m, 7, 0⟩
/-- Offset of DBK_RING (spec/13 register table). -/
def DBK_RING (m : Nat) : Nat := 0x150104 + 0x40 * m
def DBK_RING.size (m : Nat) : Fld := ⟨DBK_RING m, 31, 16⟩
def DBK_RING.base (m : Nat) : Fld := ⟨DBK_RING m, 15, 0⟩
/-- Offset of DBK_STG (spec/13 register table). -/
def DBK_STG (m : Nat) : Nat := 0x150108 + 0x40 * m
def DBK_STG.size (m : Nat) : Fld := ⟨DBK_STG m, 30, 16⟩
def DBK_STG.base (m : Nat) : Fld := ⟨DBK_STG m, 13, 0⟩
/-- Offset of DBK_STAT (spec/13 register table). -/
def DBK_STAT (m : Nat) : Nat := 0x15010c + 0x40 * m
def DBK_STAT.lost_count (m : Nat) : Fld := ⟨DBK_STAT m, 31, 16⟩
def DBK_STAT.cfg_err (m : Nat) : Fld := ⟨DBK_STAT m, 9, 9⟩
def DBK_STAT.sealed (m : Nat) : Fld := ⟨DBK_STAT m, 8, 8⟩
def DBK_STAT.short_pre (m : Nat) : Fld := ⟨DBK_STAT m, 7, 7⟩
def DBK_STAT.seal_ign (m : Nat) : Fld := ⟨DBK_STAT m, 6, 6⟩
def DBK_STAT.lost (m : Nat) : Fld := ⟨DBK_STAT m, 5, 5⟩
def DBK_STAT.state (m : Nat) : Fld := ⟨DBK_STAT m, 1, 0⟩
/-- Offset of DBK_CMD (spec/13 register table). -/
def DBK_CMD (m : Nat) : Nat := 0x150110 + 0x40 * m
def DBK_CMD.clr_count (m : Nat) : Fld := ⟨DBK_CMD m, 2, 2⟩
def DBK_CMD.rearm (m : Nat) : Fld := ⟨DBK_CMD m, 1, 1⟩
def DBK_CMD.seal (m : Nat) : Fld := ⟨DBK_CMD m, 0, 0⟩
/-- Offset of DBK_WR (spec/13 register table). -/
def DBK_WR (m : Nat) : Nat := 0x150118 + 0x40 * m
def DBK_WR.laps (m : Nat) : Fld := ⟨DBK_WR m + 4, 31, 0⟩
def DBK_WR.offset (m : Nat) : Fld := ⟨DBK_WR m, 29, 0⟩
/-- Offset of DBK_SPAN (spec/13 register table). -/
def DBK_SPAN (m : Nat) : Nat := 0x150120 + 0x40 * m
def DBK_SPAN.post (m : Nat) : Fld := ⟨DBK_SPAN m + 4, 31, 0⟩
def DBK_SPAN.pre (m : Nat) : Fld := ⟨DBK_SPAN m, 31, 0⟩
/-- Offset of DBK_SEAL_TIME (spec/13 register table). -/
def DBK_SEAL_TIME (m : Nat) : Nat := 0x150128 + 0x40 * m
/-- Offset of DBK_SEAL_POS (spec/13 register table). -/
def DBK_SEAL_POS (m : Nat) : Nat := 0x150130 + 0x40 * m
def DBK_SEAL_POS.end' (m : Nat) : Fld := ⟨DBK_SEAL_POS m + 4, 31, 0⟩
def DBK_SEAL_POS.first (m : Nat) : Fld := ⟨DBK_SEAL_POS m, 31, 0⟩
/-- Offset of DBK_FLOG (spec/13 register table). -/
def DBK_FLOG (j : Nat) : Nat := 0x150800 + 0x4 * j
def DBK_FLOG.en (j : Nat) : Fld := ⟨DBK_FLOG j, 31, 31⟩
def DBK_FLOG.edge (j : Nat) : Fld := ⟨DBK_FLOG j, 17, 16⟩
def DBK_FLOG.stream (j : Nat) : Fld := ⟨DBK_FLOG j, 15, 12⟩
def DBK_FLOG.facet (j : Nat) : Fld := ⟨DBK_FLOG j, 7, 0⟩
/-- Offset of ETH_CTRL (spec/13 register table). -/
def ETH_CTRL (m : Nat) : Nat := 0x160000 + 0x100 * m
def ETH_CTRL.an_en (m : Nat) : Fld := ⟨ETH_CTRL m, 2, 2⟩
def ETH_CTRL.pcs (m : Nat) : Fld := ⟨ETH_CTRL m, 1, 1⟩
def ETH_CTRL.en (m : Nat) : Fld := ⟨ETH_CTRL m, 0, 0⟩
/-- Offset of ETH_STAT (spec/13 register table). -/
def ETH_STAT (m : Nat) : Nat := 0x160004 + 0x100 * m
def ETH_STAT.rx_drops (m : Nat) : Fld := ⟨ETH_STAT m, 31, 16⟩
def ETH_STAT.tx_err (m : Nat) : Fld := ⟨ETH_STAT m, 6, 6⟩
def ETH_STAT.link_up (m : Nat) : Fld := ⟨ETH_STAT m, 5, 5⟩
def ETH_STAT.rx_count (m : Nat) : Fld := ⟨ETH_STAT m, 4, 2⟩
def ETH_STAT.rx_ready (m : Nat) : Fld := ⟨ETH_STAT m, 1, 1⟩
def ETH_STAT.link_chg (m : Nat) : Fld := ⟨ETH_STAT m, 0, 0⟩
/-- Offset of ETH_ADDR (spec/13 register table). -/
def ETH_ADDR (m : Nat) : Nat := 0x160008 + 0x100 * m
/-- Offset of ETH_TXCTL (spec/13 register table). -/
def ETH_TXCTL (m : Nat) : Nat := 0x160010 + 0x100 * m
def ETH_TXCTL.send (m : Nat) : Fld := ⟨ETH_TXCTL m, 31, 31⟩
def ETH_TXCTL.busy (m : Nat) : Fld := ⟨ETH_TXCTL m, 30, 30⟩
def ETH_TXCTL.len (m : Nat) : Fld := ⟨ETH_TXCTL m, 10, 0⟩
/-- Offset of ETH_RXINFO (spec/13 register table). -/
def ETH_RXINFO (m : Nat) : Nat := 0x160014 + 0x100 * m
def ETH_RXINFO.valid (m : Nat) : Fld := ⟨ETH_RXINFO m, 31, 31⟩
def ETH_RXINFO.ts (m : Nat) : Fld := ⟨ETH_RXINFO m, 12, 12⟩
def ETH_RXINFO.tagged (m : Nat) : Fld := ⟨ETH_RXINFO m, 11, 11⟩
def ETH_RXINFO.len (m : Nat) : Fld := ⟨ETH_RXINFO m, 10, 0⟩
/-- Offset of ETH_RXTS (spec/13 register table). -/
def ETH_RXTS (m : Nat) : Nat := 0x160018 + 0x100 * m
/-- Offset of ETH_RXCMD (spec/13 register table). -/
def ETH_RXCMD (m : Nat) : Nat := 0x160020 + 0x100 * m
def ETH_RXCMD.pop (m : Nat) : Fld := ⟨ETH_RXCMD m, 0, 0⟩
/-- Offset of ETH_TXBUF (spec/13 register table). -/
def ETH_TXBUF (m : Nat) (k : Nat) : Nat := 0x161000 + 0x1000 * m + 0x4 * k
def ETH_TXBUF.word (m : Nat) (k : Nat) : Fld := ⟨ETH_TXBUF m k, 31, 0⟩
/-- Offset of ETH_RXBUF (spec/13 register table). -/
def ETH_RXBUF (m : Nat) (k : Nat) : Nat := 0x161800 + 0x1000 * m + 0x4 * k
def ETH_RXBUF.word (m : Nat) (k : Nat) : Fld := ⟨ETH_RXBUF m k, 31, 0⟩
/-- Offset of ETH_PTP_OFS (spec/13 register table). -/
def ETH_PTP_OFS : Nat := 0x160204
def ETH_PTP_OFS.ofs : Fld := ⟨ETH_PTP_OFS, 31, 0⟩
/-- Offset of ETH_PTP_GAIN (spec/13 register table). -/
def ETH_PTP_GAIN : Nat := 0x160208
def ETH_PTP_GAIN.ki : Fld := ⟨ETH_PTP_GAIN, 31, 16⟩
def ETH_PTP_GAIN.kp : Fld := ⟨ETH_PTP_GAIN, 15, 0⟩
/-- Offset of ETH_PTP_LAT (spec/13 register table). -/
def ETH_PTP_LAT : Nat := 0x16020c
def ETH_PTP_LAT.rx : Fld := ⟨ETH_PTP_LAT, 31, 16⟩
def ETH_PTP_LAT.tx : Fld := ⟨ETH_PTP_LAT, 15, 0⟩
/-- Offset of ETH_PTP_TXTS (spec/13 register table). -/
def ETH_PTP_TXTS : Nat := 0x160210
/-- Offset of ETH_PTP_TXID (spec/13 register table). -/
def ETH_PTP_TXID : Nat := 0x160218
def ETH_PTP_TXID.ready : Fld := ⟨ETH_PTP_TXID, 17, 17⟩
def ETH_PTP_TXID.mac : Fld := ⟨ETH_PTP_TXID, 16, 16⟩
def ETH_PTP_TXID.seq : Fld := ⟨ETH_PTP_TXID, 15, 0⟩
/-- Offset of ETH_TLM_CFG (spec/13 register table). -/
def ETH_TLM_CFG (s : Nat) : Nat := 0x160400 + 0x40 * s
def ETH_TLM_CFG.en (s : Nat) : Fld := ⟨ETH_TLM_CFG s, 31, 31⟩
def ETH_TLM_CFG.mac (s : Nat) : Fld := ⟨ETH_TLM_CFG s, 30, 30⟩
def ETH_TLM_CFG.tag_en (s : Nat) : Fld := ⟨ETH_TLM_CFG s, 29, 29⟩
def ETH_TLM_CFG.types (s : Nat) : Fld := ⟨ETH_TLM_CFG s, 28, 25⟩
def ETH_TLM_CFG.stream (s : Nat) : Fld := ⟨ETH_TLM_CFG s, 24, 21⟩
def ETH_TLM_CFG.decim (s : Nat) : Fld := ⟨ETH_TLM_CFG s, 15, 0⟩
/-- Offset of ETH_TLM_DMAC (spec/13 register table). -/
def ETH_TLM_DMAC (s : Nat) : Nat := 0x160408 + 0x40 * s
/-- Offset of ETH_TLM_IP (spec/13 register table). -/
def ETH_TLM_IP (s : Nat) : Nat := 0x160410 + 0x40 * s
def ETH_TLM_IP.src (s : Nat) : Fld := ⟨ETH_TLM_IP s + 4, 31, 0⟩
def ETH_TLM_IP.dst (s : Nat) : Fld := ⟨ETH_TLM_IP s, 31, 0⟩
/-- Offset of ETH_TLM_PORT (spec/13 register table). -/
def ETH_TLM_PORT (s : Nat) : Nat := 0x160418 + 0x40 * s
def ETH_TLM_PORT.src (s : Nat) : Fld := ⟨ETH_TLM_PORT s, 31, 16⟩
def ETH_TLM_PORT.dst (s : Nat) : Fld := ⟨ETH_TLM_PORT s, 15, 0⟩
/-- Offset of ETH_TLM_HDR (spec/13 register table). -/
def ETH_TLM_HDR (s : Nat) : Nat := 0x16041c + 0x40 * s
def ETH_TLM_HDR.tci (s : Nat) : Fld := ⟨ETH_TLM_HDR s, 31, 16⟩
def ETH_TLM_HDR.dscp (s : Nat) : Fld := ⟨ETH_TLM_HDR s, 15, 10⟩
def ETH_TLM_HDR.ttl (s : Nat) : Fld := ⟨ETH_TLM_HDR s, 7, 0⟩
/-- Offset of ETH_TLM_STAT (spec/13 register table). -/
def ETH_TLM_STAT (s : Nat) : Nat := 0x160420 + 0x40 * s
def ETH_TLM_STAT.skipped (s : Nat) : Fld := ⟨ETH_TLM_STAT s, 31, 16⟩
def ETH_TLM_STAT.skip (s : Nat) : Fld := ⟨ETH_TLM_STAT s, 12, 12⟩
def ETH_TLM_STAT.flush (s : Nat) : Fld := ⟨ETH_TLM_STAT s, 11, 0⟩
/-- Offset of IC_CTRL (spec/14 register table). -/
def IC_CTRL : Nat := 0x170000
def IC_CTRL.storm_lim : Fld := ⟨IC_CTRL, 15, 8⟩
def IC_CTRL.en : Fld := ⟨IC_CTRL, 0, 0⟩
/-- Offset of IC_STAT (spec/14 register table). -/
def IC_STAT : Nat := 0x170004
def IC_STAT.held : Fld := ⟨IC_STAT, 2, 2⟩
def IC_STAT.eoi_bad : Fld := ⟨IC_STAT, 1, 1⟩
def IC_STAT.storm : Fld := ⟨IC_STAT, 0, 0⟩
/-- Offset of IC_STORM (spec/14 register table). -/
def IC_STORM : Nat := 0x170008
def IC_STORM.valid : Fld := ⟨IC_STORM, 31, 31⟩
def IC_STORM.source : Fld := ⟨IC_STORM, 9, 0⟩
/-- Offset of IC_EOI (spec/14 register table). -/
def IC_EOI : Nat := 0x17000c
def IC_EOI.source : Fld := ⟨IC_EOI, 9, 0⟩
/-- Offset of IC_TOP_ANY (spec/14 register table). -/
def IC_TOP_ANY : Nat := 0x170010
def IC_TOP_ANY.none : Fld := ⟨IC_TOP_ANY, 31, 31⟩
def IC_TOP_ANY.source : Fld := ⟨IC_TOP_ANY, 9, 0⟩
/-- Offset of IC_TOP (spec/14 register table). -/
def IC_TOP (t : Nat) : Nat := 0x170100 + 0x4 * t
def IC_TOP.none (t : Nat) : Fld := ⟨IC_TOP t, 31, 31⟩
def IC_TOP.source (t : Nat) : Fld := ⟨IC_TOP t, 9, 0⟩
/-- Offset of IC_PEND (spec/14 register table). -/
def IC_PEND (w : Nat) : Nat := 0x170200 + 0x4 * w
def IC_PEND.pend (w : Nat) : Fld := ⟨IC_PEND w, 31, 0⟩
/-- Offset of IC_DELIV (spec/14 register table). -/
def IC_DELIV (w : Nat) : Nat := 0x170300 + 0x4 * w
def IC_DELIV.deliv (w : Nat) : Fld := ⟨IC_DELIV w, 31, 0⟩
/-- Offset of IC_SRC (spec/14 register table). -/
def IC_SRC (n : Nat) : Nat := 0x171000 + 0x4 * n
def IC_SRC.en (n : Nat) : Fld := ⟨IC_SRC n, 31, 31⟩
def IC_SRC.wake (n : Nat) : Fld := ⟨IC_SRC n, 30, 30⟩
def IC_SRC.kind (n : Nat) : Fld := ⟨IC_SRC n, 29, 29⟩
def IC_SRC.state (n : Nat) : Fld := ⟨IC_SRC n, 28, 27⟩
def IC_SRC.input (n : Nat) : Fld := ⟨IC_SRC n, 26, 26⟩
def IC_SRC.dtarget (n : Nat) : Fld := ⟨IC_SRC n, 21, 16⟩
def IC_SRC.target (n : Nat) : Fld := ⟨IC_SRC n, 5, 0⟩
/-- Offset of PWR_CTRL (spec/14 register table). -/
def PWR_CTRL : Nat := 0x1a0000
def PWR_CTRL.target : Fld := ⟨PWR_CTRL, 1, 0⟩
/-- Offset of PWR_STAT (spec/14 register table). -/
def PWR_STAT : Nat := 0x1a0004
def PWR_STAT.wake_cause : Fld := ⟨PWR_STAT, 9, 8⟩
def PWR_STAT.dp_resumed : Fld := ⟨PWR_STAT, 7, 7⟩
def PWR_STAT.dp_step : Fld := ⟨PWR_STAT, 4, 3⟩
def PWR_STAT.state : Fld := ⟨PWR_STAT, 2, 0⟩
/-- Offset of PWR_WAKE_EN (spec/14 register table). -/
def PWR_WAKE_EN : Nat := 0x1a0008
def PWR_WAKE_EN.alarm_en : Fld := ⟨PWR_WAKE_EN, 3, 3⟩
def PWR_WAKE_EN.ic_en : Fld := ⟨PWR_WAKE_EN, 2, 2⟩
def PWR_WAKE_EN.pin_pol : Fld := ⟨PWR_WAKE_EN, 1, 1⟩
def PWR_WAKE_EN.pin_en : Fld := ⟨PWR_WAKE_EN, 0, 0⟩
/-- Offset of PWR_ALARM (spec/14 register table). -/
def PWR_ALARM : Nat := 0x1a000c
def PWR_ALARM.cycles : Fld := ⟨PWR_ALARM, 31, 0⟩
/-- Offset of SLO_CTRL (spec/15 register table). -/
def SLO_CTRL : Nat := 0x180000
def SLO_CTRL.backup_root : Fld := ⟨SLO_CTRL, 8, 8⟩
def SLO_CTRL.readmit : Fld := ⟨SLO_CTRL, 3, 3⟩
def SLO_CTRL.census : Fld := ⟨SLO_CTRL, 2, 2⟩
def SLO_CTRL.en : Fld := ⟨SLO_CTRL, 0, 0⟩
/-- Offset of SLO_STAT (spec/15 register table). -/
def SLO_STAT : Nat := 0x180004
def SLO_STAT.node_id : Fld := ⟨SLO_STAT, 29, 24⟩
def SLO_STAT.depth : Fld := ⟨SLO_STAT, 23, 20⟩
def SLO_STAT.align : Fld := ⟨SLO_STAT, 19, 17⟩
def SLO_STAT.root : Fld := ⟨SLO_STAT, 16, 16⟩
def SLO_STAT.excluded : Fld := ⟨SLO_STAT, 15, 9⟩
def SLO_STAT.discard : Fld := ⟨SLO_STAT, 8, 8⟩
def SLO_STAT.root_lost : Fld := ⟨SLO_STAT, 7, 7⟩
def SLO_STAT.root_conflict : Fld := ⟨SLO_STAT, 6, 6⟩
def SLO_STAT.align_lost : Fld := ⟨SLO_STAT, 5, 5⟩
def SLO_STAT.route_chg : Fld := ⟨SLO_STAT, 4, 4⟩
def SLO_STAT.census_chg : Fld := ⟨SLO_STAT, 3, 3⟩
def SLO_STAT.census_busy : Fld := ⟨SLO_STAT, 1, 1⟩
def SLO_STAT.admitted : Fld := ⟨SLO_STAT, 0, 0⟩
/-- Offset of SLO_UID (spec/15 register table). -/
def SLO_UID : Nat := 0x180008
/-- Offset of SLO_OFS (spec/15 register table). -/
def SLO_OFS : Nat := 0x180010
def SLO_OFS.o : Fld := ⟨SLO_OFS, 31, 0⟩
/-- Offset of SLO_ALIGN (spec/15 register table). -/
def SLO_ALIGN : Nat := 0x180014
def SLO_ALIGN.lost_lim : Fld := ⟨SLO_ALIGN, 31, 16⟩
def SLO_ALIGN.ki : Fld := ⟨SLO_ALIGN, 15, 8⟩
def SLO_ALIGN.kp : Fld := ⟨SLO_ALIGN, 7, 0⟩
/-- Offset of SLO_IDMAP_EN (spec/15 register table). -/
def SLO_IDMAP_EN : Nat := 0x180020
/-- Offset of SLO_IDMAP (spec/15 register table). -/
def SLO_IDMAP (i : Nat) : Nat := 0x180100 + 0x8 * i
/-- Offset of SLO_ROUTE (spec/15 register table). -/
def SLO_ROUTE (n : Nat) : Nat := 0x180400 + 0x4 * n
def SLO_ROUTE.valid (n : Nat) : Fld := ⟨SLO_ROUTE n, 31, 31⟩
def SLO_ROUTE.alt_active (n : Nat) : Fld := ⟨SLO_ROUTE n, 30, 30⟩
def SLO_ROUTE.hops (n : Nat) : Fld := ⟨SLO_ROUTE n, 19, 16⟩
def SLO_ROUTE.alt_port (n : Nat) : Fld := ⟨SLO_ROUTE n, 13, 12⟩
def SLO_ROUTE.alt_valid (n : Nat) : Fld := ⟨SLO_ROUTE n, 11, 11⟩
def SLO_ROUTE.pri_port (n : Nat) : Fld := ⟨SLO_ROUTE n, 9, 8⟩
def SLO_ROUTE.tree (n : Nat) : Fld := ⟨SLO_ROUTE n, 0, 0⟩
/-- Offset of SLO_PORT_CTRL (spec/15 register table). -/
def SLO_PORT_CTRL (p : Nat) : Nat := 0x180800 + 0x40 * p
def SLO_PORT_CTRL.asym (p : Nat) : Fld := ⟨SLO_PORT_CTRL p, 31, 16⟩
def SLO_PORT_CTRL.en (p : Nat) : Fld := ⟨SLO_PORT_CTRL p, 0, 0⟩
/-- Offset of SLO_PORT_STAT (spec/15 register table). -/
def SLO_PORT_STAT (p : Nat) : Nat := 0x180804 + 0x40 * p
def SLO_PORT_STAT.far_node (p : Nat) : Fld := ⟨SLO_PORT_STAT p, 23, 18⟩
def SLO_PORT_STAT.degraded (p : Nat) : Fld := ⟨SLO_PORT_STAT p, 9, 9⟩
def SLO_PORT_STAT.down (p : Nat) : Fld := ⟨SLO_PORT_STAT p, 8, 8⟩
def SLO_PORT_STAT.state (p : Nat) : Fld := ⟨SLO_PORT_STAT p, 1, 0⟩
/-- Offset of SLO_PORT_DELAY (spec/15 register table). -/
def SLO_PORT_DELAY (p : Nat) : Nat := 0x180808 + 0x40 * p
def SLO_PORT_DELAY.delay (p : Nat) : Fld := ⟨SLO_PORT_DELAY p, 31, 0⟩
/-- Offset of SLO_PORT_CNT (spec/15 register table). -/
def SLO_PORT_CNT (p : Nat) : Nat := 0x18080c + 0x40 * p
def SLO_PORT_CNT.resends (p : Nat) : Fld := ⟨SLO_PORT_CNT p, 31, 16⟩
def SLO_PORT_CNT.bad (p : Nat) : Fld := ⟨SLO_PORT_CNT p, 15, 0⟩
/-- Offset of SLO_PORT_LOST (spec/15 register table). -/
def SLO_PORT_LOST (p : Nat) : Nat := 0x180810 + 0x40 * p
def SLO_PORT_LOST.cells (p : Nat) : Fld := ⟨SLO_PORT_LOST p, 31, 0⟩
/-- Offset of SLO_PUB (spec/15 register table). -/
def SLO_PUB (s : Nat) : Nat := 0x180c00 + 0x10 * s
def SLO_PUB.subs (s : Nat) : Fld := ⟨SLO_PUB s, 4, 0⟩
/-- The word above SLO_PUBs, whose bit 31 is allow (R366). -/
def SLO_PUB_ALLOW (s : Nat) : Nat := 0x180c04 + 0x10 * s
def SLO_PUB_ALLOW.allow (s : Nat) : Fld := ⟨SLO_PUB_ALLOW s, 31, 31⟩

/-- Offset of SLO_PUB_MASK (spec/15 register table). -/
def SLO_PUB_MASK (s : Nat) : Nat := 0x180c08 + 0x10 * s
/-- Offset of SLO_MIR (spec/15 register table). -/
def SLO_MIR (d : Nat) : Nat := 0x180d00 + 0x10 * d
def SLO_MIR.en (d : Nat) : Fld := ⟨SLO_MIR d, 31, 31⟩
def SLO_MIR.src_node (d : Nat) : Fld := ⟨SLO_MIR d, 13, 8⟩
def SLO_MIR.src_dom (d : Nat) : Fld := ⟨SLO_MIR d, 1, 0⟩
/-- Offset of SLO_MIR_STAT (spec/15 register table). -/
def SLO_MIR_STAT (d : Nat) : Nat := 0x180d04 + 0x10 * d
def SLO_MIR_STAT.gaps (d : Nat) : Fld := ⟨SLO_MIR_STAT d, 31, 16⟩
def SLO_MIR_STAT.refused (d : Nat) : Fld := ⟨SLO_MIR_STAT d, 1, 1⟩
def SLO_MIR_STAT.subscribed (d : Nat) : Fld := ⟨SLO_MIR_STAT d, 0, 0⟩
/-- Offset of SLO_BTX_BASE (spec/15 register table). -/
def SLO_BTX_BASE : Nat := 0x180e00
def SLO_BTX_BASE.line : Fld := ⟨SLO_BTX_BASE, 23, 5⟩
/-- Offset of SLO_BTX_SIZE (spec/15 register table). -/
def SLO_BTX_SIZE : Nat := 0x180e04
def SLO_BTX_SIZE.entries : Fld := ⟨SLO_BTX_SIZE, 15, 0⟩
/-- Offset of SLO_BTX_CONS (spec/15 register table). -/
def SLO_BTX_CONS : Nat := 0x180e08
def SLO_BTX_CONS.addr : Fld := ⟨SLO_BTX_CONS, 23, 3⟩
/-- Offset of SLO_BTX_CTRL (spec/15 register table). -/
def SLO_BTX_CTRL : Nat := 0x180e0c
def SLO_BTX_CTRL.en : Fld := ⟨SLO_BTX_CTRL, 0, 0⟩
/-- Offset of SLO_BRX_BASE (spec/15 register table). -/
def SLO_BRX_BASE : Nat := 0x180e10
def SLO_BRX_BASE.line : Fld := ⟨SLO_BRX_BASE, 23, 5⟩
/-- Offset of SLO_BRX_SIZE (spec/15 register table). -/
def SLO_BRX_SIZE : Nat := 0x180e14
def SLO_BRX_SIZE.entries : Fld := ⟨SLO_BRX_SIZE, 15, 0⟩
/-- Offset of SLO_BRX_CTRL (spec/15 register table). -/
def SLO_BRX_CTRL : Nat := 0x180e18
def SLO_BRX_CTRL.en : Fld := ⟨SLO_BRX_CTRL, 0, 0⟩
/-- Offset of SLO_BRX_WR (spec/15 register table). -/
def SLO_BRX_WR : Nat := 0x180e1c
def SLO_BRX_WR.count : Fld := ⟨SLO_BRX_WR, 31, 0⟩
/-- Offset of SLO_DISC (spec/15 register table). -/
def SLO_DISC : Nat := 0x180f00
def SLO_DISC.unreach : Fld := ⟨SLO_DISC, 31, 24⟩
def SLO_DISC.unadmitted : Fld := ⟨SLO_DISC, 23, 16⟩
def SLO_DISC.bulk : Fld := ⟨SLO_DISC, 15, 8⟩
def SLO_DISC.other : Fld := ⟨SLO_DISC, 7, 0⟩
/-- Offset of GBL_ID (spec/16 register table). -/
def GBL_ID : Nat := 0x000000
def GBL_ID.family : Fld := ⟨GBL_ID, 31, 16⟩
def GBL_ID.member : Fld := ⟨GBL_ID, 15, 0⟩
/-- Offset of GBL_REV (spec/16 register table). -/
def GBL_REV : Nat := 0x000004
def GBL_REV.grade : Fld := ⟨GBL_REV, 17, 16⟩
def GBL_REV.letter : Fld := ⟨GBL_REV, 15, 8⟩
def GBL_REV.number : Fld := ⟨GBL_REV, 7, 0⟩
/-- Offset of GBL_STRAP (spec/16 register table). -/
def GBL_STRAP : Nat := 0x000008
def GBL_STRAP.boot_src : Fld := ⟨GBL_STRAP, 3, 3⟩
def GBL_STRAP.node_root : Fld := ⟨GBL_STRAP, 2, 2⟩
def GBL_STRAP.hostsel : Fld := ⟨GBL_STRAP, 1, 0⟩
/-- Offset of GBL_SCRATCH (spec/16 register table). -/
def GBL_SCRATCH : Nat := 0x00000c
def GBL_SCRATCH.value : Fld := ⟨GBL_SCRATCH, 31, 0⟩
/-- Offset of GBL_HOST (spec/16 register table). -/
def GBL_HOST : Nat := 0x000010
def GBL_HOST.qspi_err : Fld := ⟨GBL_HOST, 23, 23⟩
def GBL_HOST.bad_acc : Fld := ⟨GBL_HOST, 22, 22⟩
def GBL_HOST.link_down : Fld := ⟨GBL_HOST, 21, 21⟩
def GBL_HOST.poison_rx : Fld := ⟨GBL_HOST, 20, 20⟩
def GBL_HOST.width : Fld := ⟨GBL_HOST, 14, 12⟩
def GBL_HOST.speed : Fld := ⟨GBL_HOST, 10, 8⟩
def GBL_HOST.dl_up : Fld := ⟨GBL_HOST, 1, 1⟩
def GBL_HOST.ready : Fld := ⟨GBL_HOST, 0, 0⟩
/-- Offset of ASY_STAT (spec/17 register table). -/
def ASY_STAT : Nat := 0x190000
def ASY_STAT.ready : Fld := ⟨ASY_STAT, 31, 31⟩
def ASY_STAT.rom_mode : Fld := ⟨ASY_STAT, 30, 30⟩
def ASY_STAT.mbox_rej : Fld := ⟨ASY_STAT, 8, 8⟩
def ASY_STAT.sec_event : Fld := ⟨ASY_STAT, 7, 7⟩
def ASY_STAT.fw_fault : Fld := ⟨ASY_STAT, 6, 6⟩
def ASY_STAT.nor_err : Fld := ⟨ASY_STAT, 5, 5⟩
def ASY_STAT.ledger_lost : Fld := ⟨ASY_STAT, 4, 4⟩
def ASY_STAT.ref_out : Fld := ⟨ASY_STAT, 3, 3⟩
def ASY_STAT.sup_out : Fld := ⟨ASY_STAT, 2, 2⟩
def ASY_STAT.temp_crit : Fld := ⟨ASY_STAT, 1, 1⟩
def ASY_STAT.temp_warn : Fld := ⟨ASY_STAT, 0, 0⟩
/-- Offset of ASY_MBOX_CMD (spec/17 register table). -/
def ASY_MBOX_CMD : Nat := 0x190004
def ASY_MBOX_CMD.go : Fld := ⟨ASY_MBOX_CMD, 31, 31⟩
def ASY_MBOX_CMD.opcode : Fld := ⟨ASY_MBOX_CMD, 23, 16⟩
def ASY_MBOX_CMD.tag : Fld := ⟨ASY_MBOX_CMD, 15, 8⟩
def ASY_MBOX_CMD.len : Fld := ⟨ASY_MBOX_CMD, 6, 0⟩
/-- Offset of ASY_MBOX_RSP (spec/17 register table). -/
def ASY_MBOX_RSP : Nat := 0x190008
def ASY_MBOX_RSP.done' : Fld := ⟨ASY_MBOX_RSP, 31, 31⟩
def ASY_MBOX_RSP.busy : Fld := ⟨ASY_MBOX_RSP, 30, 30⟩
def ASY_MBOX_RSP.status : Fld := ⟨ASY_MBOX_RSP, 23, 16⟩
def ASY_MBOX_RSP.tag : Fld := ⟨ASY_MBOX_RSP, 15, 8⟩
def ASY_MBOX_RSP.len : Fld := ⟨ASY_MBOX_RSP, 6, 0⟩
/-- Offset of ASY_MBOX_DATA (spec/17 register table). -/
def ASY_MBOX_DATA (k : Nat) : Nat := 0x190100 + 0x4 * k
def ASY_MBOX_DATA.word (k : Nat) : Fld := ⟨ASY_MBOX_DATA k, 31, 0⟩
/-- Offset of ASY_TEMP (spec/17 register table). -/
def ASY_TEMP (i : Nat) : Nat := 0x190200 + 0x4 * i
def ASY_TEMP.temp (i : Nat) : Fld := ⟨ASY_TEMP i, 15, 0⟩
/-- Offset of ASY_TLIM (spec/17 register table). -/
def ASY_TLIM : Nat := 0x190240
def ASY_TLIM.dram_crit : Fld := ⟨ASY_TLIM, 31, 24⟩
def ASY_TLIM.dram_warn : Fld := ⟨ASY_TLIM, 23, 16⟩
def ASY_TLIM.die_crit : Fld := ⟨ASY_TLIM, 15, 8⟩
def ASY_TLIM.die_warn : Fld := ⟨ASY_TLIM, 7, 0⟩
/-- Offset of ASY_SUP (spec/17 register table). -/
def ASY_SUP (j : Nat) : Nat := 0x190280 + 0x4 * j
def ASY_SUP.mv (j : Nat) : Fld := ⟨ASY_SUP j, 15, 0⟩
/-- Offset of ASY_SUP_LIM (spec/17 register table). -/
def ASY_SUP_LIM (j : Nat) : Nat := 0x1902c0 + 0x4 * j
def ASY_SUP_LIM.hi (j : Nat) : Fld := ⟨ASY_SUP_LIM j, 31, 16⟩
def ASY_SUP_LIM.lo (j : Nat) : Fld := ⟨ASY_SUP_LIM j, 15, 0⟩
/-- Offset of ASY_VIO (spec/17 register table). -/
def ASY_VIO (b : Nat) : Nat := 0x190300 + 0x4 * b
def ASY_VIO.mv (b : Nat) : Fld := ⟨ASY_VIO b, 15, 0⟩
/-- Offset of ASY_REF (spec/17 register table). -/
def ASY_REF : Nat := 0x190320
def ASY_REF.err : Fld := ⟨ASY_REF, 31, 0⟩
/-- Offset of ASY_SEC_STAT (spec/17 register table). -/
def ASY_SEC_STAT : Nat := 0x190400
def ASY_SEC_STAT.otp_err : Fld := ⟨ASY_SEC_STAT, 3, 3⟩
def ASY_SEC_STAT.guard_hit : Fld := ⟨ASY_SEC_STAT, 2, 2⟩
def ASY_SEC_STAT.ps_wr_ignored : Fld := ⟨ASY_SEC_STAT, 1, 1⟩
def ASY_SEC_STAT.loading : Fld := ⟨ASY_SEC_STAT, 0, 0⟩
/-- Offset of ASY_PS_PROT (spec/17 register table). -/
def ASY_PS_PROT : Nat := 0x190408
/-- Offset of ASY_DBG (spec/17 register table). -/
def ASY_DBG : Nat := 0x190410
def ASY_DBG.close : Fld := ⟨ASY_DBG, 2, 2⟩
def ASY_DBG.level : Fld := ⟨ASY_DBG, 1, 0⟩
/-- Offset of FLT_STAT (spec/18 register table). -/
def FLT_STAT : Nat := 0x1b0000
def FLT_STAT.fault : Fld := ⟨FLT_STAT, 24, 0⟩
/-- Offset of FLT_FIRST (spec/18 register table). -/
def FLT_FIRST : Nat := 0x1b0004
def FLT_FIRST.valid : Fld := ⟨FLT_FIRST, 31, 31⟩
def FLT_FIRST.bit : Fld := ⟨FLT_FIRST, 4, 0⟩
/-- Offset of FLT_FIRST_TIME (spec/18 register table). -/
def FLT_FIRST_TIME : Nat := 0x1b0008
/-- Offset of FLT_ENG (spec/18 register table). -/
def FLT_ENG : Nat := 0x1b0010
def FLT_ENG.healthy : Fld := ⟨FLT_ENG, 20, 16⟩
def FLT_ENG.reint_fail : Fld := ⟨FLT_ENG, 9, 9⟩
def FLT_ENG.reint_busy : Fld := ⟨FLT_ENG, 8, 8⟩
def FLT_ENG.fences : Fld := ⟨FLT_ENG, 7, 0⟩
/-- Offset of FLT_BOOT (spec/18 register table). -/
def FLT_BOOT : Nat := 0x1b0014
def FLT_BOOT.ucode_ms : Fld := ⟨FLT_BOOT, 31, 16⟩
def FLT_BOOT.fallback : Fld := ⟨FLT_BOOT, 6, 6⟩
def FLT_BOOT.daybook : Fld := ⟨FLT_BOOT, 5, 5⟩
def FLT_BOOT.ucode : Fld := ⟨FLT_BOOT, 4, 4⟩
def FLT_BOOT.fw : Fld := ⟨FLT_BOOT, 3, 3⟩
def FLT_BOOT.host_ready : Fld := ⟨FLT_BOOT, 2, 2⟩
def FLT_BOOT.vault_clr : Fld := ⟨FLT_BOOT, 1, 1⟩
def FLT_BOOT.pll : Fld := ⟨FLT_BOOT, 0, 0⟩
/-- Offset of FLT_PULSE (spec/18 register table). -/
def FLT_PULSE : Nat := 0x1b0018
def FLT_PULSE.skipped : Fld := ⟨FLT_PULSE, 31, 16⟩
def FLT_PULSE.healthy : Fld := ⟨FLT_PULSE, 1, 1⟩
def FLT_PULSE.level : Fld := ⟨FLT_PULSE, 0, 0⟩

/-- Register words of the 64 KiB block 0x001c. -/
def regWords01c : List RegWord := [
  ⟨0x1c0000, 0x0, 1, 0x0, 1, 0x0, 0x100, 0x0, 0x0, 0x0, 0x3, []⟩,
  ⟨0x1c0004, 0x0, 1, 0x0, 1, 0x0, 0x0, 0x3e0000, 0x0, 0x0, 0x0, []⟩,
  ⟨0x1c0008, 0x0, 1, 0x0, 1, 0x0, 0xffffffff, 0x0, 0x0, 0x0, 0x0, []⟩,
  ⟨0x1c000c, 0x0, 1, 0x0, 1, 0x0, 0xffffffff, 0x0, 0x0, 0x0, 0x0, []⟩,
  ⟨0x1c0010, 0x0, 1, 0x0, 1, 0x0, 0xfffffc, 0x0, 0x0, 0x0, 0x0, []⟩,
  ⟨0x1c0014, 0x0, 1, 0x0, 1, 0x0, 0x0, 0x0, 0x0, 0x0, 0xffffffff, []⟩,
  ⟨0x1c0018, 0x0, 1, 0x0, 1, 0xffffffff, 0x0, 0x0, 0x0, 0x0, 0x0, []⟩,
  ⟨0x1c001c, 0x0, 1, 0x0, 1, 0xffffffff, 0x0, 0x0, 0x0, 0x0, 0x0, []⟩]
/-- Register words of the 64 KiB block 0x0001. -/
def regWords001 : List RegWord := [
  ⟨0x010000, 0x0, 1, 0x0, 1, 0x0, 0x0, 0x0, 0x0, 0x0, 0x0, []⟩,
  ⟨0x010004, 0x0, 1, 0x0, 1, 0x0, 0x0, 0x0, 0x0, 0x0, 0x0, []⟩,
  ⟨0x010008, 0x0, 1, 0x0, 1, 0x0, 0x0, 0x0, 0x0, 0x0, 0x0, []⟩,
  ⟨0x01000c, 0x0, 1, 0x0, 1, 0x0, 0x0, 0x0, 0x0, 0x0, 0x0, []⟩,
  ⟨0x010010, 0x0, 1, 0x0, 1, 0x0, 0x0, 0x6, 0x0, 0x0, 0x0, []⟩,
  ⟨0x010014, 0x0, 1, 0x0, 1, 0x0, 0x3, 0x0, 0x0, 0x0, 0x0, [(1, 0, 3, 3)]⟩,
  ⟨0x010018, 0x0, 1, 0x0, 1, 0x0, 0xffffffff, 0x0, 0x0, 0x0, 0x0, []⟩,
  ⟨0x010020, 0x0, 1, 0x0, 1, 0xffffffff, 0x0, 0x0, 0x0, 0x0, 0x0, []⟩,
  ⟨0x010024, 0x0, 1, 0x0, 1, 0xffffffff, 0x0, 0x0, 0x0, 0x0, 0x0, []⟩,
  ⟨0x010028, 0x0, 1, 0x0, 1, 0xffffffff, 0x0, 0x0, 0x0, 0x0, 0x0, []⟩,
  ⟨0x01002c, 0x0, 1, 0x0, 1, 0xffffffff, 0x0, 0x0, 0x0, 0x0, 0x0, []⟩]
/-- Register words of the 64 KiB block 0x0000. -/
def regWords000 : List RegWord := [
  ⟨0x000100, 0x0, 1, 0x0, 1, 0x0, 0x0, 0x0, 0x0, 0x0, 0xffffffff, []⟩,
  ⟨0x000104, 0x0, 1, 0x0, 1, 0x0, 0x0, 0x0, 0x0, 0x0, 0xffffffff, []⟩,
  ⟨0x000108, 0x0, 1, 0x0, 1, 0x0, 0xffffffff, 0x0, 0x0, 0x0, 0x0, []⟩,
  ⟨0x00010c, 0x0, 1, 0x0, 1, 0x0, 0x104, 0x0, 0x0, 0x0, 0x3, []⟩,
  ⟨0x000110, 0x0, 1, 0x0, 1, 0x0, 0xffffffff, 0x0, 0x0, 0x0, 0x0, []⟩,
  ⟨0x000114, 0x0, 1, 0x0, 1, 0x0, 0xffffffff, 0x0, 0x0, 0x0, 0x0, []⟩,
  ⟨0x000118, 0x0, 1, 0x0, 1, 0x0, 0x0, 0x3e, 0x0, 0x0, 0x0, []⟩,
  ⟨0x000000, 0x0, 1, 0x0, 1, 0x4a470512, 0x0, 0x0, 0x0, 0x0, 0x0, []⟩,
  ⟨0x000004, 0x0, 1, 0x0, 1, 0x4101, 0x0, 0x0, 0x0, 0x0, 0x0, []⟩,
  ⟨0x000008, 0x0, 1, 0x0, 1, 0x0, 0x0, 0x0, 0x0, 0x0, 0x0, []⟩,
  ⟨0x00000c, 0x0, 1, 0x0, 1, 0x0, 0xffffffff, 0x0, 0x0, 0x0, 0x0, []⟩,
  ⟨0x000010, 0x0, 1, 0x0, 1, 0x0, 0x0, 0xf00000, 0x0, 0x0, 0x0, []⟩]
/-- Register words of the 64 KiB block 0x0002. -/
def regWords002 : List RegWord := [
  ⟨0x020000, 0x40, 32, 0x4, 4, 0x0, 0xffffffff, 0x0, 0x0, 0x0, 0x0, []⟩,
  ⟨0x020010, 0x40, 32, 0x4, 4, 0x0, 0x3ff03, 0x0, 0x0, 0x0, 0x40000000, []⟩,
  ⟨0x020020, 0x40, 32, 0x0, 1, 0x0, 0xffffffef, 0x0, 0x0, 0x0, 0x0, [(3, 1, 4, 7)]⟩,
  ⟨0x020024, 0x40, 32, 0x0, 1, 0x0, 0xffffffff, 0x0, 0x0, 0x0, 0x0, []⟩,
  ⟨0x020028, 0x40, 32, 0x0, 1, 0x0, 0x0, 0xfff, 0x0, 0x0, 0x0, []⟩,
  ⟨0x02002c, 0x40, 32, 0x0, 1, 0x0, 0x81ff, 0x0, 0x0, 0x0, 0x0, []⟩,
  ⟨0x020030, 0x40, 32, 0x0, 1, 0xffffffff, 0x0, 0x0, 0x0, 0x0, 0x0, []⟩,
  ⟨0x020034, 0x40, 32, 0x0, 1, 0xffffffff, 0x0, 0x0, 0x0, 0x0, 0x0, []⟩,
  ⟨0x020038, 0x40, 32, 0x0, 1, 0x0, 0x0, 0x0, 0x0, 0x0, 0x0, []⟩,
  ⟨0x02003c, 0x40, 32, 0x0, 1, 0x0, 0x7ff03, 0x0, 0x0, 0x0, 0x800000, [(1, 0, 3, 3)]⟩]
/-- Register words of the 64 KiB block 0x0004. -/
def regWords004 : List RegWord := [
  ⟨0x040000, 0x40, 256, 0x0, 1, 0x10, 0xf337, 0x0, 0x0, 0x300, 0x0, [(9, 8, 3, 3), (5, 4, 3, 3), (2, 0, 4, 7)]⟩,
  ⟨0x040004, 0x40, 256, 0x0, 1, 0x0, 0x3f81ff, 0x0, 0x0, 0x0, 0x0, []⟩,
  ⟨0x040008, 0x40, 256, 0x0, 1, 0x0, 0xffff01ff, 0x0, 0x0, 0x0, 0x0, []⟩,
  ⟨0x04000c, 0x40, 256, 0x0, 1, 0x0, 0x1fff, 0x0, 0x0, 0x0, 0x0, []⟩,
  ⟨0x040010, 0x40, 256, 0x0, 1, 0x0, 0xffffffff, 0x0, 0x0, 0x0, 0x0, []⟩,
  ⟨0x040014, 0x40, 256, 0x0, 1, 0x0, 0xffffffff, 0x0, 0x0, 0x0, 0x0, []⟩,
  ⟨0x040018, 0x40, 256, 0x0, 1, 0x0, 0x7ff03, 0x0, 0x0, 0x0, 0x80000000, []⟩,
  ⟨0x04001c, 0x40, 256, 0x0, 1, 0x0, 0x0, 0x0, 0x0, 0x0, 0xff01f3, []⟩,
  ⟨0x040020, 0x40, 256, 0x0, 1, 0xffffffff, 0x0, 0x0, 0x0, 0x0, 0x0, []⟩,
  ⟨0x040024, 0x40, 256, 0x0, 1, 0xffffffff, 0x0, 0x0, 0x0, 0x0, 0x0, []⟩,
  ⟨0x040028, 0x40, 256, 0x0, 1, 0x0, 0x0, 0x0, 0x0, 0x0, 0x0, []⟩,
  ⟨0x04002c, 0x40, 256, 0x0, 1, 0x0, 0x0, 0x1ff, 0x0, 0x0, 0x0, []⟩,
  ⟨0x040030, 0x40, 256, 0x0, 1, 0x0, 0x0, 0x0, 0x0, 0x0, 0x0, []⟩,
  ⟨0x040038, 0x40, 256, 0x0, 1, 0xffffffff, 0x0, 0x0, 0x0, 0x0, 0x0, []⟩,
  ⟨0x04003c, 0x40, 256, 0x0, 1, 0xffffffff, 0x0, 0x0, 0x0, 0x0, 0x0, []⟩,
  ⟨0x044000, 0x4, 8, 0x0, 1, 0x109, 0x339, 0x0, 0x0, 0x0, 0x0, [(5, 4, 3, 3)]⟩,
  ⟨0x044040, 0x0, 1, 0x0, 1, 0x42, 0x2, 0x20, 0x80, 0x2, 0xc, []⟩,
  ⟨0x044080, 0x4, 8, 0x0, 1, 0x0, 0x0, 0x0, 0x0, 0x0, 0x0, []⟩,
  ⟨0x044100, 0x4, 32, 0x0, 1, 0x0, 0x800003ff, 0x0, 0x0, 0x0, 0x0, []⟩]
/-- Register words of the 64 KiB block 0x0006. -/
def regWords006 : List RegWord := [
  ⟨0x060000, 0x1000, 8, 0x0, 1, 0x0, 0x1, 0x0, 0x0, 0x0, 0x0, []⟩,
  ⟨0x060004, 0x1000, 8, 0x0, 1, 0x0, 0x0, 0x0, 0x0, 0x0, 0x7, []⟩,
  ⟨0x060008, 0x1000, 8, 0x0, 1, 0x40, 0x3ffefff7, 0x0, 0x0, 0x0, 0x0, [(7, 6, 0, 0), (7, 6, 3, 3), (5, 4, 2, 3)]⟩,
  ⟨0x06000c, 0x1000, 8, 0x0, 1, 0x0, 0x1fffff, 0x0, 0x0, 0x0, 0x0, []⟩,
  ⟨0x060010, 0x1000, 8, 0x0, 1, 0x1b33059a, 0xffffffff, 0x0, 0x0, 0x0, 0x0, []⟩,
  ⟨0x060014, 0x1000, 8, 0x0, 1, 0x18000800, 0xffffffff, 0x0, 0x0, 0x0, 0x0, []⟩,
  ⟨0x060018, 0x1000, 8, 0x0, 1, 0x40102, 0x3ffff8f, 0x0, 0x0, 0x0, 0x0, []⟩,
  ⟨0x06001c, 0x1000, 8, 0x0, 1, 0x186a0, 0xffffff, 0x0, 0x0, 0x0, 0x0, []⟩,
  ⟨0x060020, 0x1000, 8, 0x0, 1, 0x0, 0xfffffff0, 0x0, 0x0, 0x0, 0x0, [(5, 4, 3, 3)]⟩,
  ⟨0x060024, 0x1000, 8, 0x0, 1, 0x0, 0xffff, 0x0, 0x0, 0x0, 0x0, []⟩,
  ⟨0x060028, 0x1000, 8, 0x0, 1, 0x4e202000, 0xffffffff, 0x0, 0x0, 0x0, 0x0, []⟩,
  ⟨0x060040, 0x1000, 8, 0x0, 1, 0x0, 0x0, 0x0, 0x0, 0x0, 0x0, []⟩,
  ⟨0x060044, 0x1000, 8, 0x0, 1, 0x0, 0x0, 0x7ff, 0x0, 0x0, 0x0, []⟩,
  ⟨0x060048, 0x1000, 8, 0x0, 1, 0x0, 0x0, 0x0, 0x0, 0x0, 0x0, []⟩,
  ⟨0x060050, 0x1000, 8, 0x0, 1, 0xffffffff, 0x0, 0x0, 0x0, 0x0, 0x0, []⟩,
  ⟨0x060054, 0x1000, 8, 0x0, 1, 0xffffffff, 0x0, 0x0, 0x0, 0x0, 0x0, []⟩,
  ⟨0x060058, 0x1000, 8, 0x0, 1, 0xffffffff, 0x0, 0x0, 0x0, 0x0, 0x0, []⟩,
  ⟨0x06005c, 0x1000, 8, 0x0, 1, 0x0, 0x0, 0x0, 0x0, 0x0, 0x0, []⟩,
  ⟨0x060060, 0x1000, 8, 0x0, 1, 0x0, 0xf81ff, 0x0, 0x0, 0x0, 0x0, []⟩,
  ⟨0x060080, 0x1000, 8, 0x0, 1, 0x0, 0x30003ff, 0x0, 0x0, 0x0, 0x0, [(25, 24, 3, 3)]⟩,
  ⟨0x060084, 0x1000, 8, 0x0, 1, 0x0, 0xffffffff, 0x0, 0x0, 0x0, 0x0, []⟩,
  ⟨0x060090, 0x1000, 8, 0x0, 1, 0x40000a00, 0xffffff0b, 0x0, 0x0, 0x0, 0x0, [(1, 0, 3, 3)]⟩,
  ⟨0x060094, 0x1000, 8, 0x0, 1, 0x0, 0x0, 0x0, 0x0, 0x0, 0x0, []⟩,
  ⟨0x060100, 0x1000, 8, 0x20, 4, 0x0, 0x80ff373f, 0x0, 0x0, 0x0, 0x0, [(13, 12, 2, 3)]⟩,
  ⟨0x060104, 0x1000, 8, 0x20, 4, 0xffff6000, 0xffffffff, 0x0, 0x0, 0x0, 0x0, []⟩,
  ⟨0x060108, 0x1000, 8, 0x20, 4, 0x23000, 0xffffffff, 0x0, 0x0, 0x0, 0x0, []⟩,
  ⟨0x06010c, 0x1000, 8, 0x20, 4, 0x0, 0x0, 0x0, 0x0, 0x0, 0x0, []⟩,
  ⟨0x060110, 0x1000, 8, 0x20, 4, 0x0, 0x0, 0x0, 0x0, 0x0, 0x0, []⟩,
  ⟨0x060114, 0x1000, 8, 0x20, 4, 0x0, 0x0, 0x0, 0x0, 0x0, 0x0, []⟩,
  ⟨0x060118, 0x1000, 8, 0x20, 4, 0xffffffff, 0x0, 0x0, 0x0, 0x0, 0x0, []⟩,
  ⟨0x06011c, 0x1000, 8, 0x20, 4, 0xffffffff, 0x0, 0x0, 0x0, 0x0, 0x0, []⟩,
  ⟨0x068000, 0x20, 8, 0x0, 1, 0x14400000, 0xffff000b, 0x0, 0x0, 0x0, 0x0, [(1, 0, 3, 3)]⟩,
  ⟨0x068004, 0x20, 8, 0x0, 1, 0x0, 0xffff01ff, 0x0, 0x0, 0x0, 0x0, []⟩,
  ⟨0x068008, 0x20, 8, 0x0, 1, 0x0, 0x1fff, 0x0, 0x0, 0x0, 0x0, []⟩,
  ⟨0x06800c, 0x20, 8, 0x0, 1, 0x0, 0x0, 0x0, 0x0, 0x0, 0x180, []⟩,
  ⟨0x068010, 0x20, 8, 0x0, 1, 0x0, 0x0, 0x6, 0x0, 0x0, 0x0, []⟩,
  ⟨0x060030, 0x1000, 8, 0x0, 1, 0x408000, 0xffffff, 0x0, 0x0, 0x0, 0x0, [(15, 0, 32769, 65535)]⟩,
  ⟨0x060064, 0x1000, 8, 0x0, 1, 0xffffffff, 0x0, 0x0, 0x0, 0x0, 0x0, []⟩,
  ⟨0x060068, 0x1000, 8, 0x0, 1, 0x0, 0x0, 0x0, 0x0, 0x0, 0x0, []⟩,
  ⟨0x06006c, 0x1000, 8, 0x0, 1, 0x0, 0x0, 0x1, 0x0, 0x0, 0x0, []⟩,
  ⟨0x060200, 0x1000, 8, 0x0, 1, 0x0, 0xff, 0x0, 0x0, 0x0, 0x0, []⟩,
  ⟨0x060204, 0x1000, 8, 0x0, 1, 0x0, 0x0, 0x0, 0x0, 0x0, 0x1f, []⟩,
  ⟨0x060210, 0x1000, 8, 0x0, 1, 0x0, 0x1fffff, 0x0, 0x0, 0x0, 0x0, []⟩,
  ⟨0x060214, 0x1000, 8, 0x0, 1, 0x0, 0xffffff, 0x0, 0x0, 0x0, 0x0, []⟩,
  ⟨0x060218, 0x1000, 8, 0x0, 1, 0x0, 0x81ff80ff, 0x0, 0x0, 0x0, 0x0, []⟩,
  ⟨0x06021c, 0x1000, 8, 0x0, 1, 0x0, 0xffffffff, 0x0, 0x0, 0x0, 0x0, []⟩,
  ⟨0x060220, 0x1000, 8, 0x0, 1, 0x0, 0x0, 0x0, 0x0, 0x0, 0x0, []⟩,
  ⟨0x060228, 0x1000, 8, 0x0, 1, 0xffffffff, 0x0, 0x0, 0x0, 0x0, 0x0, []⟩,
  ⟨0x06022c, 0x1000, 8, 0x0, 1, 0xffffffff, 0x0, 0x0, 0x0, 0x0, 0x0, []⟩,
  ⟨0x060240, 0x1000, 8, 0x0, 1, 0x0, 0x0, 0x0, 0x0, 0x0, 0x0, []⟩,
  ⟨0x060280, 0x1000, 8, 0x4, 8, 0x0, 0x0, 0x0, 0x0, 0x0, 0x0, []⟩,
  ⟨0x060300, 0x1000, 8, 0x0, 1, 0x87d000fa, 0x8fffffff, 0x0, 0x0, 0x0, 0x0, []⟩,
  ⟨0x060304, 0x1000, 8, 0x0, 1, 0x0, 0x0, 0x2, 0x0, 0x0, 0x0, []⟩]
/-- Register words of the 64 KiB block 0x0008. -/
def regWords008 : List RegWord := [
  ⟨0x080000, 0x0, 1, 0x0, 1, 0x100, 0x101, 0x0, 0x0, 0x0, 0x10000, []⟩,
  ⟨0x080004, 0x0, 1, 0x0, 1, 0x840000, 0x0, 0x3fc, 0x0, 0x0, 0x0, []⟩,
  ⟨0x080008, 0x0, 1, 0x0, 1, 0x0, 0x0, 0x0, 0x0, 0x0, 0x0, []⟩,
  ⟨0x08000c, 0x0, 1, 0x0, 1, 0x0, 0x0, 0x0, 0x0, 0x0, 0x0, []⟩,
  ⟨0x080010, 0x0, 1, 0x0, 1, 0xe400, 0x0, 0x0, 0x0, 0x0, 0x0, []⟩,
  ⟨0x080100, 0x10, 17, 0x0, 1, 0x0, 0x0, 0x0, 0x0, 0x0, 0x0, []⟩,
  ⟨0x080104, 0x10, 17, 0x0, 1, 0x0, 0x0, 0x0, 0x0, 0x0, 0x3, []⟩,
  ⟨0x081000, 0x10, 512, 0x0, 1, 0x0, 0x1, 0x0, 0x0, 0x0, 0x2, []⟩,
  ⟨0x081004, 0x10, 512, 0x0, 1, 0x0, 0x7ffff, 0x0, 0x0, 0x0, 0x0, []⟩,
  ⟨0x081008, 0x10, 512, 0x0, 1, 0x0, 0x0, 0x0, 0x20000, 0x0, 0x0, []⟩,
  ⟨0x08100c, 0x10, 512, 0x0, 1, 0x0, 0x0, 0x300, 0x0, 0x0, 0x0, []⟩]
/-- Register words of the 64 KiB block 0x0010. -/
def regWords010 : List RegWord := [
  ⟨0x100000, 0x0, 1, 0x0, 1, 0x0, 0x0, 0x0, 0x6, 0x0, 0x0, []⟩,
  ⟨0x100004, 0x0, 1, 0x0, 1, 0x0, 0x0, 0x1f0, 0x0, 0x0, 0x0, []⟩,
  ⟨0x100008, 0x0, 1, 0x0, 1, 0x0, 0x0, 0x0, 0x0, 0x0, 0x0, []⟩,
  ⟨0x100010, 0x0, 1, 0x0, 1, 0x0, 0x1fff, 0x0, 0x0, 0x0, 0x0, []⟩,
  ⟨0x100014, 0x0, 1, 0x0, 1, 0x0, 0xffffff, 0x0, 0x0, 0x0, 0x0, []⟩,
  ⟨0x100018, 0x0, 1, 0x0, 1, 0x0, 0x7ff, 0x0, 0x0, 0x0, 0x0, []⟩,
  ⟨0x100020, 0x4, 4, 0x0, 1, 0x0, 0xffffffff, 0x0, 0x0, 0x0, 0x0, []⟩,
  ⟨0x100030, 0x0, 1, 0x0, 1, 0x0, 0x0, 0x80000000, 0x0, 0x0, 0x0, []⟩,
  ⟨0x100400, 0x4, 256, 0x0, 1, 0x0, 0x80001fff, 0x0, 0x0, 0x80001fff, 0x0, []⟩,
  ⟨0x101000, 0x80, 17, 0x4, 32, 0x0, 0x0, 0x0, 0x0, 0x0, 0x0, []⟩]
/-- Register words of the 64 KiB block 0x0011. -/
def regWords011 : List RegWord := [
  ⟨0x110000, 0x0, 1, 0x0, 1, 0x1, 0x1, 0x0, 0x0, 0x0, 0x10000, []⟩,
  ⟨0x110004, 0x0, 1, 0x0, 1, 0x0, 0x0, 0xff, 0x0, 0x0, 0x0, []⟩,
  ⟨0x110008, 0x0, 1, 0x0, 1, 0x0, 0x0, 0x0, 0x0, 0x0, 0x0, []⟩,
  ⟨0x11000c, 0x0, 1, 0x0, 1, 0x0, 0x0, 0x80000000, 0x0, 0x0, 0x0, []⟩,
  ⟨0x110010, 0x0, 1, 0x0, 1, 0x0, 0xffff, 0x0, 0x0, 0x0, 0x0, []⟩,
  ⟨0x110014, 0x0, 1, 0x0, 1, 0x0, 0x7, 0x0, 0x0, 0x0, 0x0, []⟩,
  ⟨0x110020, 0x0, 1, 0x0, 1, 0x0, 0xfffff8, 0x0, 0x0, 0x0, 0x0, []⟩,
  ⟨0x110028, 0x0, 1, 0x0, 1, 0x0, 0xffffffff, 0x0, 0x0, 0x0, 0x0, []⟩,
  ⟨0x11002c, 0x0, 1, 0x0, 1, 0x0, 0xffffffff, 0x0, 0x0, 0x0, 0x0, []⟩,
  ⟨0x110030, 0x0, 1, 0x0, 1, 0x0, 0x0, 0x0, 0x0, 0x0, 0x11, []⟩,
  ⟨0x110038, 0x0, 1, 0x0, 1, 0x0, 0x0, 0x0, 0x0, 0x0, 0x0, []⟩,
  ⟨0x11003c, 0x0, 1, 0x0, 1, 0x0, 0x0, 0x0, 0x0, 0x0, 0x0, []⟩,
  ⟨0x110100, 0x4, 8, 0x0, 1, 0x0, 0x0, 0x0, 0x0, 0x0, 0x0, []⟩]
/-- Register words of the 64 KiB block 0x0012. -/
def regWords012 : List RegWord := [
  ⟨0x120000, 0x0, 1, 0x0, 1, 0x0, 0x101, 0x0, 0x0, 0x0, 0x0, []⟩,
  ⟨0x120004, 0x0, 1, 0x0, 1, 0x0, 0x0, 0x3f, 0x0, 0x0, 0x0, []⟩,
  ⟨0x120010, 0x0, 1, 0x0, 1, 0x0, 0xffffe0, 0x0, 0x0, 0x0, 0x0, []⟩,
  ⟨0x120014, 0x0, 1, 0x0, 1, 0x0, 0xfffff, 0x0, 0x0, 0x0, 0x0, []⟩,
  ⟨0x120018, 0x0, 1, 0x0, 1, 0x0, 0x0, 0x0, 0x0, 0x0, 0x0, []⟩,
  ⟨0x12001c, 0x0, 1, 0x0, 1, 0x0, 0xffffff, 0x0, 0x0, 0x0, 0x0, []⟩,
  ⟨0x120020, 0x0, 1, 0x0, 1, 0x0, 0xf7, 0x0, 0x0, 0x0, 0x0, []⟩,
  ⟨0x120024, 0x0, 1, 0x0, 1, 0x0, 0x0, 0x0, 0x0, 0x0, 0x0, []⟩,
  ⟨0x120028, 0x0, 1, 0x0, 1, 0x0, 0x0, 0x0, 0x0, 0x0, 0x0, []⟩,
  ⟨0x120040, 0x0, 1, 0x0, 1, 0x0, 0xf137f, 0x0, 0x0, 0x0, 0x80000000, [(19, 16, 11, 15), (9, 8, 3, 3), (6, 0, 96, 127)]⟩,
  ⟨0x120044, 0x0, 1, 0x0, 1, 0x0, 0xffffffff, 0x0, 0x0, 0x0, 0x0, []⟩,
  ⟨0x120048, 0x0, 1, 0x0, 1, 0x0, 0x0, 0x0, 0x0, 0x0, 0x0, []⟩,
  ⟨0x12004c, 0x0, 1, 0x0, 1, 0x0, 0x0, 0x0, 0x0, 0x0, 0x0, []⟩,
  ⟨0x120050, 0x0, 1, 0x0, 1, 0x0, 0x731f, 0x0, 0x0, 0x0, 0x0, [(4, 0, 24, 31)]⟩,
  ⟨0x120058, 0x0, 1, 0x0, 1, 0xffffffff, 0x0, 0x0, 0x0, 0x0, 0x0, []⟩,
  ⟨0x12005c, 0x0, 1, 0x0, 1, 0xffffffff, 0x0, 0x0, 0x0, 0x0, 0x0, []⟩,
  ⟨0x120100, 0x40, 8, 0x0, 1, 0x640, 0x971fffff, 0x0, 0x0, 0x0, 0x0, [(15, 0, 0, 1599)]⟩,
  ⟨0x120104, 0x40, 8, 0x0, 1, 0x0, 0x0, 0x0, 0x0, 0x0, 0x7, []⟩,
  ⟨0x120108, 0x40, 8, 0x0, 1, 0x0, 0x0, 0xf00, 0x0, 0x0, 0x0, []⟩,
  ⟨0x12010c, 0x40, 8, 0x0, 1, 0x0, 0x781ff, 0x0, 0x0, 0x0, 0x0, []⟩,
  ⟨0x120110, 0x40, 8, 0x0, 1, 0x0, 0xffffffff, 0x0, 0x0, 0x0, 0x0, []⟩,
  ⟨0x120114, 0x40, 8, 0x0, 1, 0x0, 0xffffffff, 0x0, 0x0, 0x0, 0x0, []⟩,
  ⟨0x120118, 0x40, 8, 0x0, 1, 0x0, 0xffffffff, 0x0, 0x0, 0x0, 0x0, []⟩,
  ⟨0x12011c, 0x40, 8, 0x0, 1, 0x200000, 0xffff00ff, 0x0, 0x0, 0x0, 0x0, []⟩,
  ⟨0x120120, 0x40, 8, 0x0, 1, 0x0, 0x1fffff, 0x0, 0x0, 0x0, 0x0, []⟩,
  ⟨0x120124, 0x40, 8, 0x0, 1, 0x1, 0x7fffffff, 0x0, 0x0, 0x0, 0x0, [(15, 0, 0, 0)]⟩,
  ⟨0x120128, 0x40, 8, 0x0, 1, 0x0, 0x0, 0x0, 0x0, 0x0, 0x0, []⟩,
  ⟨0x12012c, 0x40, 8, 0x0, 1, 0x0, 0xffffe0, 0x0, 0x0, 0x0, 0x0, []⟩,
  ⟨0x121000, 0x200, 24, 0x0, 1, 0x0, 0x87000000, 0x0, 0x0, 0x0, 0x0, []⟩,
  ⟨0x121004, 0x200, 24, 0x0, 1, 0x0, 0x0, 0x700, 0x0, 0x0, 0x0, []⟩,
  ⟨0x121080, 0x200, 24, 0x4, 32, 0x4, 0x7, 0x0, 0x0, 0x0, 0x0, []⟩,
  ⟨0x121100, 0x200, 24, 0x40, 4, 0x0, 0xdffc01ff, 0x0, 0x0, 0x0, 0x0, []⟩,
  ⟨0x121104, 0x200, 24, 0x40, 4, 0x0, 0xffff, 0x0, 0x0, 0x0, 0x0, []⟩,
  ⟨0x121108, 0x200, 24, 0x40, 4, 0x0, 0xffffffff, 0x0, 0x0, 0x0, 0x0, []⟩,
  ⟨0x12110c, 0x200, 24, 0x40, 4, 0x0, 0xffffffff, 0x0, 0x0, 0x0, 0x0, []⟩,
  ⟨0x121110, 0x200, 24, 0x40, 4, 0x0, 0xffffffff, 0x0, 0x0, 0x0, 0x0, []⟩,
  ⟨0x121114, 0x200, 24, 0x40, 4, 0x0, 0xffffffff, 0x0, 0x0, 0x0, 0x0, []⟩,
  ⟨0x124000, 0x4, 96, 0x0, 1, 0x0, 0x3, 0x0, 0x0, 0x0, 0x0, [(1, 0, 3, 3)]⟩,
  ⟨0x125000, 0x20, 96, 0x8, 3, 0x400000, 0xffffff, 0x0, 0x0, 0x0, 0x0, []⟩,
  ⟨0x125004, 0x20, 96, 0x8, 3, 0x0, 0xfffff, 0x0, 0x0, 0x0, 0x0, []⟩]
/-- Register words of the 64 KiB block 0x0014. -/
def regWords014 : List RegWord := [
  ⟨0x140000, 0x0, 1, 0x0, 1, 0x0, 0x100, 0x0, 0x0, 0x0, 0x2, []⟩,
  ⟨0x140004, 0x0, 1, 0x0, 1, 0x0, 0x0, 0x1, 0x0, 0x0, 0x0, []⟩,
  ⟨0x140008, 0x0, 1, 0x0, 1, 0x0, 0x0, 0x0, 0x0, 0x0, 0x0, []⟩,
  ⟨0x14000c, 0x0, 1, 0x0, 1, 0x0, 0x0, 0x0, 0x0, 0x0, 0x0, []⟩,
  ⟨0x140100, 0x40, 32, 0x0, 1, 0x0, 0xffffffff, 0x0, 0x0, 0x0, 0x0, []⟩,
  ⟨0x140104, 0x40, 32, 0x0, 1, 0x0, 0xffffffff, 0x0, 0x0, 0x0, 0x0, []⟩,
  ⟨0x140108, 0x40, 32, 0x0, 1, 0x0, 0xffffffff, 0x0, 0x0, 0x0, 0x0, []⟩,
  ⟨0x14010c, 0x40, 32, 0x0, 1, 0x0, 0xffffffff, 0x0, 0x0, 0x0, 0x0, []⟩,
  ⟨0x140110, 0x40, 32, 0x0, 1, 0x0, 0xffffffff, 0x0, 0x0, 0x0, 0x0, []⟩,
  ⟨0x140114, 0x40, 32, 0x0, 1, 0x300, 0xfffffffe, 0x0, 0x0, 0x0, 0x0, [(7, 5, 5, 7), (4, 3, 3, 3), (2, 1, 3, 3)]⟩,
  ⟨0x140118, 0x40, 32, 0x0, 1, 0x0, 0xffffff00, 0x0, 0x0, 0x0, 0x0, [(13, 12, 3, 3)]⟩,
  ⟨0x14011c, 0x40, 32, 0x0, 1, 0x0, 0xffffffff, 0x0, 0x0, 0x0, 0x0, []⟩,
  ⟨0x140120, 0x40, 32, 0x0, 1, 0x0, 0x4, 0x0, 0x0, 0x0, 0x1b, []⟩,
  ⟨0x140124, 0x40, 32, 0x0, 1, 0x0, 0x0, 0x3c0, 0x0, 0x0, 0x0, []⟩,
  ⟨0x140128, 0x40, 32, 0x0, 1, 0x0, 0x0, 0x0, 0x0, 0x0, 0x0, []⟩,
  ⟨0x14012c, 0x40, 32, 0x0, 1, 0x0, 0x0, 0x0, 0x0, 0x0, 0x0, []⟩,
  ⟨0x140130, 0x40, 32, 0x0, 1, 0x0, 0x0, 0x0, 0x0, 0x0, 0x0, []⟩,
  ⟨0x140134, 0x40, 32, 0x0, 1, 0x0, 0x0, 0x0, 0x0, 0x0, 0x0, []⟩,
  ⟨0x140138, 0x40, 32, 0x0, 1, 0x0, 0x0, 0x0, 0x0, 0x0, 0x0, []⟩,
  ⟨0x14013c, 0x40, 32, 0x0, 1, 0x0, 0x0, 0x0, 0x0, 0x0, 0x0, []⟩]
/-- Register words of the 64 KiB block 0x0015. -/
def regWords015 : List RegWord := [
  ⟨0x150000, 0x0, 1, 0x0, 1, 0x0, 0x0, 0xb, 0x0, 0x0, 0x0, []⟩,
  ⟨0x150004, 0x0, 1, 0x0, 1, 0x0, 0x0, 0x0, 0x0, 0x0, 0x0, []⟩,
  ⟨0x150008, 0x0, 1, 0x0, 1, 0x0, 0x0, 0x80000000, 0x0, 0x0, 0x0, []⟩,
  ⟨0x15000c, 0x0, 1, 0x0, 1, 0x0, 0x3ff, 0x0, 0x0, 0x0, 0x0, []⟩,
  ⟨0x150100, 0x40, 16, 0x0, 1, 0x0, 0xffffe0ff, 0x0, 0x0, 0x0, 0x0, []⟩,
  ⟨0x150104, 0x40, 16, 0x0, 1, 0x0, 0xffffffff, 0x0, 0x0, 0x0, 0x0, []⟩,
  ⟨0x150108, 0x40, 16, 0x0, 1, 0x0, 0x7fff3fff, 0x0, 0x0, 0x0, 0x0, []⟩,
  ⟨0x15010c, 0x40, 16, 0x0, 1, 0x0, 0x0, 0x3e0, 0x0, 0x0, 0x0, []⟩,
  ⟨0x150110, 0x40, 16, 0x0, 1, 0x0, 0x0, 0x0, 0x0, 0x0, 0x7, []⟩,
  ⟨0x150118, 0x40, 16, 0x0, 1, 0x0, 0x0, 0x0, 0x0, 0x0, 0x0, []⟩,
  ⟨0x15011c, 0x40, 16, 0x0, 1, 0x0, 0x0, 0x0, 0x0, 0x0, 0x0, []⟩,
  ⟨0x150120, 0x40, 16, 0x0, 1, 0x0, 0xffffffff, 0x0, 0x0, 0x0, 0x0, []⟩,
  ⟨0x150124, 0x40, 16, 0x0, 1, 0x0, 0xffffffff, 0x0, 0x0, 0x0, 0x0, []⟩,
  ⟨0x150128, 0x40, 16, 0x0, 1, 0x0, 0xffffffff, 0x0, 0x0, 0x0, 0x0, []⟩,
  ⟨0x15012c, 0x40, 16, 0x0, 1, 0x0, 0xffffffff, 0x0, 0x0, 0x0, 0x0, []⟩,
  ⟨0x150130, 0x40, 16, 0x0, 1, 0x0, 0x0, 0x0, 0x0, 0x0, 0x0, []⟩,
  ⟨0x150134, 0x40, 16, 0x0, 1, 0x0, 0x0, 0x0, 0x0, 0x0, 0x0, []⟩,
  ⟨0x150800, 0x4, 32, 0x0, 1, 0x0, 0x8003f0ff, 0x0, 0x0, 0x0, 0x0, []⟩]
/-- Register words of the 64 KiB block 0x0016. -/
def regWords016 : List RegWord := [
  ⟨0x160000, 0x100, 2, 0x0, 1, 0x4, 0x7, 0x0, 0x0, 0x0, 0x0, []⟩,
  ⟨0x160004, 0x100, 2, 0x0, 1, 0x0, 0x0, 0x41, 0x0, 0x0, 0x0, []⟩,
  ⟨0x160008, 0x100, 2, 0x0, 1, 0x0, 0xffffffff, 0x0, 0x0, 0x0, 0x0, []⟩,
  ⟨0x16000c, 0x100, 2, 0x0, 1, 0x0, 0xffff, 0x0, 0x0, 0x0, 0x0, []⟩,
  ⟨0x160010, 0x100, 2, 0x0, 1, 0x0, 0x7ff, 0x0, 0x0, 0x0, 0x80000000, []⟩,
  ⟨0x160014, 0x100, 2, 0x0, 1, 0x0, 0x0, 0x0, 0x0, 0x0, 0x0, []⟩,
  ⟨0x160018, 0x100, 2, 0x0, 1, 0xffffffff, 0x0, 0x0, 0x0, 0x0, 0x0, []⟩,
  ⟨0x16001c, 0x100, 2, 0x0, 1, 0xffffffff, 0x0, 0x0, 0x0, 0x0, 0x0, []⟩,
  ⟨0x160020, 0x100, 2, 0x0, 1, 0x0, 0x0, 0x0, 0x0, 0x0, 0x1, []⟩,
  ⟨0x161000, 0x1000, 2, 0x4, 384, 0x0, 0xffffffff, 0x0, 0x0, 0x0, 0x0, []⟩,
  ⟨0x161800, 0x1000, 2, 0x4, 384, 0x0, 0x0, 0x0, 0x0, 0x0, 0x0, []⟩,
  ⟨0x160204, 0x0, 1, 0x0, 1, 0x0, 0x0, 0x0, 0x0, 0x0, 0xffffffff, []⟩,
  ⟨0x160208, 0x0, 1, 0x0, 1, 0x400200, 0xffffffff, 0x0, 0x0, 0x0, 0x0, []⟩,
  ⟨0x16020c, 0x0, 1, 0x0, 1, 0x0, 0xffffffff, 0x0, 0x0, 0x0, 0x0, []⟩,
  ⟨0x160210, 0x0, 1, 0x0, 1, 0xffffffff, 0x0, 0x0, 0x0, 0x0, 0x0, []⟩,
  ⟨0x160214, 0x0, 1, 0x0, 1, 0xffffffff, 0x0, 0x0, 0x0, 0x0, 0x0, []⟩,
  ⟨0x160218, 0x0, 1, 0x0, 1, 0x0, 0x0, 0x0, 0x0, 0x0, 0x0, []⟩,
  ⟨0x160400, 0x40, 8, 0x0, 1, 0x0, 0xffe0ffff, 0x0, 0x0, 0x0, 0x0, []⟩,
  ⟨0x160408, 0x40, 8, 0x0, 1, 0x0, 0xffffffff, 0x0, 0x0, 0x0, 0x0, []⟩,
  ⟨0x16040c, 0x40, 8, 0x0, 1, 0x0, 0xffff, 0x0, 0x0, 0x0, 0x0, []⟩,
  ⟨0x160410, 0x40, 8, 0x0, 1, 0x0, 0xffffffff, 0x0, 0x0, 0x0, 0x0, []⟩,
  ⟨0x160414, 0x40, 8, 0x0, 1, 0x0, 0xffffffff, 0x0, 0x0, 0x0, 0x0, []⟩,
  ⟨0x160418, 0x40, 8, 0x0, 1, 0x0, 0xffffffff, 0x0, 0x0, 0x0, 0x0, []⟩,
  ⟨0x16041c, 0x40, 8, 0x0, 1, 0x40, 0xfffffcff, 0x0, 0x0, 0x0, 0x0, []⟩,
  ⟨0x160420, 0x40, 8, 0x0, 1, 0x64, 0xfff, 0x1000, 0x0, 0x0, 0x0, []⟩]
/-- Register words of the 64 KiB block 0x0017. -/
def regWords017 : List RegWord := [
  ⟨0x170000, 0x0, 1, 0x0, 1, 0x1000, 0xff01, 0x0, 0x0, 0x0, 0x0, []⟩,
  ⟨0x170004, 0x0, 1, 0x0, 1, 0x0, 0x0, 0x3, 0x0, 0x0, 0x0, []⟩,
  ⟨0x170008, 0x0, 1, 0x0, 1, 0x0, 0x0, 0x80000000, 0x0, 0x0, 0x0, []⟩,
  ⟨0x17000c, 0x0, 1, 0x0, 1, 0x0, 0x0, 0x0, 0x0, 0x0, 0x3ff, []⟩,
  ⟨0x170010, 0x0, 1, 0x0, 1, 0x80000000, 0x0, 0x0, 0x0, 0x0, 0x0, []⟩,
  ⟨0x170100, 0x4, 35, 0x0, 1, 0x80000000, 0x0, 0x0, 0x0, 0x0, 0x0, []⟩,
  ⟨0x170200, 0x4, 32, 0x0, 1, 0x0, 0x0, 0xffffffff, 0x0, 0x0, 0x0, []⟩,
  ⟨0x170300, 0x4, 32, 0x0, 1, 0x0, 0x0, 0x0, 0x0, 0x0, 0x0, []⟩,
  ⟨0x171000, 0x4, 1024, 0x0, 1, 0x0, 0xc000003f, 0x0, 0x0, 0x0, 0x0, [(5, 0, 35, 63)]⟩]
/-- Register words of the 64 KiB block 0x001a. -/
def regWords01a : List RegWord := [
  ⟨0x1a0000, 0x0, 1, 0x0, 1, 0x0, 0x3, 0x0, 0x0, 0x0, 0x0, []⟩,
  ⟨0x1a0004, 0x0, 1, 0x0, 1, 0x0, 0x0, 0x80, 0x0, 0x0, 0x0, []⟩,
  ⟨0x1a0008, 0x0, 1, 0x0, 1, 0x1, 0xf, 0x0, 0x0, 0x0, 0x0, []⟩,
  ⟨0x1a000c, 0x0, 1, 0x0, 1, 0x0, 0xffffffff, 0x0, 0x0, 0x0, 0x0, []⟩]
/-- Register words of the 64 KiB block 0x0018. -/
def regWords018 : List RegWord := [
  ⟨0x180000, 0x0, 1, 0x0, 1, 0x0, 0x101, 0x0, 0x0, 0x0, 0xc, []⟩,
  ⟨0x180004, 0x0, 1, 0x0, 1, 0x0, 0x0, 0x1f8, 0x0, 0x0, 0x0, []⟩,
  ⟨0x180008, 0x0, 1, 0x0, 1, 0x0, 0x0, 0x0, 0x0, 0x0, 0x0, []⟩,
  ⟨0x18000c, 0x0, 1, 0x0, 1, 0x0, 0x0, 0x0, 0x0, 0x0, 0x0, []⟩,
  ⟨0x180010, 0x0, 1, 0x0, 1, 0x0, 0x0, 0x0, 0x0, 0x0, 0x0, []⟩,
  ⟨0x180014, 0x0, 1, 0x0, 1, 0x500220, 0xffffffff, 0x0, 0x0, 0x0, 0x0, []⟩,
  ⟨0x180020, 0x0, 1, 0x0, 1, 0x0, 0xffffffff, 0x0, 0x0, 0x0, 0x0, []⟩,
  ⟨0x180024, 0x0, 1, 0x0, 1, 0x0, 0xffffffff, 0x0, 0x0, 0x0, 0x0, []⟩,
  ⟨0x180100, 0x8, 64, 0x0, 1, 0x0, 0xffffffff, 0x0, 0x0, 0x0, 0x0, []⟩,
  ⟨0x180104, 0x8, 64, 0x0, 1, 0x0, 0xffffffff, 0x0, 0x0, 0x0, 0x0, []⟩,
  ⟨0x180400, 0x4, 64, 0x0, 1, 0x0, 0x0, 0x0, 0x0, 0x0, 0x0, []⟩,
  ⟨0x180800, 0x40, 4, 0x0, 1, 0x1, 0xffff0001, 0x0, 0x0, 0x0, 0x0, []⟩,
  ⟨0x180804, 0x40, 4, 0x0, 1, 0x0, 0x0, 0x300, 0x0, 0x0, 0x0, []⟩,
  ⟨0x180808, 0x40, 4, 0x0, 1, 0x0, 0x0, 0x0, 0x0, 0x0, 0x0, []⟩,
  ⟨0x18080c, 0x40, 4, 0x0, 1, 0x0, 0x0, 0x0, 0x0, 0x0, 0x0, []⟩,
  ⟨0x180810, 0x40, 4, 0x0, 1, 0x0, 0x0, 0x0, 0x0, 0x0, 0x0, []⟩,
  ⟨0x180c00, 0x10, 4, 0x0, 1, 0x0, 0x0, 0x0, 0x0, 0x0, 0x0, []⟩,
   ⟨0x180c04, 0x10, 4, 0, 0, 0, 0x80000000, 0, 0, 0, 0, []⟩,
  ⟨0x180c08, 0x10, 4, 0x0, 1, 0x0, 0x0, 0x0, 0x0, 0x0, 0x0, []⟩,
  ⟨0x180c0c, 0x10, 4, 0x0, 1, 0x0, 0x0, 0x0, 0x0, 0x0, 0x0, []⟩,
  ⟨0x180d00, 0x10, 4, 0x0, 1, 0x0, 0x80003f03, 0x0, 0x0, 0x0, 0x0, []⟩,
  ⟨0x180d04, 0x10, 4, 0x0, 1, 0x0, 0x0, 0x2, 0x0, 0x0, 0x0, []⟩,
  ⟨0x180e00, 0x0, 1, 0x0, 1, 0x0, 0xffffe0, 0x0, 0x0, 0x0, 0x0, []⟩,
  ⟨0x180e04, 0x0, 1, 0x0, 1, 0x0, 0xffff, 0x0, 0x0, 0x0, 0x0, []⟩,
  ⟨0x180e08, 0x0, 1, 0x0, 1, 0x0, 0xfffff8, 0x0, 0x0, 0x0, 0x0, []⟩,
  ⟨0x180e0c, 0x0, 1, 0x0, 1, 0x0, 0x1, 0x0, 0x0, 0x0, 0x0, []⟩,
  ⟨0x180e10, 0x0, 1, 0x0, 1, 0x0, 0xffffe0, 0x0, 0x0, 0x0, 0x0, []⟩,
  ⟨0x180e14, 0x0, 1, 0x0, 1, 0x0, 0xffff, 0x0, 0x0, 0x0, 0x0, []⟩,
  ⟨0x180e18, 0x0, 1, 0x0, 1, 0x0, 0x1, 0x0, 0x0, 0x0, 0x0, []⟩,
  ⟨0x180e1c, 0x0, 1, 0x0, 1, 0x0, 0x0, 0x0, 0x0, 0x0, 0x0, []⟩,
  ⟨0x180f00, 0x0, 1, 0x0, 1, 0x0, 0x0, 0x0, 0x0, 0x0, 0x0, []⟩]
/-- Register words of the 64 KiB block 0x0019. -/
def regWords019 : List RegWord := [
  ⟨0x190000, 0x0, 1, 0x0, 1, 0x0, 0x0, 0x1ff, 0x0, 0x0, 0x0, []⟩,
  ⟨0x190004, 0x0, 1, 0x0, 1, 0x0, 0xffff7f, 0x0, 0x0, 0x0, 0x80000000, []⟩,
  ⟨0x190008, 0x0, 1, 0x0, 1, 0x0, 0x0, 0x80000000, 0x0, 0x0, 0x0, []⟩,
  ⟨0x190100, 0x4, 64, 0x0, 1, 0x0, 0xffffffff, 0x0, 0x0, 0x0, 0x0, []⟩,
  ⟨0x190200, 0x4, 9, 0x0, 1, 0x0, 0x0, 0x0, 0x0, 0x0, 0x0, []⟩,
  ⟨0x190240, 0x0, 1, 0x0, 1, 0x0, 0xffffffff, 0x0, 0x0, 0x0, 0x0, []⟩,
  ⟨0x190280, 0x4, 10, 0x0, 1, 0x0, 0x0, 0x0, 0x0, 0x0, 0x0, []⟩,
  ⟨0x1902c0, 0x4, 10, 0x0, 1, 0x0, 0xffffffff, 0x0, 0x0, 0x0, 0x0, []⟩,
  ⟨0x190300, 0x4, 8, 0x0, 1, 0x0, 0x0, 0x0, 0x0, 0x0, 0x0, []⟩,
  ⟨0x190320, 0x0, 1, 0x0, 1, 0x0, 0x0, 0x0, 0x0, 0x0, 0x0, []⟩,
  ⟨0x190400, 0x0, 1, 0x0, 1, 0x0, 0x0, 0xe, 0x0, 0x0, 0x0, []⟩,
  ⟨0x190408, 0x0, 1, 0x0, 1, 0x0, 0x0, 0x0, 0x0, 0x0, 0x0, []⟩,
  ⟨0x19040c, 0x0, 1, 0x0, 1, 0x0, 0x0, 0x0, 0x0, 0x0, 0x0, []⟩,
  ⟨0x190410, 0x0, 1, 0x0, 1, 0x1, 0x0, 0x0, 0x0, 0x0, 0x4, []⟩]
/-- Register words of the 64 KiB block 0x001b. -/
def regWords01b : List RegWord := [
  ⟨0x1b0000, 0x0, 1, 0x0, 1, 0x0, 0x0, 0x1ffffff, 0x0, 0x0, 0x0, []⟩,
  ⟨0x1b0004, 0x0, 1, 0x0, 1, 0x0, 0x0, 0x80000000, 0x0, 0x0, 0x0, []⟩,
  ⟨0x1b0008, 0x0, 1, 0x0, 1, 0xffffffff, 0x0, 0x0, 0x0, 0x0, 0x0, []⟩,
  ⟨0x1b000c, 0x0, 1, 0x0, 1, 0xffffffff, 0x0, 0x0, 0x0, 0x0, 0x0, []⟩,
  ⟨0x1b0010, 0x0, 1, 0x0, 1, 0x110000, 0x0, 0x200, 0x0, 0x0, 0x0, []⟩,
  ⟨0x1b0014, 0x0, 1, 0x0, 1, 0x0, 0x0, 0x0, 0x0, 0x0, 0x0, []⟩,
  ⟨0x1b0018, 0x0, 1, 0x0, 1, 0x0, 0x0, 0x0, 0x0, 0x0, 0x0, []⟩]

/-- The register words of the block that holds offset `off`. -/
def regWordsOf (off : Nat) : List RegWord :=
  match off / 0x10000 with
  | 0x1c => regWords01c
  | 0x1 => regWords001
  | 0x0 => regWords000
  | 0x2 => regWords002
  | 0x4 => regWords004
  | 0x6 => regWords006
  | 0x8 => regWords008
  | 0x10 => regWords010
  | 0x11 => regWords011
  | 0x12 => regWords012
  | 0x14 => regWords014
  | 0x15 => regWords015
  | 0x16 => regWords016
  | 0x17 => regWords017
  | 0x1a => regWords01a
  | 0x18 => regWords018
  | 0x19 => regWords019
  | 0x1b => regWords01b
  | _ => []

/-- Whether `off` is one of the copies of `r`. -/
def RegWord.covers (r : RegWord) (off : Nat) : Bool :=
  r.base ≤ off &&
  (let x := off - r.base
   if r.s1 = 0 then x = 0
   else if r.s2 = 0 then x % r.s1 = 0 && x / r.s1 < r.n1
   else x % r.s1 % r.s2 = 0 && x % r.s1 / r.s2 < r.n2 && x / r.s1 < r.n1)

/-- The register word at `off`, if the spec lists one. -/
def regWordAt (off : Nat) : Option RegWord := (regWordsOf off).find? (·.covers off)

/-- Reset values that differ between the copies of one register: an engine's quad and the reserve's role (ENG_STATe),
a source's kind (IC_SRCn, R332), and IC_TOP reading none. -/
def resetOwn (off : Nat) : Nat :=
  if 0x080100 ≤ off ∧ off < 0x080210 ∧ off % 16 = 0 then
    (if off = 0x080200 then 1 <<< 24 else ((off - 0x080100) / 64) <<< 16)
  else if 0x171800 ≤ off ∧ off < 0x171B80 ∧ off % 4 = 0 then 1 <<< 29
  else 0

/-- The reset value of the register word at `off`; an offset with no register reads 0 (R9). -/
def resetWord (off : Nat) : Word :=
  match regWordAt off with
  | some r => BitVec.ofNat 32 (r.reset ||| resetOwn off)
  | none => 0

end Sys2Proof.Machine
end

