-- ==== Sys2Proof/Config.lean ====
section
/-!
DEFINITION. What the spec leaves free: constants without a body, so that nothing can be proved of their values.
-/
namespace Sys2Proof.Config
open Sys2Proof

/-- Free values: `freeValue w n` is the n-th value the part produces where the spec fixes none (a counter in State
supplies n). Log entry 5. -/
opaque freeValue : (w : Nat) → Nat → BitVec w

/-- The entry of the legacy dispatch table (R227) that decodes a legacy word: the opcode of the legacy encoding, which is not part of the
spec. Log entry 42. -/
opaque legacyOpcode : Word → BitVec 8

/-- A legacy instruction word, the eight registers it can read, and Z, N, C and V: what it is under R195–R197 with the outcome that the
reference manual of its Jengor member gives it, which is not part of the spec; none: the manual gives it none. Log entry 42. -/
opaque legacyDecode : Word → List Word → BitVec 4 → Option LegacyOp

/-- The level of a facet's pad in a timebase cycle in which nothing drives it and its pull is off. Log entry 44. -/
opaque floatingPad : Fin 256 → Nat → Bool

/-- The unique device identity the OTP holds (R412, SLO_UID). -/
opaque deviceUid : Dword

/-! The standards that the images and the debug unlock rest on (R407, R412–R417) are not part of the spec: the functions below stand for
them without a body (log entry 40). -/

/-- SHA-256. -/
opaque sha256 : List Byte → List Byte
/-- ECDSA P-256: key, digest, signature. -/
opaque ecdsaVerify : List Byte → List Byte → List Byte → Bool
/-- AES-256-GCM: key, nonce, associated data, ciphertext, tag; the plaintext if the tag matches. -/
opaque gcmOpen : List Byte → List Byte → List Byte → List Byte → List Byte → Option (List Byte)
/-- The vendor public key in the ROM. -/
opaque vendorKey : List Byte
/-- The customer public key whose SHA-256 an OTP slot holds (R417 names the slot, which holds only the hash). -/
opaque customerKey : List Byte → List Byte
/-- The version that a firmware image and a microcode image carry; the spec does not say where. -/
opaque fwVersion : List Byte → Word
opaque ucodeVersion : List Byte → Word
/-- Grade of the part and Subsystem IDs in the OTP (R381, R412). -/
opaque grade : BitVec 2
opaque subsystem : Word

end Sys2Proof.Config
end

