-- ==== Sys2Proof/Machine/State.lean ====
section
/-!
DEFINITION. The state of the block as plain data: the register words of BAR0 in one sparse store, and beside them, block
by block, what no register shows (queues, latches, buffers, running routines, memories). A value that a register
shows and only the register needs lives in its register word alone. `State.reset` is the machine right after RESET_N.
-/
namespace Sys2Proof.Machine
open Sys2Proof

/-- The device's faults: conditions in which the part stops. The spec gives the part none: every condition it names is
reported in a register and the part goes on. -/
inductive Fault where
  /-- A word of the control stores or of a memory could not be read because the modelled address space ends there.
  Nothing in the model raises it; it is safe, since a run that ends proves nothing. -/
  | outsideMemory (address : Nat)
  deriving DecidableEq, Repr

/-- Why a command is turned away. -/
inductive Refusal where
  /-- No meaning has been written for the command; safe. -/
  | notModelled (mnemonic : String)
  deriving DecidableEq, Repr

/-- An edge that reaches the Assayer on its private path (R403): the class, code, source and data of the Ledger entry it
asks for (R405), and the GTB of the event. -/
structure AsyEdge where
  cls : BitVec 8
  code : BitVec 16
  source : BitVec 16
  data : Dword
  time : Time
  deriving DecidableEq, Repr

/-! ### Timebase (spec/02) -/

/-- Global Timebase: the count (R33), this cycle's increment (R63), the slew accumulator (R38), the count of
timebase-clock cycles, whether this cycle is a Tally boundary and whether its accounting has been done (R39), the AON
elapsed counter (R40), and the value that GTB steps to in the next cycle, with the cause (R35). -/
structure TimeBase where
  gtb : Time
  inc : Nat
  acc : Dword
  cyc : Nat
  boundary : Bool
  boundaryDone : Bool
  aon : BitVec 32
  load : Option (Time × Nat)
  deriving DecidableEq, Repr

/-- An outstanding GBL_GO_AT request (R57): mask, Tally, originating node when armed from the fabric (R58), and
whether it was armed with fabric = 1. -/
structure GoAtReq where
  mask : Word
  tally : Nat
  remote : Option (Fin 64)
  fabric : Bool
  deriving DecidableEq, Repr

/-- A batch waiting for its Tally (R27). -/
structure PendingBatch where
  tally : Nat
  entries : List (Nat × Word)
  deriving DecidableEq, Repr

/-- Host batch buffers (spec/01): the fill buffer, its overflow condition, the pending batch. -/
structure HostBatch where
  fill : List (Nat × Word)
  overflow : Bool
  pend : Option PendingBatch
  deriving DecidableEq, Repr

/-! ### Counters (spec/02) -/

/-- One compare (R48–R50): the armed value with its late mark, and what takes effect from the next cycle: nothing,
disarm (`some none`), or arm a value (`some (some v)`). -/
structure Compare where
  cur : Option (Word × Bool)
  nxt : Option (Option Word)
  deriving DecidableEq, Repr

/-- An entry of a counter's capture queue (R53). -/
structure CntCapture where
  count : Word
  time : Time
  deriving DecidableEq, Repr

/-- What a counter keeps beside its registers: compares, capture queue, the times of the captures of this cycle (R53, R54), CNT_CTRL as it stood at the end of the cycle
before (R45), cycles since the divider restarted, the running angle last counted (R44), and whether COUNTER has been
raised in this cycle (R51). -/
structure Counter where
  cmp : Vector Compare 4
  caps : List CntCapture
  fresh : List Time
  ctlPrev : Word
  divPhase : Nat
  theta : Option Nat
  raised : Bool
  deriving DecidableEq, Repr

/-- A counter pin action that falls at phase 0 of the next cycle (R51): counter, compare, facet, action. -/
structure PinAction where
  counter : Fin 32
  compare : Fin 4
  facet : Fin 256
  act : BitVec 2
  deriving DecidableEq, Repr

/-! ### Facets (spec/03) -/

/-- An entry of the armed queue (R61), with the draft it comes from (domain, entry) and whether a compare unit has held it
since the start of this cycle, so that it is tested in this cycle (R62, R66). -/
structure Armed where
  time : Time
  act : BitVec 2
  drop : Bool
  tag : Byte
  notify : Bool
  origin : Option (Fin 8 × Fin 256)
  inUnit : Bool
  deriving DecidableEq, Repr

/-- An entry of a capture queue (R83): time and polarity, true for rising. -/
structure Capture where
  time : Time
  rising : Bool
  deriving DecidableEq, Repr

/-- A transition that has passed the glitch filter and is on its way to acceptance in cycle `due` (R76); a silent one
sets the first level after mode 0 (R464); `cyc` is the cycle of the transition. -/
structure Flight where
  level : Bool
  time : Time
  due : Nat
  silent : Bool
  cyc : Nat
  deriving DecidableEq, Repr

/-- A run of samples at a new level (R77): the time and the cycle in which it began, and its length so far. -/
structure FilterRun where
  time : Time
  cyc : Nat
  len : Nat
  deriving DecidableEq, Repr

/-- The input path shared by facets and WHL inputs (R76–R81, R92): the level sampled last, the first transition of this
cycle, the filter, the transitions in flight, the last three samples, the accepted level, the edge-rate limiter, the
stuck detector (whether the accepted level has been one since the first cycle of this Tally), whether the path has just come out of mode 0
(R464), and the cycles in which the sampled level changed with the level taken, newest first (R108). -/
structure InPath where
  sampled : Bool
  first : Option Time
  fl : Bool
  run : Option FilterRun
  flight : List Flight
  pipe : List Bool
  filt : Bool
  limTally : Nat
  limCount : Nat
  muteNow : Bool
  muteLatched : Bool
  muteUntil : Nat
  stuckCount : Nat
  stuckWhole : Bool
  stuckFired : Bool
  starting : Bool
  past : List (Nat × Bool)
  deriving DecidableEq, Repr

/-- A facet beside its registers: armed queue, places freed only from the next cycle (R69), LATE_FIRE entries that found
the queue full and act in this cycle or the next (R68), output register, own hold, whether it was held at the start of
this cycle (R72), whether it was in mode 2 or 3 then (R465), a purge due at the end of this cycle (R465), changes of the output register in
this cycle with their times (R64), the level the outside drives if it drives one, what it drove before each of its changes in this cycle, with
their times (R78), the input path, the capture queue, the captures of this cycle, which are appended
after every removal of it (R86), and the level latched for Deep Park. -/
structure Facet where
  queue : List Armed
  freed : Nat
  lateNow : List Armed
  lateNext : List Armed
  out : Bool
  hold : Bool
  frozen : Bool
  wasOut : Bool
  purge : Bool
  edges : List (Time × Bool)
  ext : Option Bool
  moves : List (Time × Option Bool)
  inp : InPath
  caps : List Capture
  fresh : List Capture
  latched : BitVec 2
  deriving DecidableEq, Repr

/-! ### Wheel inputs and the Bezel (spec/04, spec/05) -/

/-- A WHL input beside its registers (R91): the signal in mV, whether it has armed since the last timing edge, the largest magnitude since
then (none before the first timing edge), the time since which it has stood above 2 V, the digital level, its input path, and the Tally of the last
timing edge. -/
structure Wheel where
  volts : Int
  armed : Bool
  top : Option Nat
  dcFrom : Option Time
  ext : Bool
  inp : InPath
  peakTally : Nat
  deriving DecidableEq, Repr

/-- An accepted primary edge waiting for its decision: time, and whether it is a reverse edge, unknown until the
trailing edge of dir_mode 1 (R108). -/
structure PriEdge where
  time : Time
  reverse : Option Bool
  deriving DecidableEq, Repr

/-- An accepted edge of a secondary wheel waiting for its decision (R114). -/
structure SecEdge where
  wheel : Fin 4
  time : Time
  rising : Bool
  deriving DecidableEq, Repr

/-- Statuses of a draft (R122). -/
inductive DraftStatus where
  | free | draft | armed | done | lateDone | dropped | withdrawn | cancelled
  deriving DecidableEq, Repr

/-- A draft entry (R121): its fields, status and reason, the target's running angle (R124), the projected or armed time
(R125), and the recorded time of the opening edge of its pair (R131). -/
structure Draft where
  spec : DraftSpec
  status : DraftStatus
  reason : BitVec 4
  target : Nat
  time : Time
  tO : Option Time
  deriving DecidableEq, Repr

/-- The predictor of R120: ql and q0 and qn in Q32.32, s in Q16.48, dn in 1/16 au. -/
structure Predictor where
  q0 : Int
  qn : Int
  s : Int
  dn : Nat
  p : Nat
  deriving DecidableEq, Repr

/-- An accepted edge the predictor holds: running angle and time (R118, R120). -/
structure EdgePoint where
  theta : Nat
  time : Time
  deriving DecidableEq, Repr

/-- The search for the reference gap of SEEK, and in the background of LIMP_CAM (R103, R106): the previous edge, the
previous interval and the count; in the background also the edges since a slot 0, as running angles counted from it, the
slot of the last one and how many have been confirmed. -/
structure Search where
  last : Option Time
  tPrev : Option Nat
  count : Nat
  slot : Option Nat
  hist : List EdgePoint
  since : Nat
  deriving DecidableEq, Repr

/-- Tooth-map learning (R111): start of the running revolution, the edges seen in it as (slot, time), whether the domain
has been in SYNC throughout, the period of the revolution before, the accumulators, the revolutions counted, and whether
mode 1 has finished. -/
structure MapLearn where
  start : Option Time
  edges : List (Nat × Time)
  whole : Bool
  prev : Option Nat
  acc : Sparse Int
  count : Nat
  stopped : Bool
  deriving DecidableEq, Repr

/-- The limp watch of R107: whether it runs, the last wheel-0 edge, the interval before it, and whether that edge is the
candidate sync edge. -/
structure LimpWatch where
  on : Bool
  last : Option Time
  interval : Option Nat
  cand : Bool
  deriving DecidableEq, Repr

/-- The settings that a domain takes over at an edge decision (R96): the words of BZL_WIN_NORM, BZL_WIN_GAP, BZL_SYNC, BZL_STALL, BZL_LIMP and
BZL_BIND as the last edge decision found them. -/
structure DomCfg where
  winNorm : Word
  winGap : Word
  sync : Word
  stall : Word
  limp : Word
  bind : Word
  deriving DecidableEq, Repr

/-- An angle domain beside its registers: tables, written and applied maps with what is to be applied at the next slot 0,
waiting edges, the search, slot and revolution, what a GAP_FOUND candidate still needs, the last interval with the angle it
spanned, the accepted edges the predictor holds with the intervals since Θ was set, the predictor, cam tracking, the last
two matched wheel-0 edges as (entry, time), limp state, time of the last accepted primary edge and the Tally its absence is
counted from, the drafts, for a mirror: cells waiting, the time of the last one, its cycle and sequence number, the last
received edge, whether Θ is to be set and whether the next edge starts a new history; the running angles of the edges ahead (R126), and the
registers a read of BZL_EDGE_TIME has latched and that have not been read since (R466); the settings in force (R96); and the entries armed in this
cycle with whether entries due at the last edge still wait for theirs (R126). -/
structure Domain where
  pri : Sparse Word
  sec : Sparse Word
  mapW : Sparse Int
  mapA : Sparse Int
  mapPending : Option Bool
  mapInstall : Option (Sparse Int)
  priIn : List PriEdge
  secIn : List SecEdge
  search : Search
  syncArmed : Bool
  slot : Nat
  rev : Bool
  revKnown : Bool
  gapCross : Nat
  retained : Bool
  confirm : Nat
  lastInt : Option (Nat × Nat)
  hist : List EdgePoint
  intervals : Nat
  pred : Option Predictor
  camRun : Nat
  phases : Vector (List Int) 4
  camSeen : Bool
  cam0 : List (Nat × Time)
  phiF : Int
  limpIdx : Nat
  lastPri : Option Time
  watchFrom : Nat
  stuckSeen : Bool
  back : Search
  watch : LimpWatch
  learn : MapLearn
  drafts : Vector Draft 256
  cells : List ToothCell
  lastCell : Option Time
  mirCycle : Bool
  mirSeq : Option (BitVec 6)
  real : Option EdgePoint
  ahead : List Nat
  fresh : Bool
  restart : Bool
  latched : List Nat
  cfg : DomCfg
  armed : Nat
  arming : Bool
  deriving DecidableEq, Repr


/-! ### Channels and engines (spec/06, spec/07) -/

/-- A channel context (R142). -/
structure Context where
  v : Vector Dword 16
  pc : BitVec 16
  flags : BitVec 6
  adom : BitVec 3
  persona : Bool
  cls : BitVec 2
  budget : BitVec 11
  bind : BitVec 9
  wake : Time
  deriving DecidableEq, Repr

/-- Staged effects of a routine (R158), in staging order. -/
inductive Effect where
  /-- Plain store of bytes at an address (R185). -/
  | store (addr : Nat) (bytes : List Byte)
  /-- Posted atomic (R186): swap or add of a doubleword. -/
  | atomic (addr : Nat) (swap : Bool) (v : Dword)
  | sched (n : Fin 256) (x : ArmSpec)
  | cancel (n : Fin 256) (tag : Byte)
  | flush (n : Fin 256)
  | safe (n : Fin 256)
  | release (n : Fin 256)
  | cmpWrite (n : Fin 32) (k : Fin 4) (v : Word)
  | cmpDisarm (n : Fin 32) (k : Fin 4)
  | draftWrite (d : Fin 8) (i : Fin 256) (x : DraftSpec)
  | draftCancel (d : Fin 8) (i : Fin 256)
  | draftFree (d : Fin 8) (i : Fin 256)
  | conv (g : Fin 8) (time : Option Time) (tag : Byte)
  | convu (c : Fin 24) (input : BitVec 2) (addr : BitVec 24)
  | rwin (c : Fin 24) (r : Fin 4) (start stop : Dword)
  | note (stream : Fin 16) (type : Byte) (time : Time) (a b : Dword)
  /-- Seal of a stream (R225): trigger time, or none for the commit point's cycle. -/
  | seal (stream : Fin 16) (time : Option Time)
  | post (ch : Fin 512)
  | rpost (node : BitVec 6) (ch : Fin 512)
  /-- Remote event (R226): to one node, or to every node. -/
  | revt (node : Option (BitVec 6)) (m : BitVec 5)
  | trig (t : BitVec 5)
  deriving DecidableEq, Repr

/-- What takes the bytes of an immediate access (R184, R237): a register; the registers from v8 on; VD alone. -/
inductive LoadTo where
  | reg (d : Fin 16)
  | line
  | vd
  deriving DecidableEq, Repr

/-- An immediate Vault access that an engine has outstanding (R185, R186, R258): its first byte and its size; for a fetch-and-op, swap or
add and the operand; the bytes of the lines already granted; what takes the value; the cycles the instruction or micro-word costs beside its
waits; the pc after it; and the GTB of its issue. -/
structure Access where
  addr : Nat
  size : Nat
  atomic : Option (Bool × Dword)
  got : List Byte
  into : LoadTo
  cost : Nat
  pc : BitVec 16
  time : Time
  deriving DecidableEq, Repr

/-- The micro-state of a running Mint instruction (R232, R237, R240): its word, the address of the micro-word that comes next, the
temporaries, lc, VD with the engine cycle from which it is valid, the micro-stack and a pending pc change. -/
structure Micro where
  w : Word
  u : BitVec 13
  t : Vector Dword 8
  lc : Byte
  vd : Dword
  vdAt : Nat
  stack : List (BitVec 13)
  pend : Option (BitVec 16)
  deriving DecidableEq, Repr

/-- A micro-trap's saved micro-state is in MNT_TSAVE; a routine beside it keeps: its channel, its copy of the context
(R143), the context as committed at dispatch, which MFS reads, and the one a commit writes back with its MTS values (R172), the causes taken (R145), the budget
count of the cycle in which the next instruction issues (R153) and the budget it runs with, the engine cycle in which
that cycle lies (while the routine is preempted, the cycles to go), the staging buffer (R159), capture reads marked for removal (R205, R208), whether it is a replay, the Vault access it waits for, and
the micro-state of the Mint instruction it is in. -/
structure Routine where
  ch : Fin 512
  v : Vector Dword 16
  pc : BitVec 16
  flags : BitVec 6
  ctx : Context
  wb : Context
  cause : BitVec 19
  count : Nat
  budget : Nat
  issueAt : Nat
  stage : List Effect
  reads : List (CapQueue × Nat)
  replay : Bool
  acc : Option Access
  micro : Option Micro
  deriving DecidableEq, Repr

/-- An engine: the routines at trap levels 0 and 1 (R156), the first engine cycle in which a repair or a restore no longer holds the trap
level (R157, R243), and the urgent channel for which its routine has been chosen as the victim, with the engine cycle of the choice (R155). -/
structure Engine where
  l0 : Option Routine
  l1 : Option Routine
  busyTo : Nat
  sel : Option (Fin 512 × Nat)
  deriving DecidableEq, Repr

/-- What ends a routine: its next pc; for WAIT the wake time and the subscription; for YIELD the causes raised again. -/
structure Ending where
  pc : BitVec 16
  wake : Option Time
  sub : Option (Option Byte)
  again : BitVec 19
  deriving DecidableEq, Repr

/-- A commit in the commit unit (R162): its channel, the routine with its ending until step 1 has sent the write-back, the Vault writes not
yet applied, the step-3 effects, the GTB of the commit point's cycle, the causes a YIELD raises again (R191), and the channels it has
posted to (R333). -/
structure Commit where
  ch : Fin 512
  back : Option (Routine × Ending)
  vault : List Effect
  step3 : List Effect
  time : Time
  again : BitVec 19
  posted : List (Fin 512)
  deriving DecidableEq, Repr

/-- What the Teller holds for a channel outside its context: the WAIT subscription with the cycle it was made in (R190),
the causes a replay carries (R165), and its place in the replay order. -/
structure Channel where
  sub : Option (Byte × Nat)
  replayCause : BitVec 19
  replaySeq : Nat
  deriving DecidableEq, Repr

/-- Teller and engines beside their registers: per channel, per engine; contexts; program store; round-robin position
of each class (R149); the commit queue; whether a TRIG has pulsed in this cycle (R193); busy engine cycles of the running Tally (TLR_LOAD); the channels READY at the last
boundary that have not begun (R431); whether new dispatches wait for Park; engines in reintegration; one more than the engine cycle of
each quad's last dispatch; the causes that have come in this cycle for a channel in which they were pending already (R145); and the reserve on its way to a fenced
engine's quad, with the engine cycle of the fence (R423). -/
structure Teller where
  chan : Vector Channel 512
  eng : Vector Engine 17
  ctx : Vector Context 512
  prog : Sparse Word
  rr : Vector Nat 4
  commits : List Commit
  trigDone : Bool
  busy : Nat
  waiting : List (Fin 512)
  drainStop : Bool
  reint : List (Fin 17)
  dispAt : Vector Nat 4
  again : Sparse Word
  attach : Option (Fin 17 × Fin 4 × Nat)
  deriving DecidableEq, Repr

/-! ### The Vault (spec/10) -/

/-- Where the data of a queued read go: to PCIe completions, to a QSPI transaction (R390), nowhere when its CS_N has risen, to a JTAG
debugger, or to the Assayer's image buffer (R407). -/
inductive BusTo where
  | pcie | qspi | nowhere | jtag | image
  deriving DecidableEq, Repr

/-- A request that waits for the slots of its class (R254, R259): a read of `size` bytes of the Vault and of `above` more above it (R263),
with the bytes already read, each with whether its word is poisoned, and the window offset it was made at; a write of the bytes left; a host
atomic on a word (R261); an entry for the bulk receive ring, but for its lap, with the channel that gets RPOST (R373). What the check of each
line finds comes with it. -/
inductive BusReq where
  | read (addr size above : Nat) (got : List (Byte × Bool)) (eccs : List LineEcc) (off : Nat) (to' : BusTo)
  | write (addr : Nat) (bytes : List (Option Byte)) (eccs : List LineEcc)
  | atomic (word : Nat) (swap : Bool) (v : Dword)
  | entry (bytes : List Byte) (post : Option (Fin 512))
  deriving DecidableEq, Repr

/-- The Vault: bytes (an unlisted byte is 0, R267), poisoned words, words waiting for the scrubber's rewrite (R266), the
slot position of this cycle and whether its slot has been granted (R256), the last engine requester and the last pooled
class served (R257, R258), slots granted in this Tally by class, the requests that wait of the host, the Assayer and Sloulo, each first in, first out
(R259), the next line the scrubber reads, the Tally of its last read and of the start of its pass. -/
structure Vault where
  mem : Sparse Byte
  poison : Sparse Bool
  fix : List Nat
  pos : Nat
  granted : Bool
  lastEng : Nat
  lastClass : Nat
  use : Vector Nat 8
  host : List BusReq
  asy : List BusReq
  slo : List BusReq
  scrubLine : Nat
  scrubTally : Nat
  passTally : Nat
  deriving DecidableEq, Repr

/-! ### Microcode (spec/09) -/

/-- The control stores: Mint micro-words and nano-words (the engine copies equal the master image, R228), words loaded from
an encrypted image (R249), the nano-word latched for reading and the words held for a load, and each engine's trap save
area as 16 doublewords (R242); the legacy dispatch table (R227). The vendor areas stay empty until an image fills them. -/
structure Mint where
  micro : Sparse (BitVec 24)
  nano : Sparse (BitVec 128)
  encMicro : Sparse Bool
  encNano : Sparse Bool
  ndata : BitVec 128
  nhold : Vector Word 3
  tsave : Vector (Vector Dword 16) 17
  legacy : Sparse Word
  deriving DecidableEq, Repr

/-! ### Analogue acquisition (spec/11) -/

/-- A trigger of a sample group (R273, R279): kind, instant, whether late, tag, target angle. -/
structure Trig where
  kind : Fin 5
  at' : Time
  late : Bool
  tag : Byte
  angle : Word
  deriving DecidableEq, Repr

/-- A pass or a repetition of passes (R271, R272): its trigger, the cycle in which it fired, length, spacing and members
as they stood then, whether passes follow, slots sampled since slot 0 of pass 0, and conversions not yet ended. -/
structure Pass where
  trig : Trig
  cyc : Nat
  len : Nat
  spacing : Nat
  members : List (Fin 24)
  again : Bool
  next : Nat
  running : Nat
  deriving DecidableEq, Repr

/-- A sample group beside its registers: the pass, whether GTIME is armed, the fixed angle targets (time, angle), the
pending event, channel and host triggers and a late trigger due in the next cycle (R273), and the Tallies with an overrun, a
missed target or a late trigger (R279). -/
structure Group where
  pass : Option Pass
  timeArmed : Bool
  targets : List (Time × Nat)
  evt : Option Time
  chan : Option Trig
  soon : List Trig
  flagged : List Nat
  deriving DecidableEq, Repr

/-- What a conversion is for: a slot of a group, an urgent request (R220) or a calibration
sample (R277). -/
inductive ConvUse where
  | slot (g : Fin 8)
  | urgent (addr : BitVec 24) (ch : Fin 512)
  | cal
  deriving DecidableEq, Repr

/-- A running conversion (R268, R270, R276, R283): instant, multiplexer input, the range, the reference (true for VREF_EXT) and the entry
of its input at the instant, the position for each reducer, and its use. -/
structure Conversion where
  at' : Time
  input : BitVec 2
  range : Nat
  ext : Bool
  gain : Nat
  ofs : Int
  pos : Vector Dword 4
  use : ConvUse
  deriving DecidableEq, Repr

/-- A queued urgent request (R220, R275). -/
structure UrgentReq where
  input : BitVec 2
  addr : BitVec 24
  ch : Fin 512
  cyc : Nat
  deriving DecidableEq, Repr

/-- Running values of a reducer's window (R285): results, sum, sum of squares, minimum and maximum with the positions of
their first occurrence, the previous result, the position of the first crossing. -/
structure RedAcc where
  count : Nat
  sum : Int
  sumsq : Nat
  min : Option (Int × Dword)
  max : Option (Int × Dword)
  prev : Option Int
  cross : Option Dword
  deriving DecidableEq, Repr

/-- A reducer beside its registers (R284): whether a window is current, its start and end, whether an angle window has
opened, whether its domain has left SYNC and LIMP_CAM since, its close (time, and whether by a loss of sync) until the set is published, the window submitted, the running values, the
sequence number, the published set (the eight fields of R221). -/
structure Reducer where
  active : Bool
  start : Dword
  stop : Dword
  opened : Bool
  lost : Bool
  closed : Option (Time × Bool)
  next : Option (Dword × Dword)
  acc : RedAcc
  seq : Word
  pub : Option (Vector Dword 8)
  deriving DecidableEq, Repr

/-- A converter: its running conversion, the instant of its last sample, one more than the cycle in which its last conversion ended (R270,
R275), its urgent queue, its reducers. -/
structure Converter where
  run : Option Conversion
  last : Option Time
  ended : Nat
  urgent : List UrgentReq
  red : Vector Reducer 4
  deriving DecidableEq, Repr

/-- A record waiting for its place in the frame stream (R279, R280): instant, the bound by which it is to be written (R19), group, whether a
trigger record, its leading bytes, and for a row the result of each member that is framed. -/
structure FrameRec where
  at' : Time
  due : Time
  group : Fin 8
  trig : Bool
  head : List Byte
  cells : List (Fin 24 × Option (BitVec 16))
  deriving DecidableEq, Repr

/-- The open frame (R280): Tally, ring offset of its first record, groups with records, rows of each group. -/
structure Frame where
  tally : Nat
  first : Nat
  mask : BitVec 8
  rows : Vector Nat 8
  deriving DecidableEq, Repr

/-- What the writer has to write (R282): bytes of a ring line, a frame notice, a frame-count atomic, an urgent
record with the channel that gets ADC; and the mark of a frame whose writes are all before it (R280). -/
inductive WriterItem where
  | bytes (addr : Nat) (b : List (Option Byte)) (due : Time)
  | count (addr : Nat) (due : Time)
  | urgent (addr : Nat) (b : List Byte) (ch : Fin 512) (due : Time)
  | frameDone (mask : BitVec 8)
  deriving DecidableEq, Repr

/-- A calibration point being measured (R277): input, range, whether the full point, exponent, samples taken, their sum, and
when the next is due. -/
structure CalPoint where
  input : Nat
  range : Nat
  full : Bool
  e : Nat
  taken : Nat
  sum : Int
  nextAt : Time
  deriving DecidableEq, Repr

/-- The acquisition block beside its registers: groups, converters, records waiting, the open frame, the bytes of the
current ring line not yet handed to the writer with their ring offset, the time of the oldest and the earliest bound of any (R19), the
writer's queue, what follows that line in it (R280), the size of a record that found no room (R281), the calibration point and the held zero
point (input, range, m0), the last calibration sample as delivered, raw and corrected (R276), writer accesses of this Tally. -/
structure Adc where
  grp : Vector Group 8
  conv : Vector Converter 24
  recs : List FrameRec
  frame : Option Frame
  hold : List Byte
  holdAt : Nat
  holdSince : Time
  holdDue : Time
  queue : List WriterItem
  after : List WriterItem
  need : Nat
  cal : Option CalPoint
  zero : Option (Nat × Nat × Int)
  sample : Option (BitVec 16 × BitVec 16)
  use : Nat
  deriving DecidableEq, Repr

/-! ### DMA (spec/12) -/

/-- A destination line being combined (R294): the element column it belongs to (0 for a copy), its address, and its
bytes so far. -/
structure DmaLine where
  col : Nat
  addr : Nat
  bytes : List (Option Byte)
  deriving DecidableEq, Repr

/-- The transfer a channel holds (R290): source, destination, length in bytes or frames, the other shadow words as loaded;
the index in frame order of the first byte whose line has not been requested, the source lines requested and not yet returned, the lines
returned (newest first), the bytes moved to the combining buffer, the buffer, the bytes written of each column, the index at which a
drain ends (R301, R302); and for an atomic the old value, once applied (R298). -/
structure DmaXfer where
  src : Nat
  dst : Nat
  len : Nat
  cfg : Word
  frm : Word
  plane : Word
  next : Nat
  issued : List Nat
  lines : List (Nat × List Byte)
  moved : Nat
  buf : List DmaLine
  done : List Nat
  drainTo : Option Nat
  old : Option Dword
  deriving DecidableEq, Repr

/-- A DMA channel beside its registers: its transfer, the set CUR registers show while it holds none, sh_ready as it stood at the start of
this cycle (R291), the shadow set that a disarm in this cycle found armed then, and whether Park drained it (R310). -/
structure DmaChan where
  xfer : Option DmaXfer
  rest : Nat × Nat × Nat
  was : Bool
  snap : Option DmaXfer
  parked : Bool
  deriving DecidableEq, Repr

/-- The DMA engine beside its registers: channels, the winner of the last burst at each priority, one more than the cycle of the last burst,
its Vault accesses in the order in which it issued them, as channel and whether a write (R295), the channel a serial transfer gives the
engine to (R294), events that pulse in the next cycle (R299). -/
structure Dma where
  chan : Vector DmaChan 32
  last : Vector Nat 4
  burst : Nat
  queue : List (Fin 32 × Bool)
  serial : Option (Fin 32)
  pulses : List Nat
  deriving DecidableEq, Repr

/-! ### Daybook and Ethernet (spec/13) -/

/-- A block of a stream (R316): Tally, length, and its records in order as (type, length). In the Daybook ring `pos` is the
count of bytes copied before it. -/
structure Block where
  tally : Nat
  len : Nat
  recs : List (Nat × Nat)
  pos : Nat
  deriving DecidableEq, Repr

/-- An accepted seal (R321, R322): the Tally of its time, the Tally at whose boundary the stream freezes, the cycle it came in and its
source (0 event, 1 engine, 2 host). -/
structure Seal where
  tally : Nat
  freezeAt : Nat
  cyc : Nat
  source : Nat
  deriving DecidableEq, Repr

/-- A log stream beside its registers: where the next staging byte goes, where the copier reads next, staging bytes not yet copied, bytes of the current line not
yet handed to the writer with their offset and the time of the oldest, lines to write, the open block, the closed blocks not yet
copied and the bytes of the first that are, bytes copied to the Daybook ring in all, the blocks that stand in it, how many have been
overwritten there and the largest Tally of these, the running copy's length, records lost since the last loss record with the time of the
first, the accepted seal and its time as DBK_SEAL_TIME reads it, and whether the stream only waits for its last copy (R322). -/
structure Stream where
  wr : Nat
  rd : Nat
  used : Nat
  hold : List Byte
  holdAt : Nat
  holdSince : Time
  lines : List (Nat × List Byte)
  open' : Option Block
  closed : List Block
  part : Nat
  total : Nat
  ring : List Block
  gone : Nat
  passed : Option Nat
  copying : Option Nat
  loss : Option (Nat × Time)
  accepted : Option Seal
  sealT : Time
  freezing : Bool
  deriving DecidableEq, Repr

/-- A record on its way to the assembler (R315): stream, its place among the records of a cycle (writer, index), type,
bytes, and the time it carries. -/
structure Arrival where
  stream : Fin 16
  place : Nat × Nat
  type : Nat
  bytes : List Byte
  time : Time
  deriving DecidableEq, Repr

/-- The Daybook beside its registers: DRAM bytes by Daybook offset, streams, records that arrived in this cycle. -/
structure Daybook where
  mem : Sparse Byte
  stream : Vector Stream 16
  arrived : List Arrival
  deriving DecidableEq, Repr

/-- A received frame (R324, R325, R327): bytes from the destination address on, without FCS, and its receive timestamp. -/
structure RxFrame where
  bytes : List Byte
  ts : Option Time
  deriving DecidableEq, Repr

/-- A telemetry stream (R329): the number of the block it reads next, counted from the stream's enable, records of it already
read, records to drop before the next kept one, the payload in hand with its records, the time and block of the first, a packet
ready to go, and the sequence number. -/
structure Telemetry where
  blk : Nat
  skip : Nat
  drop : Nat
  payload : List Byte
  count : Nat
  since : Time
  tally : Nat
  full : Bool
  seq : Word
  deriving DecidableEq, Repr

/-- The transmitter of a MAC (R324, R326): the frame in transmission with the time of its start, and whether it is the host's; the host's
frame that waits; and the time up to which a received pause frame holds the next frame off. -/
structure MacTx where
  air : Option (List Byte × Time × Bool)
  wait : Option (List Byte)
  pause : Time
  deriving DecidableEq, Repr

/-- Ethernet beside its registers: the transmitter and the received frames of each MAC, the transmit timestamps queued as (time, MAC,
sequenceId), the servo's integrator (R328), the telemetry builders. -/
structure Ether where
  mac : Vector MacTx 2
  rx : Vector (List RxFrame) 2
  txts : List (Time × Fin 2 × BitVec 16)
  integ : Dword
  tlm : Vector Telemetry 8
  deriving DecidableEq, Repr

/-! ### What leaves the part -/

/-- What the part has sent to the outside in the present cycle: a memory write to the host, an Ethernet frame, a PM_PME message, a
Configuration Request Retry Status, a read completion with its EP bit (R386), the bytes a QSPI transaction returns, a value shifted out by
JTAG, a cell of a fabric port. -/
inductive Output where
  | hostWrite (addr : Nat) (bytes : List (Option Byte))
  | frame (mac : Fin 2) (bytes : List Byte)
  | pme
  | retry
  | completion (bytes : List Byte) (ep : Bool)
  | qspi (bytes : List Byte)
  | jtag (v : Word)
  | cell (p : Fin 4) (seq : BitVec 7) (ack : BitVec 7) (x : Cell)
  | link (p : Fin 4) (x : LinkCell)
  deriving DecidableEq, Repr
/-! ### Interrupts, host interfaces, power (spec/14, spec/16) -/

/-- The interrupt controller beside its registers: sources in the order in which they entered PENDING (R335), sources in the order in
which they were delivered (R337), consecutive redeliveries of level sources (R338), the cycle of each target's last delivery as one
more than it, whether the next boundary re-samples level sources (R346), the sources that entered PENDING in this cycle (R335), and
whether one with wake = 1 has entered it since the entry to Park began (R347). -/
structure Ic where
  queue : List (Fin 1024)
  done : List (Fin 1024)
  storm : Sparse Nat
  last : Vector Nat 35
  resample : Bool
  fresh : List (Fin 1024)
  woke : Bool
  deriving DecidableEq, Repr

/-- An entry of the MSI-X table (R382). -/
structure MsixEntry where
  addr : Dword
  data : Word
  ctrl : Word
  deriving DecidableEq, Repr

/-- The PCIe function's configuration space (R340, R380–R382, R387): memory space and bus master enables, BARs, MSI-X, MSI, power
management, payload sizes; whether PERST_N is low. -/
structure Pcie where
  mem : Bool
  master : Bool
  bars : Vector Dword 3
  msixEn : Bool
  maskAll : Bool
  table : Vector MsixEntry 32
  msiEn : Bool
  msiAddr : Dword
  msiData : BitVec 16
  d3 : Bool
  pmeEn : Bool
  pmeStatus : Bool
  mps : BitVec 3
  mrrs : BitVec 3
  perst : Bool
  deriving DecidableEq, Repr

/-- What step 2 of R345 copies to retention: register words, the interrupt controller, the PCIe configuration space. -/
structure Retained where
  regs : Sparse Word
  ic : Ic
  pcie : Pcie
  deriving DecidableEq, Repr

/-- Host interfaces: the PCIe function, the QSPI write buffer (R391) and whether the Vault has its oldest write, the err bit of the QSPI status
byte (R392). -/
structure HostIf where
  pcie : Pcie
  qspi : List (Word × List Byte)
  qspiOut : Bool
  err : Bool
  deriving DecidableEq, Repr

/-- Health of the Teller for PULSE (R431): whether a boundary with run = 1 has passed, whether run has been 1 throughout the running
Tally, whether at its boundary a channel READY at the boundary before still waited, whether a judged Tally has ended since the last toggle boundary, whether one of them was unhealthy, and whether this boundary's
toggle has been judged. -/
structure Health where
  on : Bool
  whole : Bool
  late : Bool
  ended : Bool
  bad : Bool
  done' : Bool
  deriving DecidableEq, Repr

/-! ### The Assayer (spec/17) -/

/-- A Ledger entry (R404): sequence number, boot count, severity, and the edge it records. -/
structure LedgerEntry where
  seq : Word
  boot : BitVec 16
  sev : Byte
  edge : AsyEdge
  deriving DecidableEq, Repr

/-- A firmware slot of the NOR (R408): security version, order in which it was written, whether its image advances the counter, the
firmware version. -/
structure FwSlot where
  sver : Nat
  order : Nat
  advance : Bool
  version : Word
  deriving DecidableEq, Repr

/-- A running mailbox command (R398). -/
structure MboxCmd where
  op : Byte
  tag : Byte
  len : Nat
  deriving DecidableEq, Repr

/-- The Assayer beside its registers: OTP bytes (R412), the NOR's firmware slots, the slot that runs, its version, the Ledger as (place,
entry) with the next place (R406), next sequence number and boot count, the queue of entries and how many found it full (R403), the running
command and its result, the debug challenge (R417), why the core boots (R405), the sensors whose warning (0–8) or critical (9–17) report waits
for a fall of 4 °C (R401), whether the ASY clock has stopped, and the image that the running command has read from the Vault (R407). -/
structure Asy where
  otp : Sparse Byte
  slots : Vector (Option FwSlot) 2
  running : Fin 2
  version : Word
  ledger : List (Nat × LedgerEntry)
  place : Nat
  seq : Word
  boots : BitVec 16
  queue : List LedgerEntry
  lost : Nat
  cmd : Option MboxCmd
  result : Option (Nat × List Word)
  challenge : Option (BitVec 256)
  bootCode : Nat
  hot : Vector Bool 18
  stopped : Bool
  fetch : Option (List Byte)
  deriving DecidableEq, Repr

/-! ### Sloulo (spec/15) -/

/-- A port beside its registers: whether it has declared DEGRADED (R356); the next sequence number, the retry window and what of it is to be sent again (R352); cells
waiting by VC, cells sent by VC and cells the far end has freed (R353); the sequence number expected, whether a resend has been asked for
since the last accepted cell and whether the nak waits; cells freed here by VC and whether the far end must be told; cell times since the
last LINK cell and the number of the cell time; cycles of the last ack progress, resends without progress, cycle of the last good cell
(R356); the far end's identity and whether it asks for DOWN or declares DEGRADED; good and bad cells of this Tally and the runs of
Tallies of low and high efficiency; the measurement to send, t1 of the one in flight, the last delays (R363). -/
structure SloPort where
  declared : Bool
  seq : BitVec 7
  window : List (BitVec 7 × Cell)
  resend : List (BitVec 7 × Cell)
  queue : Vector (List Cell) 4
  sent : Vector Byte 4
  freed : Vector Byte 4
  expect : BitVec 7
  asked : Bool
  nak : Bool
  credit : Vector Byte 4
  owe : Bool
  quiet : Nat
  slot : Nat
  progress : Nat
  tries : Nat
  heard : Nat
  far : Option Dword
  farDown : Bool
  farDegraded : Bool
  good : Nat
  bad : Nat
  low : Nat
  high : Nat
  ask : Option (Option Time)
  t1 : Option Time
  delays : List Int
  deriving DecidableEq, Repr

/-- Sloulo beside its registers: ports; subscribers of each local domain with their next TOOTH sequence number (R366, R367); broadcast-tree
ports; the root's ID; the ID and depth given by a ROUTE until admission; the integrator and the last offset (R364), the Tallies of the last
measurement and of the last HELLO; whether a step of GTB has left the node out of alignment (R41); on the root the nodes as reported and the ID each UID last held (R360); the port by which a running
discovery came; whether this node is the acting root (R362); the transmit mailbox's position, expected lap, entries consumed, the count as
last written, the Tallies of its last read and of the last count write, and whether the last read found a valid entry (R372); the receive
ring's position and lap. -/
structure Sloulo where
  port : Vector SloPort 4
  subs : Vector (List (Fin 64 × BitVec 6)) 4
  tree : Vector Bool 4
  rootId : Fin 64
  joining : Option (Fin 64 × Nat)
  integ : Dword
  ofs : Int
  measTally : Nat
  helloTally : Nat
  stepped : Bool
  nodes : List NodeReport
  ids : List (Dword × Fin 64)
  flood : Option (Option (Fin 4))
  acting : Bool
  btxPos : Nat
  btxLap : Bool
  consumed : Dword
  written : Dword
  readTally : Nat
  writeTally : Nat
  found : Bool
  brxPos : Nat
  brxLap : Bool
  deriving DecidableEq, Repr


/-! ### The whole state -/

/-- The state of the block. `regs` holds every register word of BAR0 that differs from its reset value; `pending` the
commands that wait, first in, first out; `inflight` effects of the block on their way to another of its blocks, with the
cycle in which they land (R19, R162); `goDone` the node and the Tally of the last remote release (R58); `pulses` the
events of the present cycle (R23); `out` what has left the part in it; `goNow` and `haltNow` the counters released and
halted in the present cycle (R56); `read` what the last host read returned; `latch` the words that reads of low words
have latched, `none` where no read has; `setNow` the bits of each register word that the part has set in the present
cycle (R11); `asyEdges` the edges on their way to the Ledger; `free` counts the free values drawn; `wakePin` and
`resetLow`: the level of WAKE, and whether RESET_N is low; `retained` what Deep Park has copied (R345). -/
structure State where
  regs : Sparse Word
  tb : TimeBase
  goAt : Option GoAtReq
  goDone : Option (Fin 64 × Nat)
  hst : HostBatch
  cnt : Vector Counter 32
  pinActs : List PinAction
  goNow : Word
  haltNow : Word
  fct : Vector Facet 256
  safeN : Bool
  whl : Vector Wheel 8
  bzl : Vector Domain 8
  tlr : Teller
  vlt : Vault
  mnt : Mint
  adc : Adc
  dma : Dma
  dbk : Daybook
  eth : Ether
  asy : Asy
  slo : Sloulo
  ic : Ic
  host : HostIf
  health : Health
  wakePin : Bool
  resetLow : Bool
  retained : Option Retained
  pulses : List Nat
  out : List Output
  read : List Word
  latch : Sparse (Option Word)
  setNow : Sparse Word
  asyEdges : List AsyEdge
  free : Nat
  inflight : List (Nat × Instr)
  pending : List Instr
  deriving DecidableEq, Repr

/-! ### Reset (R34, R60, R142, R435) -/

def TimeBase.reset : TimeBase :=
  { gtb := 0, inc := 8, acc := 0, cyc := 0, boundary := false, boundaryDone := false, aon := 0, load := none }
def Compare.reset : Compare := { cur := none, nxt := none }
def Counter.reset : Counter :=
  { cmp := Vector.replicate 4 Compare.reset, caps := [], fresh := [], ctlPrev := 0, divPhase := 0, theta := none, raised := false }
def InPath.reset : InPath :=
  { sampled := false, first := none, fl := false, run := none, flight := [], pipe := [false, false, false], filt := false,
    limTally := 0, limCount := 0, muteNow := false, muteLatched := false, muteUntil := 0, stuckCount := 0,
    stuckWhole := false, stuckFired := false, starting := false, past := [] }
def Facet.reset : Facet :=
  { queue := [], freed := 0, lateNow := [], lateNext := [], out := false, hold := false, frozen := false, wasOut := false, purge := false,
    edges := [], ext := none, moves := [], inp := InPath.reset, caps := [], fresh := [], latched := 2 }
def Wheel.reset : Wheel :=
  { volts := 0, armed := false, top := none, dcFrom := none, ext := false, inp := InPath.reset, peakTally := 0 }
def Search.reset : Search := { last := none, tPrev := none, count := 0, slot := none, hist := [], since := 0 }
def LimpWatch.reset : LimpWatch := { on := false, last := none, interval := none, cand := false }
def MapLearn.reset : MapLearn :=
  { start := none, edges := [], whole := false, prev := none, acc := [], count := 0, stopped := false }
def DraftSpec.reset : DraftSpec :=
  { angle := 0, act := 0, facet := 0, lead := 0, drop := false, tag := 0, notify := false, autoFree := false,
    limp := false, owner := 0, hostOwn := false, pairEn := false, pair := 0, dur := 0 }
def Draft.reset : Draft :=
  { spec := DraftSpec.reset, status := .free, reason := 0, target := 0, time := noTime, tO := none }
def DomCfg.reset : DomCfg :=
  { winNorm := 0x1B33059A, winGap := 0x18000800, sync := 0x00040102, stall := 100000, limp := 0x4E202000, bind := 0 }
def Domain.reset : Domain :=
  { pri := [], sec := [], mapW := [], mapA := [], mapPending := none, mapInstall := none, priIn := [], secIn := [],
    search := Search.reset, syncArmed := false, slot := 0, rev := false, revKnown := false, gapCross := 0,
    retained := false, confirm := 0, lastInt := none, hist := [], intervals := 0, pred := none,
    camRun := 0, phases := Vector.replicate 4 [], camSeen := false, cam0 := [], phiF := 0, limpIdx := 0, lastPri := none,
    watchFrom := 0, stuckSeen := false, back := Search.reset, watch := LimpWatch.reset, learn := MapLearn.reset,
    drafts := Vector.replicate 256 Draft.reset, cells := [], lastCell := none, mirCycle := false, mirSeq := none, real := none,
    ahead := [], fresh := true, restart := false, latched := [], cfg := DomCfg.reset, armed := 0, arming := false }
/-- Every context after RESET_N: fields 0, budget 800, wake all ones (R142). -/
def Context.reset : Context :=
  { v := Vector.replicate 16 0, pc := 0, flags := 0, adom := 0, persona := false, cls := 0, budget := 800, bind := 0,
    wake := noTime }
def Channel.reset : Channel := { sub := none, replayCause := 0, replaySeq := 0 }
def Engine.reset : Engine := { l0 := none, l1 := none, busyTo := 0, sel := none }
def Teller.reset : Teller :=
  { chan := Vector.replicate 512 Channel.reset, eng := Vector.replicate 17 Engine.reset,
    ctx := Vector.replicate 512 Context.reset, prog := [], rr := Vector.replicate 4 511, commits := [],
    trigDone := false, busy := 0, waiting := [], drainStop := false, reint := [], dispAt := Vector.replicate 4 0, again := [],
    attach := none }
def HostBatch.reset : HostBatch := { fill := [], overflow := false, pend := none }
def Vault.reset : Vault :=
  { mem := [], poison := [], fix := [], pos := 0, granted := false, lastEng := 17, lastClass := 6, use := Vector.replicate 8 0,
    host := [], asy := [], slo := [], scrubLine := 0, scrubTally := 0, passTally := 0 }
def Mint.reset : Mint :=
  { micro := [], nano := [], encMicro := [], encNano := [], ndata := 0, nhold := Vector.replicate 3 0,
    tsave := Vector.replicate 17 (Vector.replicate 16 0), legacy := [] }
def Group.reset : Group :=
  { pass := none, timeArmed := false, targets := [], evt := none, chan := none, soon := [], flagged := [] }
def RedAcc.reset : RedAcc := { count := 0, sum := 0, sumsq := 0, min := none, max := none, prev := none, cross := none }
def Reducer.reset : Reducer :=
  { active := false, start := 0, stop := 0, opened := false, lost := false, closed := none, next := none, acc := RedAcc.reset, seq := 0,
    pub := none }
def Converter.reset : Converter := { run := none, last := none, ended := 0, urgent := [], red := Vector.replicate 4 Reducer.reset }
def Adc.reset : Adc :=
  { grp := Vector.replicate 8 Group.reset, conv := Vector.replicate 24 Converter.reset, recs := [], frame := none,
    hold := [], holdAt := 0, holdSince := 0, holdDue := 0, queue := [], after := [], need := 0, cal := none, zero := none, sample := none,
    use := 0 }
def DmaChan.reset : DmaChan := { xfer := none, rest := (0, 0, 0), was := false, snap := none, parked := false }
def Dma.reset : Dma :=
  { chan := Vector.replicate 32 DmaChan.reset, last := Vector.replicate 4 31, burst := 0, queue := [], serial := none, pulses := [] }
def Stream.reset : Stream :=
  { wr := 0, rd := 0, used := 0, hold := [], holdAt := 0, holdSince := 0, lines := [], open' := none, closed := [], part := 0, total := 0,
    ring := [], gone := 0, passed := none, copying := none, loss := none, accepted := none, sealT := 0, freezing := false }
def Daybook.reset : Daybook := { mem := [], stream := Vector.replicate 16 Stream.reset, arrived := [] }
def Telemetry.reset : Telemetry :=
  { blk := 0, skip := 0, drop := 0, payload := [], count := 0, since := 0, tally := 0, full := false, seq := 0 }
def MacTx.reset : MacTx := { air := none, wait := none, pause := 0 }
def Ether.reset : Ether :=
  { mac := Vector.replicate 2 MacTx.reset, rx := Vector.replicate 2 [], txts := [], integ := 0, tlm := Vector.replicate 8 Telemetry.reset }
def Ic.reset : Ic := { queue := [], done := [], storm := [], last := Vector.replicate 35 0, resample := false, fresh := [], woke := false }
/-- PCIe defaults; the table's masks are set (PRESUMED from the PCIe specification, log entry 38). -/
def Pcie.reset : Pcie :=
  { mem := false, master := false, bars := Vector.replicate 3 0, msixEn := false, maskAll := false,
    table := Vector.replicate 32 ⟨0, 0, 1⟩, msiEn := false, msiAddr := 0, msiData := 0, d3 := false, pmeEn := false,
    pmeStatus := false, mps := 0, mrrs := 2, perst := false }
def HostIf.reset : HostIf := { pcie := Pcie.reset, qspi := [], qspiOut := false, err := false }
def Health.reset : Health := { on := false, whole := false, late := false, ended := false, bad := false, done' := false }
/-- The NOR as shipped holds firmware in slot 0 and no Ledger entry; the OTP is blank above its device data (log entry 39). -/
def Asy.reset : Asy :=
  { otp := [], slots := #v[some ⟨0, 0, false, 0⟩, none], running := 0, version := 0, ledger := [], place := 0, seq := 0, boots := 0,
    queue := [], lost := 0, cmd := none, result := none, challenge := none, bootCode := 0, hot := Vector.replicate 18 false,
    stopped := false, fetch := none }
def SloPort.reset : SloPort :=
  { declared := false, seq := 0, window := [], resend := [], queue := Vector.replicate 4 [], sent := Vector.replicate 4 0,
    freed := Vector.replicate 4 0, expect := 0, asked := false, nak := false, credit := Vector.replicate 4 0, owe := false, quiet := 0,
    slot := 0, progress := 0, tries := 0, heard := 0, far := none, farDown := false, farDegraded := false, good := 0, bad := 0, low := 0,
    high := 0, ask := none, t1 := none, delays := [] }
def Sloulo.reset : Sloulo :=
  { port := Vector.replicate 4 SloPort.reset, subs := Vector.replicate 4 [], tree := Vector.replicate 4 false, rootId := 0, joining := none,
    integ := 0, ofs := 0, measTally := 0, helloTally := 0, stepped := false, nodes := [], ids := [], flood := none, acting := false, btxPos := 0, btxLap := true,
    consumed := 0, written := 0, readTally := 0, writeTally := 0, found := false, brxPos := 0, brxLap := true }

/-- The machine right after reset. Register words are at the reset values of spec/ (none listed in `regs`). -/
def State.reset : State :=
  { regs := [], tb := TimeBase.reset, goAt := none, goDone := none, hst := HostBatch.reset, cnt := Vector.replicate 32 Counter.reset,
    pinActs := [], goNow := 0, haltNow := 0, fct := Vector.replicate 256 Facet.reset, safeN := true, whl := Vector.replicate 8 Wheel.reset,
    bzl := Vector.replicate 8 Domain.reset, tlr := Teller.reset, vlt := Vault.reset, mnt := Mint.reset, adc := Adc.reset, dma := Dma.reset, dbk := Daybook.reset,
    eth := Ether.reset, asy := Asy.reset, slo := Sloulo.reset, ic := Ic.reset, host := HostIf.reset, health := Health.reset,
    wakePin := false, resetLow := false, retained := none, pulses := [], out := [], read := [], latch := [], setNow := [], asyEdges := [], free := 0, inflight := [],
    pending := [] }

end Sys2Proof.Machine
end

