-- ==== Sys2Proof/Machine/Ops.lean ====
section
/-!
DEFINITION. Named operations over the state that every block uses: register words and their fields, the generic effect of
a register write (R9–R11), time, free values, channel causes and interrupt latches.
-/
namespace Sys2Proof.Machine
open Sys2Proof

/-- The result of a command. -/
abbrev Result := Host.Outcome State Fault Refusal

/-! ### Register words and fields -/

/-- The stored register word at BAR0 offset `off`. -/
def State.rd (s : State) (off : Nat) : Word := Sparse.get resetWord s.regs off

/-- Store a register word. -/
def State.wr (s : State) (off : Nat) (w : Word) : State := { s with regs := Sparse.put resetWord s.regs off w }

/-- The 64-bit register at `off` (R8). -/
def State.rd64 (s : State) (off : Nat) : Dword := joinWords (s.rd (off + 4)) (s.rd off)

/-- Store a 64-bit register. -/
def State.wr64 (s : State) (off : Nat) (x : Dword) : State := (s.wr off (loWord x)).wr (off + 4) (hiWord x)

/-- The bits of field `f` in a word. -/
def fieldOf (w : Word) (f : Fld) : Nat := (w.toNat >>> f.lo) % 2 ^ (f.hi - f.lo + 1)

/-- A word with field `f` replaced by `v`. -/
def withField (w : Word) (f : Fld) (v : Nat) : Word :=
  let mask := (2 ^ (f.hi - f.lo + 1) - 1) <<< f.lo
  BitVec.ofNat 32 (((w.toNat ||| mask) - mask) ||| ((v % 2 ^ (f.hi - f.lo + 1)) <<< f.lo))

/-- Value of a register field. -/
def State.get (s : State) (f : Fld) : Nat := fieldOf (s.rd f.off) f

/-- Set a register field. -/
def State.set (s : State) (f : Fld) (v : Nat) : State := s.wr f.off (withField (s.rd f.off) f v)

/-- Whether a one-bit field is set (or any field is not 0). -/
def State.flag (s : State) (f : Fld) : Bool := s.get f != 0

/-- The bits of a register word that the part has set in the present cycle (R11). -/
def State.justSet (s : State) (off : Nat) : Word := Sparse.get (fun _ => 0) s.setNow off

/-- Set a field of one bit, and note that it has been set in this cycle (R11). -/
def State.raise (s : State) (f : Fld) : State :=
  { s.set f 1 with setNow := Sparse.put (fun _ => 0) s.setNow f.off (s.justSet f.off ||| BitVec.twoPow 32 f.lo) }

/-- Clear a field. -/
def State.clear (s : State) (f : Fld) : State := s.set f 0

/-- Set a one-bit field to a truth value. -/
def State.setBool (s : State) (f : Fld) (b : Bool) : State := s.set f b.toNat

/-- Set a field if a condition holds. -/
def State.raiseIf (s : State) (c : Bool) (f : Fld) : State := if c then s.raise f else s

/-- Increment a counter field, saturating at the field's largest value. -/
def State.incSat (s : State) (f : Fld) : State := s.set f (satInc (s.get f) (2 ^ (f.hi - f.lo + 1) - 1))

/-- One bit of a register word as a field. -/
def bitFld (off b : Nat) : Fld := ⟨off, b, b⟩

/-- Whether the lock that governs the RWL fields at `off` is set: FCT_GSAFE.lock for the facets (R71), MNT_CTRL.lock for
the dispatch entries (R251). -/
def State.locked (s : State) (off : Nat) : Bool :=
  if off / 0x10000 = 4 then s.flag FCT_GSAFE.lock else if off / 0x10000 = 0x10 then s.flag MNT_CTRL.lock else false

/-- A written value with every reserved encoding replaced by the field's reset value (R9). -/
def cleanWrite (r : RegWord) (v : Word) : Word :=
  r.bad.foldl (fun w (hi, lo, a, b) =>
    let x := fieldOf w ⟨0, hi, lo⟩
    if a ≤ x ∧ x ≤ b then withField w ⟨0, hi, lo⟩ (fieldOf (BitVec.ofNat 32 r.reset) ⟨0, hi, lo⟩) else w) v

/-- The stored word after a write of `v` over `old` by the access codes of R10; `lk`: the block's lock is set; `new`: bits that the part
has set in this cycle, which no write clears (R11). -/
def accessWrite (r : RegWord) (lk : Bool) (new old v : Word) : Word :=
  let w := cleanWrite r v
  let rw : Word := BitVec.ofNat 32 (if lk then r.rw - r.rwl else r.rw)
  let kept := (old &&& ~~~rw) ||| (w &&& rw) ||| (w &&& BitVec.ofNat 32 r.w1s)
  kept &&& ~~~(w &&& BitVec.ofNat 32 r.w1c &&& ~~~new)

/-- A register write with no effect but the access codes of R10 on its fields. -/
def State.plainWrite (s : State) (off : Nat) (v : Word) : State :=
  match regWordAt off with
  | none => s
  | some r => s.wr off (accessWrite r (s.locked off) (s.justSet off) (s.rd off) v)

/-! ### Parts of the state by index -/

def State.modCnt (s : State) (n : Fin 32) (f : Counter → Counter) : State := { s with cnt := vmod s.cnt n f }
def State.modFct (s : State) (n : Fin 256) (f : Facet → Facet) : State := { s with fct := vmod s.fct n f }
def State.modWhl (s : State) (n : Fin 8) (f : Wheel → Wheel) : State := { s with whl := vmod s.whl n f }
def State.modDom (s : State) (d : Fin 8) (f : Domain → Domain) : State := { s with bzl := vmod s.bzl d f }
def State.modTlr (s : State) (f : Teller → Teller) : State := { s with tlr := f s.tlr }
def State.modCh (s : State) (c : Fin 512) (f : Channel → Channel) : State :=
  s.modTlr fun t => { t with chan := vmod t.chan c f }
def State.modCtx (s : State) (c : Fin 512) (f : Context → Context) : State :=
  s.modTlr fun t => { t with ctx := vmod t.ctx c f }
def State.modEng (s : State) (e : Fin 17) (f : Engine → Engine) : State :=
  s.modTlr fun t => { t with eng := vmod t.eng e f }
def State.modTb (s : State) (f : TimeBase → TimeBase) : State := { s with tb := f s.tb }

/-- Apply `f` for every index, in ascending order. -/
def forAll (n : Nat) (f : Fin n → State → State) (s : State) : State :=
  (List.finRange n).foldl (fun t i => f i t) s

/-! ### Time -/

/-- GTB of the present cycle (R33). -/
def State.now (s : State) : Time := s.tb.gtb
/-- GTB of the next cycle. -/
def State.nextNow (s : State) : Time := s.tb.gtb + BitVec.ofNat 64 s.tb.inc
/-- The Tally number ⌊GTB ÷ 8,000⌋ (R39). -/
def State.tally (s : State) : Nat := s.tb.gtb.toNat / 8000
/-- Tally in which a time lies (R18). -/
def tallyOf (t : Time) : Nat := t.toNat / 8000
/-- Index of the last engine cycle that has begun: ten units of 125 ps each, from the same start as the timebase cycles (R6). What an engine
does in its cycle happens in the timebase cycle that holds the start of that cycle (R171; log entry 18). -/
def engCycleAt (cyc : Nat) : Nat := (8 * cyc + 7) / 10
def State.engCycle (s : State) : Nat := engCycleAt s.tb.cyc

/-- The Park hold is in force: from entering Park until the exit to Run (R72, R343, R344). -/
def State.parkHold (s : State) : Bool :=
  let p := s.get PWR_STAT.state
  p == 3 || p == 4 || p == 5

/-- Entering Park or in its hold: triggers of DMA channels are missed (R310, R343). -/
def State.parking (s : State) : Bool := s.get PWR_STAT.state == 2 || s.parkHold

/-! ### Free values -/

/-- Draw a free value: the n-th, and the state that has drawn it. -/
def State.fresh (s : State) (w : Nat) : BitVec w × State := (Config.freeValue w s.free, { s with free := s.free + 1 })

/-- Draw `n` free doublewords. -/
def freeWords : Nat → State → List Dword × State
  | 0, s => ([], s)
  | n + 1, s =>
    let (x, s) := s.fresh 64
    let (l, s) := freeWords n s
    (x :: l, s)

/-- Post a command of the block's own to land in cycle `at'` (R19). -/
def State.post (s : State) (at' : Nat) (c : Instr) : State := { s with inflight := s.inflight ++ [(at', c)] }

/-- Something leaves the part in the present cycle. -/
def State.emit (s : State) (o : Output) : State := { s with out := s.out ++ [o] }

/-! ### The fault summary (R419, R420) -/

/-- FLT_STAT bits (R419). -/
inductive FaultBit where
  | fence | replayFail | chFault | psSwitch | psFail | csRepair | csMaster | mintFault | ramCorr | vltCorr | vltUncorr
  | vltPoison | dbkCorr | dbkUncorr | dbkThrottle | logLost | dmaHalt | hostLink | sloLink | sloTime | safeN | pulse
  | pll | asyRestart | reintFail
  deriving DecidableEq, Repr

/-- Bit number of a fault kind. -/
def FaultBit.num : FaultBit → Nat
  | .fence => 0 | .replayFail => 1 | .chFault => 2 | .psSwitch => 3 | .psFail => 4 | .csRepair => 5 | .csMaster => 6
  | .mintFault => 7 | .ramCorr => 8 | .vltCorr => 9 | .vltUncorr => 10 | .vltPoison => 11 | .dbkCorr => 12
  | .dbkUncorr => 13 | .dbkThrottle => 14 | .logLost => 15 | .dmaHalt => 16 | .hostLink => 17 | .sloLink => 18
  | .sloTime => 19 | .safeN => 20 | .pulse => 21 | .pll => 22 | .asyRestart => 23 | .reintFail => 24

/-- An event's time: GTB, or all ones while GTB does not run (R404). -/
def State.eventTime (s : State) : Time := if s.flag TB_STAT.pll_lock then s.now else noTime

/-- A fault event (R419, R420): its sticky bit, the first-fault record, and for a rising edge the private path to the
Assayer (R403). -/
def State.fault (s : State) (k : FaultBit) : State :=
  let f := bitFld FLT_STAT k.num
  let rising := !s.flag f
  let s := if s.flag FLT_FIRST.valid then s
    else ((s.raise FLT_FIRST.valid).set FLT_FIRST.bit k.num).wr64 FLT_FIRST_TIME s.now
  let s := s.raise f
  if rising then
    { s with asyEdges := s.asyEdges ++ [⟨0, BitVec.ofNat 16 k.num, BitVec.ofNat 16 (704 + k.num),
      joinWords (BitVec.ofNat 32 (s.get FLT_ENG.healthy)) (s.rd FLT_STAT), s.eventTime⟩] }
  else s

/-- What `State.latch` shows where no read has latched a word. -/
def noLatch (_ : Nat) : Option Word := none

/-- A host read of the low word of a 64-bit value whose high word it latches: the low word, and the latched state. -/
def State.latchRead (s : State) (off : Nat) (x : Dword) : Word × State :=
  (loWord x, { s with latch := Sparse.put noLatch s.latch (off + 4) (some (hiWord x)) })

/-- The latched high word at `off` (the reset value before any low-word read). -/
def State.latched (s : State) (off : Nat) : Word := (Sparse.get noLatch s.latch off).getD (resetWord off)

/-! ### Channel causes (R144–R148) -/

/-- TLR_CH_STAT.state values (R147). -/
def chDisabled : Nat := 0
def chIdle : Nat := 1
def chReady : Nat := 2
def chRunning : Nat := 3
def chPreempted : Nat := 4
def chCommitting : Nat := 5
def chReplay : Nat := 6
def chFaulted : Nat := 7

/-- An enabled cause of the channel is pending. -/
def State.causeReady (s : State) (ch : Fin 512) : Bool :=
  decide (s.rd (TLR_CH_PEND ch) &&& s.rd (TLR_CH_CAUSE_EN ch) ≠ 0)

/-- IDLE or READY, by whether an enabled cause is pending (R147). -/
def State.settle (s : State) (ch : Fin 512) : State :=
  let st := s.get (TLR_CH_STAT.state ch)
  if st = chIdle ∨ st = chReady then
    s.set (TLR_CH_STAT.state ch) (if s.causeReady ch then chReady else chIdle)
  else s

/-- The causes that have come for a channel in this cycle while they were pending already. -/
def State.cameAgain (s : State) (ch : Fin 512) : Word := Sparse.get (fun _ => 0) s.tlr.again ch.val

/-- Set a pending bit; a cause whose bit is already pending coalesces (R144), and stays pending if this is the cycle of a dispatch (R145). -/
def State.cause (s : State) (ch : Fin 512) (c : Cause) : State :=
  let f := bitFld (TLR_CH_PEND ch) c.bit
  (if s.flag f then
     (s.raise (TLR_CH_STAT.coalesced ch)).modTlr fun t =>
       { t with again := Sparse.put (fun _ => 0) t.again ch.val (s.cameAgain ch ||| BitVec.twoPow 32 c.bit) }
   else s.raise f).settle ch

/-- Set again a set of causes (R154, R191). -/
def State.causes (s : State) (ch : Fin 512) (m : BitVec 19) : State :=
  (s.wr (TLR_CH_PEND ch) (s.rd (TLR_CH_PEND ch) ||| m.setWidth 32)).settle ch

/-- A channel number from a register field. -/
def chanOf (n : Nat) : Fin 512 := Fin.ofNat 512 n

/-- Pulse of an edge source of the interrupt controller: its latch sets, merging with one already set (R334). Once Deep Park has taken the
controller's state, pulses are not recorded (R345). -/
def State.icPulse (s : State) (n : Nat) : State :=
  if s.get PWR_STAT.state = 5 ∧ 2 ≤ s.get PWR_STAT.dp_step then s else s.raise (IC_SRC.input n)

/-- A post to a channel: the cause, and the pulse of its interrupt source (R333). -/
def State.postTo (s : State) (ch : Fin 512) (c : Cause) : State := (s.cause ch c).icPulse ch

end Sys2Proof.Machine
end

