-- ==== Sys2Proof/Machine/Log.lean ====
section
/-!
DEFINITION. The log assembler's side of the Daybook (spec/13, R313–R318, R321): records of notes, facets and the Bezel on
their way into a stream's staging ring, blocks, and seals.
-/
namespace Sys2Proof.Machine
open Sys2Proof

def State.modDbk (s : State) (f : Daybook → Daybook) : State := { s with dbk := f s.dbk }
def State.modStream (s : State) (m : Fin 16) (f : Stream → Stream) : State :=
  s.modDbk fun x => { x with stream := vmod x.stream m f }

/-- The `n` little-endian bytes of a value (R184, R317). -/
def leBytes : Nat → Nat → List Byte
  | 0, _ => []
  | n + 1, v => BitVec.ofNat 8 v :: leBytes n (v / 256)

/-! ### Records (R317) -/

/-- The first 16 bytes of a record: type and bits 11:0 of bytes 0–1, bytes 2–7, bytes 8–15. -/
def logRecord (type low : Nat) (mid : Nat) (last : Nat) : List Byte :=
  leBytes 2 (type * 4096 + low) ++ leBytes 6 mid ++ leBytes 8 last

/-- Record types. -/
def recNote : Nat := 1
def recFacet : Nat := 2
def recTooth : Nat := 3
def recLoss : Nat := 4
def recTally : Nat := 7

/-- Insert by the order among the records of a cycle (R315), after those of equal place. -/
def insertArrival (a : Arrival) : List Arrival → List Arrival
  | [] => [a]
  | b :: r => if a.place.1 < b.place.1 ∨ (a.place.1 = b.place.1 ∧ a.place.2 < b.place.2) then a :: b :: r
    else b :: insertArrival a r

/-- A record reaches the assembler; it is placed at the end of the cycle. -/
def recordArrives (a : Arrival) (s : State) : State := s.modDbk fun x => { x with arrived := insertArrival a x.arrived }

/-- The stream is an enabled event stream. -/
def State.eventStream (s : State) (m : Fin 16) : Bool := s.flag (DBK_CFG.en m) && !s.flag (DBK_CFG.kind m)

/-- A note of a channel (R224, R314); a disabled stream loses it, whatever its notes_en (R318). -/
def logNote (m : Fin 16) (type : Byte) (ch : Fin 512) (t : Time) (a b : Dword) (s : State) : State :=
  if s.flag (DBK_CFG.kind m) || (s.flag (DBK_CFG.en m) && !s.flag (DBK_CFG.notes_en m)) then s
  else recordArrives ⟨m, (0, 0), recNote,
    logRecord recNote ch.val type.toNat t.toNat ++ leBytes 8 a.toNat ++ leBytes 8 b.toNat, t⟩ s

/-- Facet records of an accepted transition (R314). -/
def logFacetEdge (n : Fin 256) (t : Time) (rising : Bool) (s : State) : State :=
  forAll 32 (fun j s =>
    if s.flag (DBK_FLOG.en j) && s.get (DBK_FLOG.facet j) == n.val &&
        (if rising then s.get (DBK_FLOG.edge j) % 2 == 1 else s.get (DBK_FLOG.edge j) / 2 % 2 == 1) then
      let m : Fin 16 := Fin.ofNat 16 (s.get (DBK_FLOG.stream j))
      if s.flag (DBK_CFG.kind m) then s
      else recordArrives ⟨m, (1, j.val), recFacet, logRecord recFacet (rising.toNat * 256 + n.val) 0 t.toNat, t⟩ s
    else s) s

/-- Tooth records of a decision (R314): state change, reverse, slot, position and edge time from the domain's registers. One for a disabled
stream is lost and counted (R318). -/
def logTooth (d : Fin 8) (trans : Bool) (s : State) : State :=
  forAll 16 (fun m s =>
    if !s.flag (DBK_CFG.kind m) && (s.rd (DBK_CFG m)).getLsbD d then
      recordArrives ⟨m, (2, d.val), recTooth, logRecord recTooth
        (d.val * 512 + s.get (BZL_STATE.state d) * 64 + trans.toNat * 32 + s.get (BZL_STATE.dir d) * 16)
        (s.get (BZL_STATE.slot d) + 2 ^ 16 * (s.rd (BZL_POS d)).toNat) (s.rd64 (BZL_EDGE_TIME d)).toNat, s.rd64 (BZL_EDGE_TIME d)⟩ s
    else s) s

/-! ### Staging rings (R313, R315, R318) -/

/-- Base and length in bytes of a stream's staging ring: DBK_STGm, or the ADC frame ring (R313). -/
def State.staging (s : State) (m : Fin 16) : Nat × Nat :=
  if s.flag (DBK_CFG.kind m) then (32 * s.get ADC_RING_BASE.base, 32 * s.get ADC_RING_SIZE.lines)
  else (1024 * s.get (DBK_STG.base m), 1024 * s.get (DBK_STG.size m))

/-- Move bytes into the line being gathered; a full line goes to the writer. -/
def gather (m : Fin 16) : List Byte → State → State
  | [], s => s
  | b :: r, s =>
    let (base, size) := s.staging m
    let x := s.dbk.stream[m]
    let fresh := x.hold.isEmpty
    let hold := x.hold ++ [b]
    let start := if fresh then x.wr else x.holdAt
    let wr := if size = 0 then x.wr else (x.wr + 1) % size
    let full := (start + hold.length) % 32 == 0 || wr == 0
    let s := s.modStream m fun y =>
      if full then { y with wr := wr, used := y.used + 1, hold := [], lines := y.lines ++ [(base + start, hold)] }
      else { y with wr := wr, used := y.used + 1, hold := hold, holdAt := start,
                    holdSince := if fresh then s.now else y.holdSince }
    gather m r s

/-- A record is lost in a stream whose staging ring is full (R318). -/
def recordLost (m : Fin 16) (t : Time) (s : State) : State :=
  let s := s.modStream m fun x =>
    { x with loss := some (match x.loss with | some (n, t0) => (n + 1, t0) | none => (1, t)) }
  ((s.incSat (DBK_STAT.lost_count m)).raise (DBK_STAT.lost m)).fault .logLost

/-- Append a record to the open block. -/
def appendRecord (m : Fin 16) (type : Nat) (bytes : List Byte) (s : State) : State :=
  let s := gather m bytes s
  s.modStream m fun x =>
    let b : Block := x.open'.getD ⟨s.tally, 0, [], 0⟩
    { x with open' := some { b with len := b.len + bytes.length, recs := b.recs ++ [(type, bytes.length)] } }

/-- Free bytes of a stream's staging ring. -/
def State.stagingRoom (s : State) (m : Fin 16) : Nat := (s.staging m).2 - (s.dbk.stream[m]).used

/-- The loss record of the records lost, in the open block (R317, R318). -/
def placeLoss (m : Fin 16) (n : Nat) (t0 : Time) (s : State) : State :=
  (appendRecord m recLoss (logRecord recLoss m.val (2 ^ 16 * (n % 2 ^ 32)) t0.toNat) s).modStream m fun x => { x with loss := none }

/-- BLOCK_CLOSE of one stream (R316): a block of an earlier Tally gets its Tally record, after the loss record that is owed (R318), unless
the ring has no room for them. -/
def closeBlockOf (m : Fin 16) (s : State) : State :=
  match (s.dbk.stream[m]).open' with
  | none => s
  | some b =>
    if b.tally = s.tally then s
    else if s.stagingRoom m < (match (s.dbk.stream[m]).loss with | some _ => 32 | none => 16) then
      recordLost m (BitVec.ofNat 64 (8000 * s.tally)) (s.modStream m fun x => { x with open' := some { b with tally := s.tally } })
    else
      let s := match (s.dbk.stream[m]).loss with | some (n, t0) => placeLoss m n t0 s | none => s
      let b := (s.dbk.stream[m]).open'.getD b
      let s := gather m (logRecord recTally m.val (b.tally % 2 ^ 48) ((b.len + 16) + 2 ^ 32 * (b.recs.length + 1))) s
      s.modStream m fun x =>
        { x with open' := none, closed := x.closed ++ [{ b with len := b.len + 16, recs := b.recs ++ [(recTally, 16)] }] }

/-- Place one record (R318): lost in a disabled, frozen or full stream; a loss record goes before the first record placed
after a loss. -/
def placeRecord (a : Arrival) (s : State) : State :=
  let m := a.stream
  if s.flag (DBK_CFG.en m) = false then s.incSat (DBK_STAT.lost_count m)
  else if s.get (DBK_STAT.state m) = 2 ∨ (s.dbk.stream[m]).freezing then (s.incSat (DBK_STAT.lost_count m)).fault .logLost
  else
    let s := closeBlockOf m s
    match (s.dbk.stream[m]).loss with
    | none =>
      if s.stagingRoom m < a.bytes.length then recordLost m a.time s else appendRecord m a.type a.bytes s
    | some (n, t0) =>
      if s.stagingRoom m < 16 + a.bytes.length then recordLost m a.time s
      else appendRecord m a.type a.bytes (placeLoss m n t0 s)

/-- The records of a cycle are placed in the order of R315. -/
def placeArrivals (s : State) : State :=
  s.dbk.arrived.foldl (fun s a => placeRecord a s) (s.modDbk fun x => { x with arrived := [] })

/-! ### Seals (R321) -/

/-- A seal at time `t` from a source (0 event, 1 engine, 2 host): accepted in RECORD; of the seals of one cycle the lowest
source counts; any other is ignored. -/
def sealStream (source : Nat) (m : Fin 16) (t : Time) (s : State) : State :=
  let accept (s : State) : State :=
    let k := tallyOf t
    let first := if s.tb.boundary then s.tally else s.tally + 1
    (s.modStream m fun x =>
      { x with accepted := some ⟨k, max first (k + s.get (DBK_SPAN.post m) + 1), s.tb.cyc, source⟩, sealT := t }).set (DBK_STAT.state m) 1
  if s.flag (DBK_CFG.en m) = false then s
  else if s.get (DBK_STAT.state m) = 0 then accept s
  else
    match (s.dbk.stream[m]).accepted with
    | some a =>
      if a.cyc = s.tb.cyc ∧ source < a.source ∧ s.get (DBK_STAT.state m) = 1 then (accept s).raise (DBK_STAT.seal_ign m)
      else s.raise (DBK_STAT.seal_ign m)
    | none => s.raise (DBK_STAT.seal_ign m)

/-- A stream sealed by an event (R321). -/
def sealOnEvent (e : Nat) (m : Fin 16) (s : State) : State :=
  if s.flag (DBK_CFG.seal_evt_en m) && s.get (DBK_CFG.seal_evt m) == e then sealStream 0 m s.now s else s

end Sys2Proof.Machine
end

