-- ==== Sys2Proof/Machine/DmaCtl.lean ====
section
/-!
DEFINITION. DMA channels (spec/12): shadow and current sets, arming, triggers, pacing, pause, abort and the halt.
-/
namespace Sys2Proof.Machine
open Sys2Proof

def State.modDma (s : State) (f : Dma → Dma) : State := { s with dma := f s.dma }
def State.modChan (s : State) (n : Fin 32) (f : DmaChan → DmaChan) : State :=
  s.modDma fun x => { x with chan := vmod x.chan n f }

/-! ### Transfers -/

def DmaXfer.fld (x : DmaXfer) (f : Nat → Fld) : Nat := fieldOf x.cfg (f 0)
def DmaXfer.shuffle (x : DmaXfer) : Nat := x.fld DMA_SH_CFG.shuffle
def DmaXfer.swap (x : DmaXfer) : Nat := x.fld DMA_SH_CFG.swap
def DmaXfer.atomic (x : DmaXfer) : Nat := x.fld DMA_SH_CFG.atomic
/-- K and E of R304. -/
def DmaXfer.elems (x : DmaXfer) : Nat := fieldOf x.frm (DMA_SH_FRM.elems 0) + 1
def elemSize (frm : Word) : Nat := 2 ^ (fieldOf frm (DMA_SH_FRM.esize 0) + 1)
def DmaXfer.esize (x : DmaXfer) : Nat := elemSize x.frm
/-- Bytes of elements in one frame; 1 for a copy, whose unit is the byte. -/
def DmaXfer.unit (x : DmaXfer) : Nat := if x.shuffle = 0 then 1 else x.elems * x.esize
/-- Bytes moved in all. -/
def DmaXfer.total (x : DmaXfer) : Nat := x.len * x.unit

/-- fs(f) of R304. -/
def DmaXfer.frameStart (x : DmaXfer) (f : Nat) : Nat :=
  let size := fieldOf x.frm (DMA_SH_FRM.hdr 0) + x.elems * x.esize
  let fpb := fieldOf x.frm (DMA_SH_FRM.fpb 0)
  if fpb = 0 then f * size else f / fpb * (fpb * size + fieldOf x.frm (DMA_SH_FRM.gap 0)) + f % fpb * size

/-- Unit of a swap (R305). -/
def swapUnit (swap : Nat) : Nat := match swap with | 1 => 2 | 2 => 4 | 3 => 4 | 4 => 8 | _ => 1
/-- Place within its unit that byte `b` takes (R305). -/
def swapByte (swap b : Nat) : Nat :=
  match swap with | 1 => 1 - b | 2 => 3 - b | 3 => (b + 2) % 4 | 4 => 7 - b | _ => b

/-- Address of the element that holds byte `i` (in frame order) on the side of the frames, and on the side of the planes. -/
def DmaXfer.frameByte (x : DmaXfer) (i : Nat) : Nat :=
  x.frameStart (i / x.unit) + fieldOf x.frm (DMA_SH_FRM.hdr 0) + i % x.unit
def DmaXfer.planeByte (x : DmaXfer) (i : Nat) : Nat :=
  i % x.unit / x.esize * x.plane.toNat + i / x.unit * x.esize + i % x.esize

/-- Source address of byte `i`. -/
def DmaXfer.srcByte (x : DmaXfer) (i : Nat) : Nat :=
  match x.shuffle with
  | 0 => x.src + i
  | 1 => x.src + x.frameByte i
  | _ => x.src + x.planeByte i

/-- Destination address of byte `i`. -/
def DmaXfer.dstByte (x : DmaXfer) (i : Nat) : Nat :=
  match x.shuffle with
  | 0 => let u := swapUnit x.swap; x.dst + i / u * u + swapByte x.swap (i % u)
  | 1 => x.dst + x.planeByte i
  | _ => x.dst + x.frameByte i

/-- Column of the combining buffer in which byte `i` is gathered. -/
def DmaXfer.col (x : DmaXfer) (i : Nat) : Nat := if x.shuffle = 1 then i % x.unit / x.esize else 0

/-- Bytes, or whole frames, that have been written (R302). -/
def DmaXfer.written (x : DmaXfer) : Nat :=
  match x.shuffle with
  | 0 => x.done.headD 0
  | 1 => (x.done.foldl min (x.len * x.esize)) / x.esize
  | _ => x.done.headD 0 / x.unit

/-- The set that the CUR registers show: source, destination, length still to write (R302). -/
def DmaXfer.cur (x : DmaXfer) : Nat × Nat × Nat :=
  let w := x.written
  match x.shuffle with
  | 0 => (x.src + w, x.dst + w, x.len - w)
  | 1 => (x.src + x.frameStart w, x.dst + w * x.esize, x.len - w)
  | _ => (x.src + w * x.esize, x.dst + x.frameStart w, x.len - w)

/-- Units written, by column, before the first (R304). -/
def DmaXfer.untouched (x : DmaXfer) : DmaXfer := { x with done := if x.shuffle = 1 then List.replicate x.elems 0 else [0] }

/-- What has been read and not written is discarded: the transfer continues at the first unit not written (R303, R307). -/
def DmaXfer.discard (x : DmaXfer) : DmaXfer :=
  let w := x.written
  { x with next := w * x.unit, issued := [], lines := [], moved := w * x.unit, buf := [], drainTo := none,
           done := match x.shuffle with
             | 0 => [w]
             | 1 => List.replicate x.elems (w * x.esize)
             | _ => [w * x.unit] }

/-! ### States -/

def dmaIdle : Nat := 0
def dmaRunning : Nat := 1
def dmaDraining : Nat := 2
def dmaPaused : Nat := 3

def State.dmaState (s : State) (n : Fin 32) : Nat := s.get (DMA_STAT.state n)
def State.dmaHalted (s : State) : Bool := s.flag DMA_GSTAT.halted

/-- The stream whose copier the channel is (R319). -/
def State.copierOf (s : State) (n : Fin 32) : Option (Fin 16) :=
  (List.finRange 16).find? fun m => s.flag (DBK_CFG.en m) && s.get (DBK_CFG.dma m) == n.val

/-- Accesses that a channel has in the engine's queue are taken out. -/
def unqueue (n : Fin 32) (s : State) : State := s.modDma fun x => { x with queue := x.queue.filter fun q => q.1 != n }

/-- The serial engine is given back (R294). -/
def releaseSerial (n : Fin 32) (s : State) : State :=
  s.modDma fun x => { x with serial := if x.serial = some n then none else x.serial }

/-! ### Arming (R289) -/

/-- Validity of the shadow set of channel n. -/
def State.shadowValid (s : State) (n : Fin 32) : Bool :=
  let src := (s.rd64 (DMA_SH_SRC n)).toNat
  let dst := (s.rd64 (DMA_SH_DST n)).toNat
  let len := (s.rd (DMA_SH_LEN n)).toNat
  let frm := s.rd (DMA_SH_FRM n)
  let plane := (s.rd (DMA_SH_PLANE n)).toNat
  let shuffle := s.get (DMA_SH_CFG.shuffle n)
  let swap := s.get (DMA_SH_CFG.swap n)
  let atomic := s.get (DMA_SH_CFG.atomic n)
  let u := swapUnit swap
  let e := elemSize frm
  decide (len ≠ 0) && (shuffle == 0 || decide (n.val < 8)) && (swap == 0 || decide (24 ≤ n.val)) &&
    (shuffle == 0 || swap == 0) && (swap == 0 || (src % u == 0 && dst % u == 0 && len % u == 0)) &&
    (atomic == 0 || (shuffle == 0 && swap == 0 && len == 8 && dst % 8 == 0 && decide (dst < 2 ^ 24) &&
      (plane == 2 ^ 32 - 1 || (plane % 8 == 0 && decide (plane < 2 ^ 24))))) &&
    (shuffle == 0 || (src % e == 0 && dst % e == 0 && plane % e == 0 && decide (len * e ≤ plane)))

/-- DMA_ARM (R289). -/
def dmaArm (n : Fin 32) (s : State) : State :=
  if s.flag (DMA_STAT.sh_ready n) || (s.copierOf n).isSome then s.raise (DMA_STAT.sh_locked n)
  else if s.shadowValid n then s.raise (DMA_STAT.sh_ready n)
  else s.raise (DMA_STAT.cfg_err n)
def execDmaArm (n : Fin 32) (s : State) : Result := .next (dmaArm n s)

/-- The transfer that the shadow registers describe. -/
def State.shadowRegs (s : State) (n : Fin 32) : DmaXfer :=
  let x : DmaXfer :=
    { src := (s.rd64 (DMA_SH_SRC n)).toNat, dst := (s.rd64 (DMA_SH_DST n)).toNat, len := (s.rd (DMA_SH_LEN n)).toNat,
      cfg := s.rd (DMA_SH_CFG n), frm := s.rd (DMA_SH_FRM n), plane := s.rd (DMA_SH_PLANE n), next := 0, issued := [], lines := [],
      moved := 0, buf := [], done := [], drainTo := none, old := none }
  x.untouched

/-- DMA_DISARM (R289, R291): a check of this cycle still finds the set as it was armed at the start of the cycle. -/
def dmaDisarm (n : Fin 32) (s : State) : State :=
  if s.flag (DMA_STAT.sh_ready n) && (s.copierOf n).isNone then
    (s.clear (DMA_STAT.sh_ready n)).modChan n fun c => { c with snap := if c.was && c.snap.isNone then some (s.shadowRegs n) else c.snap }
  else s
def execDmaDisarm (n : Fin 32) (s : State) : Result := .next (dmaDisarm n s)

/-- A write of a shadow register (R289, R319). -/
def dmaShadowWrite (n : Fin 32) (off : Nat) (v : Word) (s : State) : State :=
  if s.flag (DMA_STAT.sh_ready n) || (s.copierOf n).isSome then s.raise (DMA_STAT.sh_locked n) else s.plainWrite off v

/-! ### Loading (R290–R292) -/

/-- The shadow set that a check of this cycle looks at (R291). -/
def State.shadowSet (s : State) (n : Fin 32) : DmaXfer := (s.dma.chan[n]).snap.getD (s.shadowRegs n)

/-- A trigger pulse is missed (R291). -/
def triggerMissed (n : Fin 32) (s : State) : State := (s.incSat (DMA_CNT.trig_miss n)).raise (DMA_STAT.trig_miss n)

/-- Copy the shadow into the current set (R290); a transfer that loads while pause = 1 loads PAUSED (R301). A disarm of this cycle does
nothing, and an arm after it stays (R291). -/
def loadShadow (n : Fin 32) (pulsed : Bool) (s : State) : State :=
  let x := s.shadowSet n
  let s := if (s.dma.chan[n]).snap.isSome then s else s.clear (DMA_STAT.sh_ready n)
  let s := s.modChan n fun c => { c with xfer := some x, was := false, snap := none }
  let credit := pulsed && x.fld DMA_SH_CFG.pace_en == 1 && x.fld DMA_SH_CFG.trig_evt == x.fld DMA_SH_CFG.pace_evt
  let s := s.set (DMA_STAT.credit n) credit.toNat
  s.set (DMA_STAT.state n) (if s.flag (DMA_CTL.pause n) then dmaPaused else dmaRunning)

/-- TRANSFER_LOAD (R290–R292): a trigger pulse that reaches the channel, or an idle check. In Park trigger pulses are missed
(R310). -/
def transferLoad (n : Fin 32) (pulsed : Bool) (s : State) : State :=
  if ((s.shadowSet n).fld DMA_SH_CFG.trig_en == 1) ≠ pulsed then s
  else if s.dmaHalted || s.dmaState n != dmaIdle || s.parking then (if pulsed then triggerMissed n s else s)
  else if (s.dma.chan[n]).was then loadShadow n pulsed s
  else if pulsed then triggerMissed n s else s
def execTransferLoad (n : Fin 32) (pulsed : Bool) (s : State) : Result := .next (transferLoad n pulsed s)

/-- An idle check finds the shadow ready (R290). -/
def State.loadDue (s : State) (n : Fin 32) : Bool :=
  (s.dma.chan[n]).was && s.dmaState n == dmaIdle && (s.shadowSet n).fld DMA_SH_CFG.trig_en == 0 && !s.dmaHalted && !s.parking

/-! ### Pacing (R293) -/

/-- PACE_PULSE: one credit for a channel that holds a paced transfer, or a lost pulse at 15. -/
def pacePulse (n : Fin 32) (s : State) : State :=
  match (s.dma.chan[n]).xfer with
  | none => s
  | some x =>
    if x.fld DMA_SH_CFG.pace_en = 0 then s
    else if s.get (DMA_STAT.credit n) < 15 then s.set (DMA_STAT.credit n) (s.get (DMA_STAT.credit n) + 1)
    else (s.incSat (DMA_CNT.pace_ovr n)).raise (DMA_STAT.pace_ovr n)
def execPacePulse (n : Fin 32) (s : State) : Result := .next (pacePulse n s)

/-- A pulse of event `e` at channel n: pace credit of the transfer it holds, then its trigger (R290, R293). -/
def pulseDma (e : Nat) (n : Fin 32) (s : State) : State :=
  let s := match (s.dma.chan[n]).xfer with
    | some x => if x.fld DMA_SH_CFG.pace_evt = e then pacePulse n s else s
    | none => s
  let y := s.shadowSet n
  if y.fld DMA_SH_CFG.trig_en == 1 && y.fld DMA_SH_CFG.trig_evt == e then transferLoad n true s else s

/-! ### Pause, abort, halt (R301–R308) -/

/-- Round an index up to a unit. -/
def ceilTo (u i : Nat) : Nat := if u = 0 then i else (i + u - 1) / u * u

/-- Where a drain of the transfer ends: the lines already requested, to the end of the frame or swap unit (R301, R302); none
when that is the whole transfer. -/
def DmaXfer.drainEnd (x : DmaXfer) : Option Nat :=
  let e := ceilTo (if x.shuffle = 0 then swapUnit x.swap else x.unit) x.next
  if x.total ≤ e then none else some e

/-- The last write of a drain has left: the channel is PAUSED (DRAIN_COMPLETE, R301). -/
def drainCheck (n : Fin 32) (s : State) : State :=
  match (s.dma.chan[n]).xfer with
  | none => s
  | some x =>
    match x.drainTo with
    | none => s
    | some e =>
      if s.dmaState n = dmaDraining ∧ x.issued = [] ∧ x.buf = [] ∧ e ≤ x.moved then
        releaseSerial n ((s.modChan n fun c => { c with xfer := some { x with drainTo := none, lines := [] } }).set
          (DMA_STAT.state n) dmaPaused)
      else s

/-- A RUNNING channel begins to drain (R301). An atomic counts as a read: not yet applied, it is put off; applied, it
completes (R298). -/
def startDrain (n : Fin 32) (s : State) : State :=
  match (s.dma.chan[n]).xfer with
  | none => s
  | some x =>
    if s.dmaState n ≠ dmaRunning then s
    else if x.atomic ≠ 0 ∧ x.old = none then
      releaseSerial n (unqueue n ((s.modChan n fun c => { c with xfer := some x.discard }).set (DMA_STAT.state n) dmaPaused))
    else
      drainCheck n ((s.modChan n fun c => { c with xfer := some { x with drainTo := x.drainEnd } }).set
        (DMA_STAT.state n) dmaDraining)

/-- A DRAINING or PAUSED channel runs again (R301). -/
def endDrain (n : Fin 32) (s : State) : State :=
  if s.dmaState n = dmaDraining ∨ s.dmaState n = dmaPaused then
    (s.modChan n fun c => { c with xfer := c.xfer.map fun x => { x with drainTo := none }, parked := false }).set
      (DMA_STAT.state n) dmaRunning
  else s

/-- DMA_PAUSE (R301): the level written to DMA_CTL.pause. -/
def dmaPause (n : Fin 32) (p : Bool) (s : State) : State :=
  let s := s.setBool (DMA_CTL.pause n) p
  if p then startDrain n s else endDrain n s
def execDmaPause (n : Fin 32) (p : Bool) (s : State) : Result := .next (dmaPause n p s)

/-- The channel gives up its transfer; the current set keeps its position. -/
def dropXfer (n : Fin 32) (s : State) : State :=
  let s := s.modChan n fun c => { c with rest := (match c.xfer with | some x => x.cur | none => c.rest), xfer := none,
                                         parked := false }
  releaseSerial n (unqueue n ((s.set (DMA_STAT.state n) dmaIdle).clear (DMA_STAT.credit n)))

/-- DMA_ABORT (R303). A stream whose copy is aborted has none in progress: it copies from its copier position again (R319). -/
def dmaAbort (n : Fin 32) (s : State) : State :=
  match (s.dma.chan[n]).xfer with
  | none => s
  | some _ =>
    let s := dropXfer n s
    match s.copierOf n with
    | some m => s.modStream m fun x => { x with copying := none }
    | none => s
def execDmaAbort (n : Fin 32) (s : State) : Result := .next (dmaAbort n s)

/-- DMA_CLR_COUNTS (R291). -/
def execDmaClrCounts (n : Fin 32) (s : State) : Result := .next (s.wr (DMA_CNT n) 0)

/-- A write of DMA_CTLn. -/
def dmaCtlWrite (n : Fin 32) (v : Word) (s : State) : State :=
  let s := if fieldOf v (DMA_CTL.clr_counts n) = 1 then s.wr (DMA_CNT n) 0 else s
  let s := if fieldOf v (DMA_CTL.abort n) = 1 then dmaAbort n s else s
  let p := fieldOf v (DMA_CTL.pause n) = 1
  let s := if s.flag (DMA_CTL.pause n) = p then s else dmaPause n p s
  let s := if fieldOf v (DMA_CTL.disarm n) = 1 then dmaDisarm n s else s
  if fieldOf v (DMA_CTL.arm n) = 1 then dmaArm n s else s

/-- BUS_ERROR (R306, R307): the engine halts, every transfer is PAUSED, the first error is recorded. -/
def busError (n : Fin 32) (kind : BitVec 4) (addr : Dword) (s : State) : State :=
  let s := if s.flag DMA_GSTAT.bus_err then s
    else ((s.set DMA_GSTAT.err_chan n).set DMA_GSTAT.err_kind kind.toNat).wr64 DMA_ERR_ADDR addr
  let s := (s.raise DMA_GSTAT.halted).raise DMA_GSTAT.bus_err
  let s := forAll 32 (fun k s =>
    match (s.dma.chan[k]).xfer with
    | none => s
    | some x =>
      ((s.modChan k fun c => { c with xfer := some x.discard, parked := false }).raise (DMA_CTL.pause k)).set
        (DMA_STAT.state k) dmaPaused) s
  (s.modDma fun x => { x with serial := none, queue := [] }).fault .dmaHalt
/-- BUS_ERROR: an access of a channel that holds a transfer. -/
def execBusError (n : Fin 32) (kind : BitVec 4) (addr : Dword) (s : State) : Result :=
  .next (if (s.dma.chan[n]).xfer.isSome && !s.dmaHalted then busError n kind addr s else s)

/-- DMA_RESTART (R308). -/
def execDmaRestart (s : State) : Result := .next (s.clear DMA_GSTAT.halted)

/-- A write of DMA_GCTRL. -/
def dmaGctrlWrite (v : Word) (s : State) : State :=
  let s := s.plainWrite DMA_GCTRL v
  if fieldOf v DMA_GCTRL.restart = 1 then s.clear DMA_GSTAT.halted else s

/-- The current set as the CUR registers show it. -/
def State.dmaCur (s : State) (n : Fin 32) : Nat × Nat × Nat :=
  match (s.dma.chan[n]).xfer with
  | some x => x.cur
  | none => (s.dma.chan[n]).rest

/-- CUR_SRC_READ (R302): a read of the DMA_CUR_SRC low word latches one snapshot of the current set. -/
def curSrcRead (n : Fin 32) (s : State) : Word × State :=
  let (src, dst, len) := s.dmaCur n
  let a : Dword := BitVec.ofNat 64 src
  (loWord a, ((s.wr (DMA_CUR_SRC n + 4) (hiWord a)).wr64 (DMA_CUR_DST n) (BitVec.ofNat 64 dst)).wr (DMA_CUR_LEN n)
    (BitVec.ofNat 32 len))
def execCurSrcRead (n : Fin 32) (s : State) : Result :=
  let (v, s) := curSrcRead n s
  .next { s with read := [v] }

/-- DMA_GSTAT as read: ch_flag (R309). -/
def State.dmaChFlag (s : State) : Bool := (List.range 32).any fun n => (s.rd (DMA_STAT n)) &&& 0x3C0 != 0
def dmaGstatRead (s : State) : Word := withField (s.rd DMA_GSTAT) DMA_GSTAT.ch_flag s.dmaChFlag.toNat

end Sys2Proof.Machine
end

