-- ==== Sys2Proof/Machine/Events.lean ====
section
/-!
DEFINITION. The event bus (R22–R24): a pulse reaches every subscriber in its cycle and is stored nowhere. Subscribers are
channels, counters, sample groups, DMA channels and log streams.
-/
namespace Sys2Proof.Machine
open Sys2Proof

/-- A capture for a counter's queue. -/
def counterCapture (n : Fin 32) (t : Time) (s : State) : State := s.modCnt n fun c => { c with fresh := c.fresh ++ [t] }

/-- A capture is appended with the count at the end of its cycle, or dropped and counted if four stand (R53, R55). -/
def appendCount (n : Fin 32) (s : State) (t : Time) : State :=
  if (s.cnt[n]).caps.length < 4 then
    let s := s.modCnt n fun c => { c with caps := c.caps ++ [⟨s.rd (CNT_VAL n), t⟩] }
    if s.flag (CNT_CAP_CTRL.svc n) && s.flag (CNT_BIND.en n) then s.cause (chanOf (s.get (CNT_BIND.channel n))) .capture
    else s
  else (s.incSat (CNT_CAP_CTRL.drops n)).raise (CNT_STAT.cap_ovf n)

/-- The captures of a cycle are appended after every removal of it (R54). -/
def takeCounts (n : Fin 32) (s : State) : State :=
  (s.cnt[n]).fresh.foldl (appendCount n) (s.modCnt n fun c => { c with fresh := [] })

/-- Event numbers that pulse (R22): 89–95 and 192–255 are reserved. -/
def eventExists (e : Nat) : Bool := e ≤ 88 || (96 ≤ e && e ≤ 191)

/-- A channel's WAIT subscription: EVENT at the first pulse after it took effect, and the subscription ends (R189,
R190). -/
def pulseChannel (e : Nat) (ch : Fin 512) (s : State) : State :=
  match (s.tlr.chan[ch]).sub with
  | some (n, since) =>
    if n.toNat = e ∧ since < s.tb.cyc then (s.modCh ch fun c => { c with sub := none }).cause ch .event else s
  | none => s

/-- A counter that captures event `e` (spec/02, capture queue). -/
def pulseCounter (e : Nat) (n : Fin 32) (s : State) : State :=
  if s.get (CNT_CAP_CTRL.src n) = 2 ∧ s.get (CNT_CAP_CTRL.sel n) = e then counterCapture n s.now s else s

def State.modGrp (s : State) (g : Fin 8) (f : Group → Group) : State :=
  { s with adc := { s.adc with grp := vmod s.adc.grp g f } }

/-- Remember that the group had an overrun, a missed target or a late trigger in this Tally (R279). -/
def flagGroup (g : Fin 8) (s : State) : State :=
  s.modGrp g fun x => if x.flagged.contains s.tally then x else { x with flagged := x.flagged ++ [s.tally] }

/-- A trigger of a group is dropped (R272, R273). -/
def groupOverrun (g : Fin 8) (s : State) : State :=
  flagGroup g ((s.incSat (ADC_GCNT.overrun g)).raise (ADC_GSTAT.overrun g))

/-- A sample group that an event triggers (R273): one event trigger may be pending, and a pulse while one is pending is an
overrun. -/
def pulseGroup (e : Nat) (g : Fin 8) (s : State) : State :=
  if s.flag (ADC_GCFG.en g) && s.flag (ADC_GCFG.evt_en g) && s.get (ADC_GEVT.event g) == e then
    if (s.adc.grp[g]).evt.isSome then groupOverrun g s
    else s.modGrp g fun x => { x with evt := some (s.now + BitVec.ofNat 64 (max 32 (s.get (ADC_GEVT.delay g)))) }
  else s

/-- One pulse of event `e` in the present cycle. A second cause of the same event in the same cycle gives no second pulse
(R24, R51). -/
def pulse (e : Nat) (s : State) : State :=
  if eventExists e = false ∨ s.pulses.contains e then s
  else
    let s := { s with pulses := s.pulses ++ [e] }
    let s := forAll 32 (pulseCounter e) (forAll 512 (pulseChannel e) s)
    forAll 16 (sealOnEvent e) (forAll 32 (pulseDma e) (forAll 8 (pulseGroup e) s))

end Sys2Proof.Machine
end

