-- ==== Sys2Proof/Machine/Fabric.lean ====
section
/-!
DEFINITION. Cells into the fabric and out of it (spec/15, R350–R355, R359, R370, R371): routes, port queues, and what a cell delivered to
this node sets off.
-/
namespace Sys2Proof.Machine
open Sys2Proof

def State.modSlo (s : State) (f : Sloulo → Sloulo) : State := { s with slo := f s.slo }
def State.modPort (s : State) (p : Fin 4) (f : SloPort → SloPort) : State :=
  s.modSlo fun x => { x with port := vmod x.port p f }

def State.sloAdmitted (s : State) : Bool := s.flag SLO_STAT.admitted
/-- This node's ID (R171, SLO_STAT.node_id). -/
def State.nodeId (s : State) : Fin 64 := Fin.ofNat 64 (s.get SLO_STAT.node_id)

/-- Port states (R356). -/
def portDownSt : Nat := 0
def portTrainSt : Nat := 1
def portUpSt : Nat := 2
def portDegradedSt : Nat := 3
def State.portState (s : State) (p : Fin 4) : Nat := s.get (SLO_PORT_STAT.state p)
/-- The port carries cells: UP, or DEGRADED for what has no other way (R375). -/
def State.portOpen (s : State) (p : Fin 4) : Bool := decide (2 ≤ s.portState p)

/-- Virtual channel of a cell (R351). -/
def cellVc : CellBody → Fin 4
  | .tooth _ => 0
  | .rpost .. | .revt _ | .goat .. | .notice .. => 1
  | .bulk .. => 2
  | _ => 3

/-- A discarded cell is counted in SLO_DISC. -/
def discardCell (f : Fld) (s : State) : State := (s.incSat f).raise SLO_STAT.discard

/-- A cell takes its place in a port's queue (R354). -/
def queueCell (p : Fin 4) (c : Cell) (s : State) : State :=
  s.modPort p fun x => { x with queue := vmod x.queue (cellVc c.body) fun q => q ++ [c] }

/-- The port a destination's cells take now: the alternate while it is in use (R374). -/
def State.routePort (s : State) (n : Fin 64) : Option (Fin 4) :=
  if s.flag (SLO_ROUTE.valid n) then
    some (Fin.ofNat 4 (if s.flag (SLO_ROUTE.alt_active n) then s.get (SLO_ROUTE.alt_port n) else s.get (SLO_ROUTE.pri_port n)))
  else none

/-- The port toward the timing parent (R361, R374); the root has none. -/
def State.parentPort (s : State) : Option (Fin 4) :=
  if s.flag SLO_STAT.root then none else s.routePort s.slo.rootId

/-- A cell goes out on its route, or is discarded as unreachable (R371). -/
def routeCell (c : Cell) (s : State) : State :=
  match s.routePort c.dst with
  | some p => if s.portOpen p then queueCell p c s else discardCell SLO_DISC.unreach s
  | none => discardCell SLO_DISC.unreach s

/-- A broadcast cell goes out on every tree port but the one it came by (R350, R361). -/
def floodTree (come : Option (Fin 4)) (c : Cell) (s : State) : State :=
  forAll 4 (fun p s => if (s.slo.tree)[p] && s.portOpen p && come != some p then queueCell p c s else s) s

/-- The mirrors of this node that follow a source domain (R366). -/
def State.mirrorOf (s : State) (node : Fin 64) (dom : Nat) (k : Fin 4) : Bool :=
  s.flag (SLO_MIR.en k) && s.get (SLO_MIR.src_node k) == node.val && s.get (SLO_MIR.src_dom k) == dom

/-- A cell of VC0 to VC2, a SUB or a HELLO reaches this node (R367, R370, R373, R362): the commands it sets off come in the next
cycle. -/
def deliverCell (c : Cell) (s : State) : State :=
  let next := s.tb.cyc + 1
  match c.body with
  | .tooth t =>
    forAll 4 (fun k s =>
      if s.mirrorOf c.src t.dom.toNat k && s.flag (SLO_MIR_STAT.subscribed k) then
        s.modDom (Fin.ofNat 8 (k.val + 4)) fun x => { x with cells := x.cells ++ [t] }
      else s) s
  | .rpost ch _ _ => s.post next (.rpostDelivery ch)
  | .revt m => s.post next (.revtDelivery m)
  | .goat cancel t => s.post next (.goatReceive c.src cancel t)
  | .notice _ k => s.post next (.noticeReceive k)
  | .bulk data post => s.post next (.bulkReceive c.src data post s.now)
  | .sub op d m => s.post next (.subReceive c.src op d m)
  | .hello _ => s.modSlo fun x => { x with helloTally := s.tally }
  | _ => s

/-- A cell of this node's own: discarded and counted while it is not admitted (R226, R359), delivered locally when it names this node
(R226, R370). -/
def sendCell (dst : Fin 64) (body : CellBody) (s : State) : State :=
  if s.sloAdmitted = false then discardCell SLO_DISC.unadmitted s
  else
    let c : Cell := ⟨false, dst, s.nodeId, body⟩
    if dst = s.nodeId then deliverCell c s else routeCell c s

/-- A broadcast cell of this node's own (R350, R370). -/
def sendAll (self : Bool) (body : CellBody) (s : State) : State :=
  if s.sloAdmitted = false then discardCell SLO_DISC.unadmitted s
  else
    let c : Cell := ⟨true, 0, s.nodeId, body⟩
    floodTree none c (if self then deliverCell c s else s)

/-- A release or its cancel goes to every other node (R58, R370). -/
def sendGoAt (cancel : Bool) (tally : Nat) (s : State) : State := sendAll false (.goat cancel (BitVec.ofNat 64 tally)) s
/-- A notice goes back to the originating node (R58). -/
def sendNotice (node : Fin 64) (k : Notice) (tally : Dword) (s : State) : State := sendCell node (.notice tally k) s
/-- A tooth report goes to every subscriber, each with its own sequence number (R367). -/
def sendTooth (d : Fin 8) (c : ToothCell) (s : State) : State :=
  let k : Fin 4 := Fin.ofNat 4 d.val
  let s' := ((s.slo.subs)[k]).foldl (fun s x => sendCell x.1 (.tooth { c with seq := x.2 }) s) s
  s'.modSlo fun x => { x with subs := vmod x.subs k fun l => l.map fun y => (y.1, y.2 + 1) }
/-- A remote post (R226, R370). -/
def sendRpost (node : BitVec 6) (ch src : Fin 512) (time : Time) (s : State) : State :=
  sendCell (Fin.ofNat 64 node.toNat) (.rpost ch src time) s
/-- A remote event to one node, or to every node with the sender (R226, R370). -/
def sendRevt (node : Option (BitVec 6)) (m : BitVec 5) (s : State) : State :=
  match node with
  | some n => sendCell (Fin.ofNat 64 n.toNat) (.revt m) s
  | none => sendAll true (.revt m) s

end Sys2Proof.Machine
end

