-- ==== Sys2Proof/Machine/Outcome.lean ====
section
/-!
DEFINITION. Drafts as the facets see them: how a draft's status follows from its facet's outcome (R129), the DRAFT cause
(R130) and the bookkeeping of pairs (R131).
-/
namespace Sys2Proof.Machine
open Sys2Proof

/-- Statuses 3–7 of R122. -/
def DraftStatus.terminal : DraftStatus → Bool
  | .free | .draft | .armed => false
  | _ => true

/-- The status numbers of R122. -/
def DraftStatus.code : DraftStatus → Nat
  | .free => 0 | .draft => 1 | .armed => 2 | .done => 3 | .lateDone => 4 | .dropped => 5 | .withdrawn => 6
  | .cancelled => 7

def State.draft (s : State) (d : Fin 8) (i : Fin 256) : Draft := (s.bzl[d]).drafts[i]

def State.modDraft (s : State) (d : Fin 8) (i : Fin 256) (f : Draft → Draft) : State :=
  s.modDom d fun x => { x with drafts := vmod x.drafts i f }

/-- DRAFT for the owner of an entry; the host gets none (R130). -/
def State.draftCause (s : State) (x : DraftSpec) : State := if x.hostOwn then s else s.cause x.owner .draft

/-- Entry `c` is a DRAFT entry of the same owner that names `i` as its opening edge (R131). -/
def Draft.pairsWith (c : Draft) (o : Draft) (i : Fin 256) : Bool :=
  c.status == .draft && c.spec.pairEn && c.spec.pair == i && c.spec.hostOwn == o.spec.hostOwn &&
    (c.spec.hostOwn || c.spec.owner == o.spec.owner)

/-- An entry reaches a terminal status: the status, its DRAFT cause, auto_free (R130), and the closing edges of a pair
whose opening edge failed (R131). `fuel` bounds the chain of pairs. -/
def draftEnd (fuel : Nat) (d : Fin 8) (i : Fin 256) (st : DraftStatus) (reason : BitVec 4) (s : State) : State :=
  let o := s.draft d i
  let s := s.modDraft d i fun x =>
    { x with status := st, reason := reason, time := if x.status = .armed then x.time else noTime }
  let s := if st = .done ∧ o.spec.notify = false then s else s.draftCause o.spec
  let s := if st = .done ∧ o.spec.autoFree then s.modDraft d i fun x => { x with status := .free, reason := 0 } else s
  match fuel with
  | 0 => s
  | fuel + 1 =>
    if st = .dropped ∨ st = .withdrawn ∨ st = .cancelled then
      forAll 256 (fun c s =>
        let x := s.draft d c
        if x.pairsWith o i && x.spec.dur != 0 && x.tO.isSome then draftEnd fuel d c .cancelled 8 s else s) s
    else s

/-- Record the time at which an opening edge takes effect in the closing edges that name it (R131). -/
def recordOpening (d : Fin 8) (i : Fin 256) (t : Time) (s : State) : State :=
  let o := s.draft d i
  s.modDom d fun x => { x with drafts := x.drafts.map fun c => if c.pairsWith o i then { c with tO := some t } else c }

/-- A facet's outcome for the armed entry of a draft (R129). A reason kept from a withdrawal stays (R131). -/
def draftOutcome (o : Option (Fin 8 × Fin 256)) (st : DraftStatus) (reason : BitVec 4) (s : State) : State :=
  match o with
  | none => s
  | some (d, i) =>
    let x := s.draft d i
    if x.status = .armed then
      let s := if st = .lateDone then recordOpening d i s.now s else s
      draftEnd 256 d i st (if x.reason = 0 then reason else x.reason) s
    else s

end Sys2Proof.Machine
end

