-- ==== Sys2Proof/Machine/Wheel.lean ====
section
/-!
DEFINITION. Input paths: the glitch filter, the edge-rate limiter and the stuck detector that facets and WHL inputs
share (R76–R81, R92), and the delivery of accepted edges to the Bezel's domains (R90, R95, R108).
-/
namespace Sys2Proof.Machine
open Sys2Proof

/-- A source of wheel edges. -/
inductive EdgeSource where
  | whl (n : Fin 8)
  | facet (n : Fin 256)
  deriving DecidableEq, Repr

/-- Remember the level sampled in cycle `cyc` where it differs from the one before; a longest filter ends 258 cycles after the transition, so 260
changes are enough. -/
def notePast (cyc : Nat) (lvl : Bool) (l : List (Nat × Bool)) : List (Nat × Bool) :=
  if ((l.head?.map (·.2)).getD false) = lvl then l else ((cyc, lvl) :: l).take 260

/-- The level sampled in cycle `cyc`. -/
def InPath.levelIn (p : InPath) (cyc : Nat) : Bool := ((p.past.find? fun x => decide (x.1 ≤ cyc)).map (·.2)).getD false

/-- The end-of-cycle sample of an input path (R76–R78, R464): `len` is the filter length, `cyc` the cycle, `g` its GTB,
`on` whether the input is on, `lvl` the level at the end of the cycle. -/
def InPath.sample (p : InPath) (len cyc : Nat) (g : Time) (on lvl : Bool) : InPath :=
  if on = false then
    { p with sampled := false, first := none, fl := false, run := none, flight := [], pipe := [false, false, false],
             filt := false, past := notePast cyc false p.past }
  else
    let b := { p with sampled := lvl, first := none, pipe := lvl :: p.pipe.take 2, past := notePast cyc lvl p.past }
    let t := p.first.getD g
    if p.starting then { b with starting := false, fl := lvl, run := none, flight := [⟨lvl, t, cyc + 3, true, cyc⟩] }
    else if lvl = p.fl then { b with run := none }
    else
      let r := p.run.getD ⟨t, cyc, 0⟩
      if len = 0 then { b with fl := lvl, run := none, flight := p.flight ++ [⟨lvl, t, cyc + 3, false, cyc⟩] }
      else if r.len + 1 ≥ len then
        { b with fl := lvl, run := none, flight := p.flight ++ [⟨lvl, r.time, r.cyc + 3 + len, false, r.cyc⟩] }
      else { b with run := some { r with len := r.len + 1 } }

/-- The accepted level changes: the stuck detector's run ends and stuck_now clears (R80, R81). A change in the `first` cycle of a Tally gives the
level of the whole Tally. -/
def InPath.setLevel (p : InPath) (first lvl : Bool) : InPath :=
  if p.filt = lvl then p else { p with filt := lvl, stuckCount := 0, stuckWhole := first, stuckFired := false }

/-- The input path in mode 0 (R464): a mute in force and the count of the Tally stay, since only R79 ends them. -/
def InPath.off (p : InPath) : InPath :=
  { InPath.reset with limTally := p.limTally, limCount := p.limCount, muteNow := p.muteNow, muteLatched := p.muteLatched,
                      muteUntil := p.muteUntil, past := p.past }

/-- What the edge-rate limiter makes of a transition (R79). -/
inductive Verdict where
  | accepted | muted | muteBegins
  deriving DecidableEq, Repr

/-- Judge a transition by its recorded time `t` (R79): `nowTally` is the Tally of the present cycle. -/
def InPath.judge (p : InPath) (t : Time) (nowTally max hold : Nat) (latch : Bool) : InPath × Verdict :=
  let k := tallyOf t
  if p.muteNow && p.muteLatched then (p, .muted)
  else if k < p.muteUntil then (p, .muted)
  else if max = 0 then (p, .accepted)
  else
    let n := if p.limTally = k then p.limCount else 0
    if n < max then ({ p with limTally := k, limCount := n + 1 }, .accepted)
    else
      ({ p with limTally := k, limCount := n, muteLatched := latch,
                muteUntil := if latch then 0 else k + hold + 1,
                muteNow := latch || decide (nowTally < k + hold + 1) }, .muteBegins)

/-- The end of a mute by unmute or max = 0: later transitions are judged afresh, and are counted afresh in their Tally, which R79 leaves open
(DESIGN CHOICE, log entry 59). -/
def InPath.endMute (p : InPath) : InPath := { p with muteNow := false, muteLatched := false, muteUntil := 0, limCount := 0 }

/-- The per-Tally count of the stuck detector at a boundary (R81): `lvl` is stuck_lvl. -/
def InPath.stuckTally (p : InPath) (on : Bool) (lvl : Bool) : InPath :=
  if on = false then { p with stuckCount := 0, stuckWhole := false }
  else { p with stuckCount := if p.filt = lvl && p.stuckWhole then p.stuckCount + 1 else 0, stuckWhole := true }

/-- Restart of the stuck detector by a write of stuck_lim or stuck_lvl (R81). -/
def InPath.stuckRestart (p : InPath) : InPath := { p with stuckCount := 0, stuckWhole := false, stuckFired := false }

/-- A transition whose acceptance falls due in cycle `cyc` (R76). -/
def InPath.dueFlight (p : InPath) (cyc : Nat) : Option Flight :=
  match p.flight with
  | f :: _ => if f.due ≤ cyc then some f else none
  | [] => none

/-- Edge polarity fields: 1 rising, 2 falling, 3 both. -/
def edgeSelected (sel : Nat) (rising : Bool) : Bool := if rising then sel % 2 = 1 else sel / 2 % 2 = 1

/-- The level of an edge source as sampled in cycle `cyc`, before its filter (DEDUCED, log entry 32). -/
def State.sourceLevel (s : State) (cyc : Nat) : EdgeSource → Bool
  | .whl n => (s.whl[n]).inp.levelIn cyc
  | .facet n => (s.fct[n]).inp.levelIn cyc

/-- The input of a domain's primary wheel (BZL_CFG). -/
def State.priSource (s : State) (d : Fin 8) : EdgeSource :=
  if s.get (BZL_CFG.pri_kind d) = 0 then .whl (Fin.ofNat 8 (s.get (BZL_CFG.pri_whl d)))
  else .facet (Fin.ofNat 256 (s.get (BZL_CFG.pri_facet d)))

/-- The input of secondary wheel `w` of a domain (BZL_SEC_CFGw). -/
def State.secSource (s : State) (d : Fin 8) (w : Fin 4) : EdgeSource :=
  if s.get (BZL_SEC_CFG.kind d w) = 0 then .whl (Fin.ofNat 8 (s.get (BZL_SEC_CFG.whl d w)))
  else .facet (Fin.ofNat 256 (s.get (BZL_SEC_CFG.facet d w)))

/-- The quadrature input of a domain (R108). -/
def State.dirSource (s : State) (d : Fin 8) : EdgeSource :=
  if s.get (BZL_DIR.dir_kind d) = 0 then .whl (Fin.ofNat 8 (s.get (BZL_DIR.dir_sel d)))
  else .facet (Fin.ofNat 256 (s.get (BZL_DIR.dir_sel d)))

/-- A secondary wheel that takes part: enabled, in a 720° domain (R95). -/
def State.secEnabled (s : State) (d : Fin 8) (w : Fin 4) : Bool :=
  s.flag (BZL_SEC_CFG.en d w) && s.get (BZL_CFG.cycle d) = 0

/-- An accepted edge of cycle `cyc` reaches one domain as a primary edge. With dir_mode 2 its direction is the quadrature level of that cycle; with
dir_mode 1 its direction waits for the trailing edge,
which is the next transition of the other polarity (R108). -/
def deliverPrimary (d : Fin 8) (src : EdgeSource) (t : Time) (cyc : Nat) (rising : Bool) (s : State) : State :=
  if s.priSource d ≠ src then s
  else if edgeSelected (s.get (BZL_CFG.pri_edge d)) rising then
    let rev : Option Bool :=
      match s.get (BZL_DIR.dir_mode d) with
      | 1 => none
      | 2 => some (s.sourceLevel cyc (s.dirSource d) != s.flag (BZL_DIR.dir_lvl d))
      | _ => some false
    s.modDom d fun x => { x with priIn := x.priIn ++ [⟨t, rev⟩] }
  else
    let width := s.get (BZL_DIR_WIDTH.rev_width d) * 8
    s.modDom d fun x => { x with priIn := x.priIn.map fun e =>
      if e.reverse = none then { e with reverse := some (decide (width ≤ t.toNat - e.time.toNat)) } else e }

/-- An accepted edge reaches one secondary wheel of one domain. -/
def deliverSecondary (d : Fin 8) (src : EdgeSource) (t : Time) (rising : Bool) (w : Fin 4) (s : State) : State :=
  if s.secEnabled d w ∧ s.secSource d w = src then
    s.modDom d fun x => { x with secIn := x.secIn ++ [⟨w, t, rising⟩] }
  else s

/-- An accepted edge, of cycle `cyc`, reaches every enabled local domain that names its input. -/
def bezelEdge (src : EdgeSource) (t : Time) (cyc : Nat) (rising : Bool) (s : State) : State :=
  forAll 4 (fun k s =>
    let d : Fin 8 := k.castLE (by decide)
    if s.flag (BZL_CTRL.en d) then forAll 4 (deliverSecondary d src t rising) (deliverPrimary d src t cyc rising s) else s) s

end Sys2Proof.Machine
end

