-- ==== Sys2Proof/Machine/Facet.lean ====
section
/-!
DEFINITION. Facets (spec/03): the armed queue and its compare units, safe state, captures, and the commands of the facet
and SAFE_N rows.
-/
namespace Sys2Proof.Machine
open Sys2Proof

/-! ### Holds and pads -/

/-- A facet is held safe (R72). -/
def State.held (s : State) (n : Fin 256) : Bool := s.flag FCT_GSAFE.held || s.parkHold || (s.fct[n]).hold

def State.fctMode (s : State) (n : Fin 256) : Nat := s.get (FCT_CTRL.mode n)
/-- Mode 2 or 3 (R60). -/
def State.fctOutput (s : State) (n : Fin 256) : Bool := s.fctMode n == 2 || s.fctMode n == 3

/-- What drives a pad when its output register holds `out`: a level, or none (high impedance). -/
def State.padDrive (s : State) (n : Fin 256) (out : Bool) : Option Bool :=
  if s.flag FCT_GSAFE.io_hold then
    (if (s.fct[n]).latched = 0 then some false else if (s.fct[n]).latched = 1 then some true else none)
  else if s.fctOutput n = false then none
  else if s.held n || !s.safeN then
    (match s.get (FCT_CTRL.safe_lvl n) with | 0 => some false | 1 => some true | _ => none)
  else if s.fctMode n = 2 then some out
  else if out then none else some false

/-- The level of a pad that the part does not drive: the outside's, or where it drives none the pull's (FCT_CTRL.pull); with no pull
either, an open value (log entry 44). -/
def State.padRest (s : State) (n : Fin 256) (ext : Option Bool) : Bool :=
  match ext with
  | some l => l
  | none => if s.get (FCT_CTRL.pull n) = 0 then Config.floatingPad n s.tb.cyc else decide (s.get (FCT_CTRL.pull n) = 2)

/-- The level of a pad: what drives it, or what the outside and the pull give it. -/
def State.padLevel (s : State) (n : Fin 256) : Bool := (s.padDrive n (s.fct[n]).out).getD (s.padRest n (s.fct[n]).ext)

/-- The output register as it stood at time `t` of the present cycle. -/
def Facet.outAt (f : Facet) (t : Time) : Bool :=
  match f.edges.find? fun e => decide (t < e.1) with
  | some e => !e.2
  | none => f.out

/-- What the outside drove at time `t` of the present cycle. -/
def Facet.extAt (f : Facet) (t : Time) : Option Bool :=
  match f.moves.find? fun m => decide (t < m.1) with
  | some m => m.2
  | none => f.ext

/-- The level of a pad at time `t` of the present cycle. -/
def State.padAt (s : State) (n : Fin 256) (t : Time) : Bool :=
  (s.padDrive n ((s.fct[n]).outAt t)).getD (s.padRest n ((s.fct[n]).extAt t))

/-- The first transition of a pad in the present cycle, by the phase in which it falls (R78): a phase of the cycle in which the pad has another
level than at the end of the cycle before. -/
def State.firstMove (s : State) (n : Fin 256) : Option Time :=
  ((List.range s.tb.inc).map fun k => s.now + BitVec.ofNat 64 k).find? fun t => s.padAt n t != (s.fct[n]).inp.sampled

/-- The safe level that Deep Park latches: 0 low, 1 high, 2 high impedance (R71, R75). -/
def State.safeLatch (s : State) (n : Fin 256) : BitVec 2 :=
  if s.fctOutput n then BitVec.ofNat 2 (s.get (FCT_CTRL.safe_lvl n)) else 2

/-! ### Causes and captures -/

/-- A facet's cause for its bound channel (R88): `en` is the cause's own enable. -/
def facetCause (n : Fin 256) (en : Fld) (c : Cause) (s : State) : State :=
  if s.flag (FCT_BIND.en n) && s.flag en then s.cause (chanOf (s.get (FCT_BIND.channel n))) c else s

/-- A capture for the facet's queue (R83). -/
def facetCapture (n : Fin 256) (t : Time) (rising : Bool) (s : State) : State :=
  if edgeSelected (s.get (FCT_CTRL.cap_edge n)) rising = false then s
  else s.modFct n fun f => { f with fresh := f.fresh ++ [⟨t, rising⟩] }

/-- A capture is appended, or dropped if eight stand (R83, R87). -/
def appendCapture (n : Fin 256) (s : State) (c : Capture) : State :=
  if (s.fct[n]).caps.length < 8 then
    facetCause n (FCT_BIND.cap_en n) .capture (s.modFct n fun f => { f with caps := f.caps ++ [c] })
  else (s.incSat (FCT_CAP_INFO.drops n)).raise (FCT_STAT.cap_ovf n)

/-- The captures of a cycle are appended after every removal of it (R86). -/
def takeCaptures (n : Fin 256) (s : State) : State :=
  (s.fct[n]).fresh.foldl (appendCapture n) (s.modFct n fun f => { f with fresh := [] })

/-! ### The armed queue -/

/-- d of R63: how far an entry's time lies ahead of the present cycle, in the low 40 bits. -/
def State.ahead (s : State) (t : Time) : Nat := ((t - s.now).toNat) % 2 ^ 40

/-- A tested entry acts in the present cycle, on time or late (R63). -/
def State.actsNow (s : State) (a : Armed) : Bool :=
  a.inUnit && (decide (s.ahead a.time < s.tb.inc) || decide (2 ^ 39 ≤ s.ahead a.time))

/-- Insert in time order, after entries of equal time (R61). -/
def insertArmed (a : Armed) : List Armed → List Armed
  | [] => [a]
  | b :: r => if a.time < b.time then a :: b :: r else b :: insertArmed a r

/-- An entry arrives at a facet (R61, R62, R68): a hold or a change of mode acts after every arrival of its cycle (R465). The places of entries
that leave in this cycle stay taken until the next (R69; log entry 15). -/
def arriveEntry (n : Fin 256) (x : ArmSpec) (s : State) : State :=
  let f := s.fct[n]
  let a : Armed := { time := x.time.getD s.nextNow, act := x.act, drop := x.drop, tag := x.tag, notify := x.notify,
                     origin := x.origin, inUnit := false }
  if f.wasOut = false ∨ (f.frozen = true ∧ s.held n = true) then
    draftOutcome x.origin .dropped 11 (s.raise (FCT_STAT.blocked n))
  else if f.queue.length + f.freed ≥ 4 then
    let s := facetCause n (FCT_BIND.late_en n) .late ((s.raise (FCT_STAT.late n)).raise (FCT_STAT.qfull n))
    if x.drop then draftOutcome x.origin .dropped 10 (s.raise (FCT_STAT.late_drop n))
    else s.modFct n fun f => { f with lateNext := f.lateNext ++ [a] }
  else s.modFct n fun f => { f with queue := insertArmed a f.queue }

/-- Remove entries selected by `p` that do not act in this cycle (R69); the drafts they come from end as given. -/
def removeEntries (n : Fin 256) (p : Armed → Bool) (st : DraftStatus) (reason : BitVec 4) (s : State) : State :=
  let f := s.fct[n]
  let gone := f.queue.filter fun a => p a && !s.actsNow a
  let s := s.modFct n fun f => { f with queue := f.queue.filter (fun a => !(p a && !s.actsNow a)),
                                        freed := f.freed + gone.length }
  gone.foldl (fun s a => draftOutcome a.origin st reason s) s

/-- Flush: every armed entry is removed; if any is, flushed is set and FLUSH raised (R69). -/
def flushQueue (n : Fin 256) (s : State) : State :=
  let any := (s.fct[n]).queue.any fun a => !s.actsNow a
  let s := removeEntries n (fun _ => true) .dropped 12 s
  if any then facetCause n (FCT_BIND.flush_en n) .flush (s.raise (FCT_STAT.flushed n)) else s

/-- Cancel by tag (R69). -/
def cancelTag (n : Fin 256) (tag : Byte) (s : State) : State := removeEntries n (fun a => a.tag == tag) .cancelled 0 s

/-- A hold begins on a facet: its queue is flushed now and again of what arrives later in this cycle (R72, R465). -/
def beginHold (n : Fin 256) (s : State) : State := flushQueue n (s.modFct n fun f => { f with purge := true })

/-- A hold of a facet has ended: if none remains, the output register is loaded from safe_lvl (R74). -/
def endHold (n : Fin 256) (s : State) : State :=
  if s.held n then s else s.modFct n fun f => { f with out := decide (s.get (FCT_CTRL.safe_lvl n) = 1) }

/-- An action on an output register at time `t` (R65); action 0 changes nothing, and a change back at the time of the last change leaves no
pulse. -/
def applyAct (act : BitVec 2) (t : Time) (f : Facet) : Facet :=
  let o := if act = 1 then true else if act = 2 then false else if act = 3 then !f.out else f.out
  if o = f.out then f
  else if (f.edges.getLast?.map (·.1)) = some t then { f with out := o, edges := f.edges.dropLast }
  else { f with out := o, edges := f.edges ++ [(t, o)] }

/-- A counter pin action at phase 0 of the present cycle (R51, R52). -/
def applyPinAction (p : PinAction) (s : State) : State :=
  let f := s.fct[p.facet]
  if s.fctOutput p.facet && s.flag (FCT_CTRL.cnt_act_en p.facet) && !(f.frozen || s.held p.facet) then
    s.modFct p.facet (applyAct p.act s.now)
  else s.raise (CNT_STAT.pin_blocked p.counter)

/-- One tested entry takes effect (R63): on time at its phase, late at phase 0 or discarded. -/
def fireEntry (n : Fin 256) (a : Armed) (s : State) : State :=
  let d := s.ahead a.time
  if d < s.tb.inc then
    let s := s.modFct n (applyAct a.act (s.now + BitVec.ofNat 64 (min d 7)))
    let s := s.raise (FCT_STAT.match' n)
    let s := if a.notify then facetCause n (FCT_BIND.match_en n) .match' s else s
    draftOutcome a.origin .done 0 s
  else
    let s := facetCause n (FCT_BIND.late_en n) .late (s.raise (FCT_STAT.late n))
    if a.drop then draftOutcome a.origin .dropped 9 (s.raise (FCT_STAT.late_drop n))
    else
      let s := s.modFct n (applyAct a.act s.now)
      let s := if a.notify then facetCause n (FCT_BIND.match_en n) .match' s else s
      draftOutcome a.origin .lateDone 9 s

/-- A LATE_FIRE entry that found the queue full acts at phase 0 of the cycle after its arrival (R68); a facet held since
the start of this cycle takes no action (R72). -/
def fireFull (n : Fin 256) (a : Armed) (s : State) : State :=
  if (s.fct[n]).frozen then draftOutcome a.origin .dropped 11 (s.raise (FCT_STAT.blocked n))
  else
    let s := s.modFct n (applyAct a.act s.now)
    let s := if a.notify then facetCause n (FCT_BIND.match_en n) .match' s else s
    draftOutcome a.origin .lateDone 10 s

/-- Phase at which a tested entry acts (R63): late entries act at phase 0. -/
def State.phaseOf (s : State) (a : Armed) : Nat := if s.ahead a.time < s.tb.inc then min (s.ahead a.time) 7 else 0

/-- The facet's own actions of the present cycle in the order of R65: entries at phase 0 in queue order, then entries that
found the queue full, then the later phases in order. -/
def compareFacet (n : Fin 256) (s : State) : State :=
  let f := s.fct[n]
  let acting := f.queue.filter s.actsNow
  let g := s
  let s := s.modFct n fun f => { f with queue := f.queue.filter (fun a => !g.actsNow a), freed := f.freed + acting.length, lateNow := [] }
  let s := (acting.filter fun a => g.phaseOf a = 0).foldl (fun s a => fireEntry n a s) s
  let s := f.lateNow.foldl (fun s a => fireFull n a s) s
  (List.range 7).foldl (fun s p =>
    (acting.filter fun a => g.phaseOf a = p + 1).foldl (fun s a => fireEntry n a s) s) s

/-! ### Accepted edges -/

/-- A counter fed by edges of a facet: it counts, and captures, an accepted edge (R42, R43, R53). -/
def addCount (n : Fin 32) (m : Nat) (s : State) : State :=
  let v := (s.rd (CNT_VAL n)).toNat
  let s := s.wr (CNT_VAL n) (BitVec.ofNat 32 (v + m))
  s.raiseIf (2 ^ 32 ≤ v + m) (CNT_STAT.wrap n)

/-- A field of the counter's control word as it stood at the end of the cycle before (R45). -/
def State.ctlWas (s : State) (n : Fin 32) (f : Fld) : Nat := fieldOf (s.cnt[n]).ctlPrev f

def counterEdge (f : Fin 256) (t : Time) (rising : Bool) (n : Fin 32) (s : State) : State :=
  let s := if s.ctlWas n (CNT_CTRL.run n) = 1 ∧ s.ctlWas n (CNT_CTRL.src n) = 1 ∧ s.ctlWas n (CNT_CTRL.sel n) = f.val ∧
      edgeSelected (s.ctlWas n (CNT_CTRL.edge n)) rising then addCount n 1 s else s
  if s.get (CNT_CAP_CTRL.src n) = 1 ∧ s.get (CNT_CAP_CTRL.sel n) = f.val ∧
      edgeSelected (s.get (CNT_CAP_CTRL.edge n)) rising then counterCapture n t s else s

/-- A routing slot that names the facet and the polarity pulses its event (R82). -/
def routeEdge (f : Fin 256) (rising : Bool) (k : Fin 32) (s : State) : State :=
  if s.flag (FCT_ROUTE.en k) && s.get (FCT_ROUTE.facet k) == f.val && edgeSelected (s.get (FCT_ROUTE.edge k)) rising then
    pulse (128 + k) s
  else s

/-- What an accepted, unmuted transition of cycle `cyc` makes: counter edges, capture, routed events, Bezel edge, log record (R76). A facet that is a
wheel input must be in mode 1 (R60); what it does to the Bezel in another mode is open, and there it gives no edge (DESIGN CHOICE, log entry 32). -/
def acceptedEdge (n : Fin 256) (t : Time) (cyc : Nat) (rising : Bool) (s : State) : State :=
  let s := forAll 32 (counterEdge n t rising) s
  let s := facetCapture n t rising s
  let s := forAll 32 (routeEdge n rising) s
  let s := if s.fctMode n = 1 then bezelEdge (.facet n) t cyc rising s else s
  logFacetEdge n t rising s

/-- The transition whose acceptance is due (R76, R79, R80). -/
def acceptFacetEdge (n : Fin 256) (s : State) : State :=
  match (s.fct[n]).inp.dueFlight s.tb.cyc with
  | none => s
  | some x =>
    let s := s.modFct n fun f => { f with inp := { f.inp with flight := f.inp.flight.drop 1 }.setLevel s.tb.boundary x.level }
    if x.silent then s
    else
      let (p, v) := (s.fct[n]).inp.judge x.time s.tally (s.get (FCT_RATE.max n)) (s.get (FCT_RATE.hold n))
        (s.flag (FCT_RATE.latch n))
      let s := s.modFct n fun f => { f with inp := p }
      match v with
      | .muted => s
      | .muteBegins =>
        facetCause n (FCT_BIND.mute_en n) .mute ((s.incSat (FCT_RATE.mute_cnt n)).raise (FCT_STAT.muted n))
      | .accepted => acceptedEdge n x.time x.cyc x.level s

/-! ### The commands of the facet rows -/

/-- EDGE_ACCEPT (R76): nothing happens unless a transition falls due. -/
def execEdgeAccept (n : Fin 256) (s : State) : Result := .next (acceptFacetEdge n s)

/-- A transition on a pad (R77, R78): the level the outside drives, or that it drives none, changes at a phase of this cycle. -/
def padTransition (n : Fin 256) (level : Option Bool) (phase : Nat) (s : State) : State :=
  s.modFct n fun f => { f with ext := level, moves := f.moves ++ [(s.now + BitVec.ofNat 64 phase, f.ext)] }

/-- FACET_CTRL_WRITE (R70, R464): a change of mode flushes the armed queue; leaving mode 0 starts the input path, taking
mode 0 stops it. -/
def facetCtrlWrite (n : Fin 256) (v : Word) (s : State) : State :=
  let old := s.fctMode n
  let s := s.plainWrite (FCT_CTRL n) v
  let new := s.fctMode n
  if new = old then s
  else
    let s := s.modFct n fun f =>
      if old = 0 then { f with inp := { f.inp with starting := true, flight := [], run := none } }
      else if new = 0 then { f with inp := f.inp.off } else f
    beginHold n s
def execFacetCtrlWrite (n : Fin 256) (v : Word) (s : State) : Result := .next (facetCtrlWrite n v s)

/-- SCHED_PUSH (R61, R62): a write of FCT_SCHED_CMD; with push = 1 an entry made of FCT_SCHED_TIME and the fields as
written. -/
def schedPush (n : Fin 256) (v : Word) (s : State) : State :=
  let s := s.plainWrite (FCT_SCHED_CMD n) v
  if fieldOf v (FCT_SCHED_CMD.push n) = 0 then s
  else
    arriveEntry n
      { time := if s.flag (FCT_SCHED_CMD.now n) then none else some (s.rd64 (FCT_SCHED_TIME n)),
        act := BitVec.ofNat 2 (s.get (FCT_SCHED_CMD.act n)), drop := s.flag (FCT_SCHED_CMD.policy n),
        tag := BitVec.ofNat 8 (s.get (FCT_SCHED_CMD.tag n)), notify := s.flag (FCT_SCHED_CMD.notify n), origin := none } s
def execSchedPush (n : Fin 256) (v : Word) (s : State) : Result := .next (schedPush n v s)

/-- ARMED_ENTRY_ARRIVAL (R62). An entry of a draft arrives only while its draft is ARMED (R132). -/
def armedEntryArrival (n : Fin 256) (x : ArmSpec) (s : State) : State :=
  match x.origin with
  | some (d, i) => if (s.draft d i).status = .armed then arriveEntry n x s else s
  | none => arriveEntry n x s
def execArmedEntryArrival (n : Fin 256) (x : ArmSpec) (s : State) : Result := .next (armedEntryArrival n x s)

/-- FACET_COMPARE_MATCH (R63–R66). -/
def execFacetCompareMatch (n : Fin 256) (s : State) : Result := .next (compareFacet n s)

/-- FACET_CANCEL (R69). -/
def execFacetCancel (n : Fin 256) (tag : Byte) (s : State) : Result := .next (cancelTag n tag s)
/-- FACET_FLUSH (R69). -/
def execFacetFlush (n : Fin 256) (s : State) : Result := .next (flushQueue n s)

/-- FACET_SAFE (R72): the facet's own hold begins. -/
def facetSafe (n : Fin 256) (s : State) : State :=
  let was := s.held n
  let s := s.modFct n fun f => { f with hold := true }
  if was then s else beginHold n s
def execFacetSafe (n : Fin 256) (s : State) : Result := .next (facetSafe n s)

/-- FACET_RELEASE (R74): the facet's own hold ends. -/
def facetRelease (n : Fin 256) (s : State) : State :=
  if (s.fct[n]).hold then endHold n (s.modFct n fun f => { f with hold := false }) else s
def execFacetRelease (n : Fin 256) (s : State) : Result := .next (facetRelease n s)

/-- FACET_UNMUTE (R79): a latched mute ends. -/
def facetUnmute (n : Fin 256) (s : State) : State :=
  s.modFct n fun f => if f.inp.muteNow && f.inp.muteLatched then { f with inp := f.inp.endMute } else f
def execFacetUnmute (n : Fin 256) (s : State) : Result := .next (facetUnmute n s)

/-- FACET_CLR_COUNTS (R87). -/
def facetClrCounts (n : Fin 256) (s : State) : State := (s.clear (FCT_CAP_INFO.drops n)).clear (FCT_RATE.mute_cnt n)
def execFacetClrCounts (n : Fin 256) (s : State) : Result := .next (facetClrCounts n s)

/-- CAP_CLEAR (R87). -/
def capClear (n : Fin 256) (s : State) : State := s.modFct n fun f => { f with caps := [] }
def execCapClear (n : Fin 256) (s : State) : Result := .next (capClear n s)

/-- A write of FCT_CMD (R69, R74, R79, R87): with both safe and release set, safe alone acts. -/
def facetCmdWrite (n : Fin 256) (v : Word) (s : State) : State :=
  let b (f : Fld) : Bool := fieldOf v f = 1
  let s := if b (FCT_CMD.cancel n) then cancelTag n (BitVec.ofNat 8 (fieldOf v (FCT_CMD.tag n))) s else s
  let s := if b (FCT_CMD.flush n) then flushQueue n s else s
  let s := if b (FCT_CMD.cap_clear n) then capClear n s else s
  let s := if b (FCT_CMD.clr_counts n) then facetClrCounts n s else s
  let s := if b (FCT_CMD.unmute n) then facetUnmute n s else s
  if b (FCT_CMD.safe n) then facetSafe n s else if b (FCT_CMD.release n) then facetRelease n s else s

/-- SAFE_N low is synchronised (R73): seen and held set, and the hold begins on every facet. -/
def safeNSync (s : State) : State :=
  let was := s.flag FCT_GSAFE.held
  let s := ((s.clear FCT_GSAFE.safe_n).raise FCT_GSAFE.seen).fault .safeN
  if was then s else forAll 256 beginHold (s.raise FCT_GSAFE.held)

/-- SAFE_N is low when the clock starts: it is synchronised then (R73). -/
def safeNStart (s : State) : State := if s.safeN then s else safeNSync s

/-- SAFE_N_FALL (R72, R73): pads go safe at once; while the clock runs SAFE_N is synchronised. -/
def safeNFall (s : State) : State :=
  let s := { s with safeN := false }
  if s.flag TB_STAT.pll_lock then safeNSync s else s.clear FCT_GSAFE.safe_n
def execSafeNFall (s : State) : Result := .next (safeNFall s)

/-- The global hold ends (R74). -/
def endGlobalHold (s : State) : State :=
  if s.flag FCT_GSAFE.held then forAll 256 endHold (s.clear FCT_GSAFE.held) else s

/-- SAFE_N_RISE (R74): with latch = 0 the global hold ends in the cycle after. -/
def safeNRise (s : State) : State := ({ s with safeN := true }).raise FCT_GSAFE.safe_n
def execSafeNRise (s : State) : Result := .next (safeNRise s)

/-- In the cycle after SAFE_N has been synchronised high, the global hold ends if latch = 0 (R74). -/
def globalHoldCycle (s : State) : State :=
  if s.flag FCT_GSAFE.held && s.flag FCT_GSAFE.safe_n && !s.flag FCT_GSAFE.latch then endGlobalHold s else s

/-- GLOBAL_SAFE_RELEASE (R74): ignored while SAFE_N is low. -/
def globalSafeRelease (s : State) : State := if s.flag FCT_GSAFE.safe_n then endGlobalHold s else s
def execGlobalSafeRelease (s : State) : Result := .next (globalSafeRelease s)

/-- SAFE_LOCK (R71). -/
def execSafeLock (s : State) : Result := .next (s.raise FCT_GSAFE.lock)
/-- IO_RELEASE (R75). -/
def execIoRelease (s : State) : Result := .next (s.clear FCT_GSAFE.io_hold)

/-- A write of FCT_GSAFE. -/
def gsafeWrite (v : Word) (s : State) : State :=
  let s := s.plainWrite FCT_GSAFE v
  let s := if fieldOf v FCT_GSAFE.io_release = 1 then s.clear FCT_GSAFE.io_hold else s
  if fieldOf v FCT_GSAFE.release = 1 then globalSafeRelease s else s

/-- MUTE_END (R79): an unlatched mute ends at its boundary. -/
def muteEnd (n : Fin 256) (s : State) : State :=
  s.modFct n fun f =>
    if f.inp.muteNow && !f.inp.muteLatched && decide (f.inp.muteUntil ≤ s.tally) then
      { f with inp := { f.inp with muteNow := false } } else f
def execMuteEnd (n : Fin 256) (s : State) : Result := .next (muteEnd n s)

/-- The stuck detector's condition holds and has not fired (R81). -/
def InPath.stuckDue (p : InPath) (lim : Nat) : Bool := lim != 0 && decide (lim ≤ p.stuckCount) && !p.stuckFired

/-- STUCK_DETECT (R81). -/
def stuckDetect (n : Fin 256) (s : State) : State :=
  if s.fctMode n ≠ 0 ∧ (s.fct[n]).inp.stuckDue (s.get (FCT_FILT.stuck_lim n)) then
    let s := s.modFct n fun f => { f with inp := { f.inp with stuckFired := true } }
    let s := facetCause n (FCT_BIND.stuck_en n) .stuck (s.raise (FCT_STAT.stuck n))
    s
  else s

/-- FILT_WRITE (R81): a write that changes stuck_lim or stuck_lvl restarts the stuck detector. -/
def filtWrite (n : Fin 256) (v : Word) (s : State) : State :=
  let a := (s.get (FCT_FILT.stuck_lim n), s.get (FCT_FILT.stuck_lvl n))
  let s := s.plainWrite (FCT_FILT n) v
  if a = (s.get (FCT_FILT.stuck_lim n), s.get (FCT_FILT.stuck_lvl n)) then s
  else s.modFct n fun f => { f with inp := f.inp.stuckRestart }
def execFiltWrite (n : Fin 256) (v : Word) (s : State) : Result := .next (filtWrite n v s)

/-- RATE_WRITE (R79): max = 0 ends any mute; hold and latch apply to later mutes. -/
def rateWrite (n : Fin 256) (v : Word) (s : State) : State :=
  let s := s.plainWrite (FCT_RATE n) v
  if s.get (FCT_RATE.max n) = 0 then s.modFct n fun f => { f with inp := f.inp.endMute } else s
def execRateWrite (n : Fin 256) (v : Word) (s : State) : Result := .next (rateWrite n v s)

/-- CAPTURE_POP (R84, R86): a host read of the FCT_CAP_TIME low word. -/
def capturePop (n : Fin 256) (s : State) : Word × State :=
  match (s.fct[n]).caps with
  | [] =>
    (loWord noTime, (s.wr (FCT_CAP_TIME n + 4) (hiWord noTime)).clear (FCT_CAP_INFO.valid n))
  | c :: r =>
    let s := if s.flag (FCT_CTRL.cap_owner n) then s else s.modFct n fun f => { f with caps := r }
    let s := s.wr (FCT_CAP_TIME n + 4) (hiWord c.time)
    (loWord c.time, (s.raise (FCT_CAP_INFO.valid n)).setBool (FCT_CAP_INFO.pol n) c.rising)
def execCapturePop (n : Fin 256) (s : State) : Result :=
  let (v, s) := capturePop n s
  .next { s with read := [v] }

/-- CAPTURE_REMOVAL (R85, R86, R208): the entries a routine read leave the head of the queue. -/
def captureRemoval (q : CapQueue) (k : Nat) (s : State) : State :=
  match q with
  | .facet n => s.modFct n fun f => { f with caps := f.caps.drop k }
  | .counter n => s.modCnt n fun c => { c with caps := c.caps.drop k }
def execCaptureRemoval (q : CapQueue) (k : Nat) (s : State) : Result := .next (captureRemoval q k s)

/-! ### Live register words -/

/-- FCT_LEVEL as read (spec/03); in mode 0 pad and filt read 0 (R464). -/
def facetLevel (n : Fin 256) (s : State) : Word :=
  let f := s.fct[n]
  let b (x : Bool) (k : Nat) : Nat := if x then 2 ^ k else 0
  let on := s.fctMode n != 0
  BitVec.ofNat 32 (f.queue.length * 2 ^ 16 + b f.inp.muteNow 5 + b f.inp.stuckFired 4 + b (s.held n) 3 + b f.out 2 +
    b (on && f.inp.filt) 1 + b (on && f.inp.pipe.getD 2 false) 0)

/-- Time of the earliest armed entry, or all ones (FCT_NEXT). -/
def facetNext (n : Fin 256) (s : State) : Time :=
  match (s.fct[n]).queue with
  | a :: _ => a.time
  | [] => noTime

/-- FCT_MUTED_SUMw. -/
def mutedSum (w : Nat) (s : State) : Word :=
  BitVec.ofNat 32 ((List.range 32).foldl (fun a i => if (s.fct[(Fin.ofNat 256 (32 * w + i))]).inp.muteNow then a + 2 ^ i else a) 0)

end Sys2Proof.Machine
end

