-- ==== Sys2Proof/Machine/Counter.lean ====
section
/-!
DEFINITION. Counters, GBL_GO, GBL_HALT and GBL_GO_AT (spec/02).
-/
namespace Sys2Proof.Machine
open Sys2Proof

/-- d of R48: how far a compare value lies ahead of the count. -/
def cmpAhead (c count : Word) : Nat := (c - count).toNat

/-- Write of a compare value: armed from the next cycle (R49, R50). -/
def compareWrite (n : Fin 32) (k : Fin 4) (v : Word) (s : State) : State :=
  (s.wr (CNT_CMP n k) v).modCnt n fun c => { c with cmp := vmod c.cmp k fun x => { x with nxt := some (some v) } }
/-- COMPARE_WRITE (R49). -/
def execCompareWrite (n : Fin 32) (k : Fin 4) (v : Word) (s : State) : Result := .next (compareWrite n k v s)

/-- Disarm from the next cycle (R50). -/
def compareDisarm (n : Fin 32) (k : Fin 4) (s : State) : State :=
  s.modCnt n fun c => { c with cmp := vmod c.cmp k fun x => { x with nxt := some none } }
/-- COMPARE_DISARM (R50). -/
def execCompareDisarm (n : Fin 32) (k : Fin 4) (s : State) : Result := .next (compareDisarm n k s)

/-- What takes effect at the end of a cycle for one compare: an armed value lies behind when d, against the count at the
end of the cycle, is 2³¹ or more (R49). -/
def Compare.settle (count : Word) (x : Compare) : Compare :=
  match x.nxt with
  | none => x
  | some none => { cur := none, nxt := none }
  | some (some v) => { cur := some (v, decide (2 ^ 31 ≤ cmpAhead v count)), nxt := none }

/-- An armed compare that the count has reached or passed (R48). -/
def Compare.due (count : Word) (x : Compare) : Bool :=
  match x.cur with
  | none => false
  | some (v, _) => cmpAhead v count == 0 || decide (2 ^ 31 ≤ cmpAhead v count)

/-- COUNTER_MATCH (R48, R49, R51): nothing happens unless compare k is due. COUNTER is raised once in a cycle. -/
def counterMatch (n : Fin 32) (k : Fin 4) (s : State) : State :=
  let x := (s.cnt[n]).cmp[k]
  if x.due (s.rd (CNT_VAL n)) = false then s
  else
    let late := match x.cur with | some (_, l) => l | none => false
    let s := s.modCnt n fun c => { c with cmp := vmod c.cmp k fun x => { x with cur := none } }
    let s := s.raise (bitFld (CNT_STAT n) k)
    let s := s.raiseIf late (bitFld (CNT_STAT n) (4 + k))
    let act := s.get (CNT_CMPCTL.pin_act n k)
    let s := if act = 0 then s else
      { s with pinActs := s.pinActs ++ [⟨n, k, Fin.ofNat 256 (s.get (CNT_CMPCTL.facet n k)), BitVec.ofNat 2 act⟩] }
    let s := if s.flag (CNT_CMPCTL.svc n k) && s.flag (CNT_BIND.en n) && !(s.cnt[n]).raised then
        (s.modCnt n fun c => { c with raised := true }).cause (chanOf (s.get (CNT_BIND.channel n))) .counter else s
    if s.flag (CNT_CMPCTL.evt n k) then pulse n s else s
def execCounterMatch (n : Fin 32) (k : Fin 4) (s : State) : Result := .next (counterMatch n k s)

/-- COUNTER_WRAP (R46): an increment taken by a running counter that stands at its last value. -/
def counterWrap (n : Fin 32) (s : State) : State :=
  if (s.rd (CNT_VAL n)).toNat = 2 ^ 32 - 1 ∧ s.ctlWas n (CNT_CTRL.run n) = 1 then addCount n 1 s else s
def execCounterWrap (n : Fin 32) (s : State) : Result := .next (counterWrap n s)

/-- run goes from 0 to 1: the divider restarts, and zero_on_go clears the count (R45). -/
def startRun (n : Fin 32) (s : State) : State :=
  let s := s.modCnt n fun c => { c with divPhase := 0, theta := none }
  if s.flag (CNT_CTRL.zero_on_go n) then s.wr (CNT_VAL n) 0 else s

/-- Set run (R56, R57). -/
def setRun (n : Fin 32) (s : State) : State :=
  if s.flag (CNT_CTRL.run n) then s else startRun n (s.raise (CNT_CTRL.run n))

/-- COUNTER_CTRL_WRITE (R45): a change of source, divider, selection or edge restarts the divider and keeps the count. -/
def counterCtrlWrite (n : Fin 32) (v : Word) (s : State) : State :=
  let old := s.rd (CNT_CTRL n)
  let ran := s.flag (CNT_CTRL.run n)
  let s := s.plainWrite (CNT_CTRL n) v
  let s := if (old ^^^ s.rd (CNT_CTRL n)) &&& 0xFFFFFFCE = 0 then s
    else s.modCnt n fun c => { c with divPhase := 0, theta := none }
  if s.flag (CNT_CTRL.run n) && !ran then startRun n s else s
def execCounterCtrlWrite (n : Fin 32) (v : Word) (s : State) : Result := .next (counterCtrlWrite n v s)

/-- COUNTER_VALUE_WRITE (R47): loads a stopped counter and applies the late test to its armed compares; ignored while
running. A compare that the new count has reached or passed matches in the cycle of the write (R48; R47 names no cycle: DESIGN CHOICE, log entry
60). -/
def counterValueWrite (n : Fin 32) (v : Word) (s : State) : State :=
  if s.flag (CNT_CTRL.run n) then s.raise (CNT_STAT.wr_ignored n)
  else (s.wr (CNT_VAL n) v).modCnt n fun c =>
    { c with cmp := c.cmp.map fun x => { x with cur := x.cur.map fun (w, l) => (w, l || decide (2 ^ 31 ≤ cmpAhead w v)) } }
def execCounterValueWrite (n : Fin 32) (v : Word) (s : State) : Result := .next (counterValueWrite n v s)

/-- A write of CNT_CMPCTLk: its fields, and disarm. -/
def cmpCtlWrite (n : Fin 32) (k : Fin 4) (v : Word) (s : State) : State :=
  let s := s.plainWrite (CNT_CMPCTL n k) v
  if fieldOf v (CNT_CMPCTL.disarm n k) = 1 then compareDisarm n k s else s

/-- COUNTER_CAPTURE_POP (R53, R54): a host read of the CNT_CAP_TIME low word. -/
def counterCapturePop (n : Fin 32) (s : State) : Word × State :=
  match (s.cnt[n]).caps with
  | [] => (loWord noTime, (s.wr (CNT_CAP_TIME n + 4) (hiWord noTime)).wr (CNT_CAP_VAL n) 0)
  | c :: r =>
    let s := s.modCnt n fun x => { x with caps := r }
    (loWord c.time, (s.wr (CNT_CAP_TIME n + 4) (hiWord c.time)).wr (CNT_CAP_VAL n) c.count)
def execCounterCapturePop (n : Fin 32) (s : State) : Result :=
  let (v, s) := counterCapturePop n s
  .next { s with read := [v] }

/-- CLR_DROPS (R55). -/
def execClrDrops (n : Fin 32) (s : State) : Result := .next (s.clear (CNT_CAP_CTRL.drops n))

/-- A write of CNT_CAP_CTRL. -/
def capCtrlWrite (n : Fin 32) (v : Word) (s : State) : State :=
  let s := s.plainWrite (CNT_CAP_CTRL n) v
  if fieldOf v (CNT_CAP_CTRL.clr_drops n) = 1 then s.clear (CNT_CAP_CTRL.drops n) else s

/-- Set run for every counter of a mask (R56). A counter halted in this very cycle goes on as if it had not been: the GO
applies. -/
def goMask (m : Word) (s : State) : State :=
  let was := s.haltNow
  let s := { s with goNow := s.goNow ||| m }
  forAll 32 (fun n s =>
    if m.getLsbD n then (if was.getLsbD n then s.raise (CNT_CTRL.run n) else setRun n s) else s) s
/-- GBL_GO (R56). -/
def execGblGo (m : Word) (s : State) : Result := .next (goMask m s)

/-- Clear run for every counter of a mask, but for those released in the same cycle (R56). -/
def haltMask (m : Word) (s : State) : State :=
  let go := s.goNow
  forAll 32 (fun n s =>
    if m.getLsbD n && !go.getLsbD n && s.flag (CNT_CTRL.run n) then
      ({ s with haltNow := s.haltNow ||| BitVec.twoPow 32 n }).clear (CNT_CTRL.run n) else s) s
/-- GBL_HALT (R56). -/
def execGblHalt (m : Word) (s : State) : Result := .next (haltMask m s)

/-- GO_AT_ARM (R57): capture the mask and the Tally, or refuse as busy or late; with fabric = 1 the Tally goes to every
other node (R58). -/
def goAtArm (s : State) : State :=
  match s.goAt with
  | some _ => s.raise GBL_GO_AT_STAT.busy
  | none =>
    let t := (s.rd64 GBL_GO_AT_TALLY).toNat
    let fab := s.flag GBL_GO_AT_CTRL.fabric
    if s.tally + 2 ≤ t then
      let s := if fab then sendGoAt false t s else s
      ({ s with goAt := some ⟨s.rd GBL_GO_AT_MASK, t, none, fab⟩ }).raise GBL_GO_AT_STAT.pending
    else s.raise GBL_GO_AT_STAT.late
def execGoAtArm (s : State) : Result := .next (goAtArm s)

/-- GO_AT_CANCEL (R57, R58): drop an outstanding request before its boundary. -/
def goAtCancel (s : State) : State :=
  match s.goAt with
  | none => s
  | some q =>
    if s.tally < q.tally then
      let s := if q.fabric && q.remote.isNone then sendGoAt true q.tally s else s
      ({ s with goAt := none }).clear GBL_GO_AT_STAT.pending
    else s
def execGoAtCancel (s : State) : Result := .next (goAtCancel s)

/-- GO_AT_RELEASE (R57): at the boundary of the named Tally, run is set for the masked counters. -/
def goAtRelease (s : State) : State :=
  match s.goAt with
  | none => s
  | some q =>
    if s.tb.boundary = true ∧ q.tally ≤ s.tally then
      let past := match q.remote with | some o => some (o, q.tally) | none => s.goDone
      (goMask q.mask (({ s with goAt := none, goDone := past }).clear GBL_GO_AT_STAT.pending)).raise GBL_GO_AT_STAT.done'
    else s
def execGoAtRelease (s : State) : Result := .next (goAtRelease s)

/-- A write of GBL_GO_AT_CTRL: cancel acts before arm (R57). -/
def goAtCtrlWrite (v : Word) (s : State) : State :=
  let s := s.plainWrite GBL_GO_AT_CTRL v
  let s := if fieldOf v GBL_GO_AT_CTRL.cancel = 1 then goAtCancel s else s
  if fieldOf v GBL_GO_AT_CTRL.arm = 1 then goAtArm s else s

/-- GOAT_RECEIVE (R58): a release or a cancel from another node. A cancel that comes after its release has been carried out is late too. A
release that meets two of the rule's cases gets the notice of the first that holds of: refused, busy, late (DESIGN CHOICE, log entry 60). -/
def goatReceive (origin : Fin 64) (cancel : Bool) (tally : Dword) (s : State) : State :=
  let t := tally.toNat
  if cancel then
    if s.goDone = some (origin, t) then sendNotice origin .cancelLate tally s
    else match s.goAt with
    | some q =>
      if q.remote = some origin ∧ q.tally = t then
        if s.tally + 1 < t then ({ s with goAt := none }).clear GBL_GO_AT_STAT.pending
        else sendNotice origin .cancelLate tally s
      else s
    | none => s
  else if s.flag GBL_GO_AT_CTRL.accept_remote = false then sendNotice origin .refused tally s
  else if s.goAt.isSome then sendNotice origin .busy tally (s.raise GBL_GO_AT_STAT.busy)
  else if t ≤ s.tally + 1 then sendNotice origin .late tally (s.raise GBL_GO_AT_STAT.late)
  else
    ({ s with goAt := some ⟨s.rd GBL_GO_AT_MASK, t, some origin, false⟩ }).raise GBL_GO_AT_STAT.pending
def execGoatReceive (origin : Fin 64) (cancel : Bool) (tally : Dword) (s : State) : Result :=
  .next (goatReceive origin cancel tally s)

/-- NOTICE_RECEIVE (R58). -/
def execNoticeReceive (k : Notice) (s : State) : Result :=
  .next (s.raise (match k with | .refused => GBL_GO_AT_STAT.remote_refused | _ => GBL_GO_AT_STAT.remote_late))

/-- CNT_CMPCTLk as read: armed is live. -/
def cmpCtlRead (n : Fin 32) (k : Fin 4) (s : State) : Word :=
  withField (s.rd (CNT_CMPCTL n k)) (CNT_CMPCTL.armed n k) ((s.cnt[n]).cmp[k]).cur.isSome.toNat

/-- CNT_STAT as read: capture depth, and angle_hold while an angle source has no angle to count (R44). -/
def cntStatRead (n : Fin 32) (s : State) : Word :=
  let d : Fin 8 := Fin.ofNat 8 (s.get (CNT_CTRL.sel n))
  let st := s.get (BZL_STATE.state d)
  let hold := s.get (CNT_CTRL.src n) == 2 && !(st == 2 || st == 3)
  withField (withField (s.rd (CNT_STAT n)) (CNT_STAT.cap_depth n) (s.cnt[n]).caps.length) (CNT_STAT.angle_hold n) hold.toNat

/-- Counting of the timebase divider in one cycle (R42, R45). -/
def countDivider (n : Fin 32) (s : State) : State :=
  if s.ctlWas n (CNT_CTRL.run n) = 1 ∧ s.ctlWas n (CNT_CTRL.src n) = 0 then
    let c := (s.cnt[n]).divPhase + 1
    if s.ctlWas n (CNT_CTRL.div n) + 1 ≤ c then addCount n 1 (s.modCnt n fun x => { x with divPhase := 0 })
    else s.modCnt n fun x => { x with divPhase := c }
  else s

/-- Counting of the Tally source at a boundary (R42, R45). -/
def countTally (n : Fin 32) (s : State) : State :=
  if s.ctlWas n (CNT_CTRL.run n) = 1 ∧ s.ctlWas n (CNT_CTRL.src n) = 3 then addCount n 1 s else s

/-- Counting of angle ticks up to the running angle `th` (1/16 au) of the counter's domain: the 2ˢ-au boundaries crossed
since the last angle counted (R42, R44). `step`: the change is no shaft motion and is not counted. -/
def countAngle (n : Fin 32) (th : Nat) (step : Bool) (s : State) : State :=
  if s.ctlWas n (CNT_CTRL.run n) = 1 ∧ s.ctlWas n (CNT_CTRL.src n) = 2 then
    let unit := 16 * 2 ^ (s.ctlWas n (CNT_CTRL.div n) % 32)
    match (s.cnt[n]).theta with
    | none => s.modCnt n fun x => { x with theta := some th }
    | some was =>
      let s := s.modCnt n fun x => { x with theta := some th }
      if step ∨ th ≤ was then s else addCount n (th / unit - was / unit) s
  else s

end Sys2Proof.Machine
end

