-- ==== Sys2Proof/Machine/BezelAngle.lean ====
section
/-!
DEFINITION. Angles of a domain: wheel tables and positions (R93, R94), the predictor and the live position (R118–R120),
and the tooth map (R111–R113).
-/
namespace Sys2Proof.Machine
open Sys2Proof

/-- A crank revolution in au (R7). -/
def rev1 : Nat := 737280

/-! ### Tables -/

/-- Slots of the primary wheel: N = BZL_CFG.slots + 1. -/
def State.slots (s : State) (d : Fin 8) : Nat := s.get (BZL_CFG.slots d) + 1

/-- A field of a setting as the last edge decision of the domain found it (R96). -/
def State.inForce (s : State) (d : Fin 8) (w : DomCfg → Word) (f : Fld) : Nat := fieldOf (w (s.bzl[d]).cfg) f

/-- The settings take effect at an edge decision (R96), and when the domain is enabled. -/
def takeSettings (d : Fin 8) (s : State) : State :=
  let c : DomCfg := { winNorm := s.rd (BZL_WIN_NORM d), winGap := s.rd (BZL_WIN_GAP d), sync := s.rd (BZL_SYNC d), stall := s.rd (BZL_STALL d),
                      limp := s.rd (BZL_LIMP d), bind := s.rd (BZL_BIND d) }
  s.modDom d fun x => { x with cfg := c }

/-- A one-bit field of BZL_SYNC in force. -/
def State.syncFlag (s : State) (d : Fin 8) (f : Fld) : Bool := s.inForce d (·.sync) f == 1

/-- Cycle length in au (R94). A mirror takes it from its source (R367). -/
def State.cycleAu (s : State) (d : Fin 8) : Nat :=
  if 4 ≤ d.val then (if (s.bzl[d]).mirCycle then rev1 else 2 * rev1)
  else if s.flag (BZL_CFG.cycle d) then rev1 else 2 * rev1

/-- The cycle in 1/16 au. -/
def State.cycle16 (s : State) (d : Fin 8) : Nat := 16 * s.cycleAu d

/-- Entry `i` of the primary table; unwritten entries are 0. -/
def State.priEntry (s : State) (d : Fin 8) (i : Nat) : Word := Sparse.get (fun _ => 0) (s.bzl[d]).pri i

/-- Entry `j` of the table of secondary wheel `w`. -/
def State.secEntry (s : State) (d : Fin 8) (w j : Nat) : Word := Sparse.get (fun _ => 0) (s.bzl[d]).sec (64 * w + j)

def State.present (s : State) (d : Fin 8) (i : Nat) : Bool := (s.priEntry d i).getLsbD 31

/-- Nominal angle of slot `i` (R93). -/
def State.nom (s : State) (d : Fin 8) (i : Nat) : Nat :=
  if s.flag (BZL_CFG.uniform d) then i * rev1 / s.slots d else (s.priEntry d i).toNat % 2 ^ 20

/-- map[i] of R94, in 1/16 au: 0 unless BZL_MAP_CTRL.use = 1. -/
def State.mapOf (s : State) (d : Fin 8) (i : Nat) : Int :=
  if s.flag (BZL_MAP_CTRL.use d) then Sparse.get (fun _ => 0) (s.bzl[d]).mapA i else 0

/-- The next present slot after `i`, going forward. -/
def State.nextSlot (s : State) (d : Fin 8) (i : Nat) : Nat :=
  let n := s.slots d
  (((List.range n).map fun k => (i + 1 + k) % n).find? (s.present d)).getD i

/-- The present slot before `i`. -/
def State.prevSlot (s : State) (d : Fin 8) (i : Nat) : Nat :=
  let n := s.slots d
  (((List.range n).map fun k => (i + (n - 1) * (k + 1)) % n).find? (s.present d)).getD i

/-- A gap tooth: present, with a missing slot before it. -/
def State.gapTooth (s : State) (d : Fin 8) (i : Nat) : Bool := !s.present d ((i + s.slots d - 1) % s.slots d)

/-- The normal window in force. -/
def State.windowNorm (s : State) (d : Fin 8) : Nat × Nat :=
  (s.inForce d (·.winNorm) (BZL_WIN_NORM.lo d), s.inForce d (·.winNorm) (BZL_WIN_NORM.hi d))

/-- The gap window in force. -/
def State.windowGap (s : State) (d : Fin 8) : Nat × Nat :=
  (s.inForce d (·.winGap) (BZL_WIN_GAP.lo d), s.inForce d (·.winGap) (BZL_WIN_GAP.hi d))

/-- The window that applies to expected slot `i`, as (lo, hi) in Q4.12 (R97). -/
def State.window (s : State) (d : Fin 8) (i : Nat) : Nat × Nat :=
  if s.gapTooth d i then s.windowGap d else s.windowNorm d

/-- S_ref, Q4.12 (R93): the span of the reference gap over the mean slot angle. A span of 16 mean slots or more does not fit Q4.12; it is kept
unbounded (DESIGN CHOICE, log entry 31). -/
def State.sRef (s : State) (d : Fin 8) : Nat := (rev1 - s.nom d (s.prevSlot d 0)) * s.slots d * 4096 / rev1

/-- Position of slot `i` in revolution `r`, in 1/16 au (R94). -/
def State.pos16 (s : State) (d : Fin 8) (r : Bool) (i : Nat) : Nat :=
  let c := s.cycle16 d
  let r := if r && s.cycleAu d = 2 * rev1 then 16 * rev1 else 0
  (((16 * (s.get (BZL_REF_ANGLE.angle d) + s.nom d i) + r : Nat) + s.mapOf d i) % (c : Int)).toNat

/-- How far position `q` lies ahead of `p`, going forward: more than 0, at most a cycle. -/
def gap16 (c p q : Nat) : Nat := if q % c = p % c then c else (q % c + c - p % c) % c

/-- The angle from slot `i` forward to slot `j`, at most a revolution, with the tooth map (R120), in 1/16 au. -/
def State.toothSpan (s : State) (d : Fin 8) (i j : Nat) : Nat :=
  let at' (k : Nat) : Nat := (((16 * s.nom d k : Nat) + s.mapOf d k) % (16 * rev1 : Int)).toNat
  gap16 (16 * rev1) (at' i) (at' j)

/-- The present slot after (i, r), with r toggled where slot 0 is crossed (R94). -/
def State.nextTooth (s : State) (d : Fin 8) (x : Nat × Bool) : Nat × Bool :=
  let j := s.nextSlot d x.1
  (j, if j ≤ x.1 && s.cycleAu d = 2 * rev1 then !x.2 else x.2)

/-- Running angles of the next `k` present slots after (i, r) at `th` (R126). -/
def State.aheadSlots (s : State) (d : Fin 8) : Nat → Nat × Bool → Nat → List Nat
  | 0, _, _ => []
  | k + 1, x, th =>
    let y := s.nextTooth d x
    let th' := th + gap16 (s.cycle16 d) (s.pos16 d x.2 x.1) (s.pos16 d y.2 y.1)
    th' :: s.aheadSlots d k y th'

/-- Edges in the pattern of secondary wheel `w`. -/
def State.secEdges (s : State) (d : Fin 8) (w : Nat) : Nat := s.get (BZL_SEC_CFG.edges d w) + 1
def State.secAngle (s : State) (d : Fin 8) (w j : Nat) : Nat := (s.secEntry d w j).toNat % 2 ^ 21
def State.secRising (s : State) (d : Fin 8) (w j : Nat) : Bool := (s.secEntry d w j).getLsbD 30

/-- The entry of wheel 0 with sync = 1. -/
def State.syncEntry (s : State) (d : Fin 8) : Nat :=
  ((List.range (s.secEdges d 0)).find? fun j => (s.secEntry d 0 j).getLsbD 29).getD 0

/-- The next wheel-0 entry, cyclically. -/
def State.nextCam (s : State) (d : Fin 8) (j : Nat) : Nat := (j + 1) % s.secEdges d 0

/-- The angle from wheel-0 entry `i` to entry `j`, going forward, in 1/16 au. -/
def State.camGap (s : State) (d : Fin 8) (i j : Nat) : Nat :=
  gap16 (s.cycle16 d) (16 * s.secAngle d 0 i) (16 * s.secAngle d 0 j)

/-- Running angles of the next `k` wheel-0 pattern edges after entry `j` at `th` (R126). -/
def State.aheadCams (s : State) (d : Fin 8) : Nat → Nat → Nat → List Nat
  | 0, _, _ => []
  | k + 1, j, th =>
    let j' := s.nextCam d j
    let th' := th + s.camGap d j j'
    th' :: s.aheadCams d k j' th'

/-- Position at wheel-0 entry `j` in LIMP_CAM (R105), in 1/16 au. -/
def State.limpPos16 (s : State) (d : Fin 8) (j : Nat) : Nat :=
  (16 * ((s.secAngle d 0 j : Int) + (s.bzl[d]).phiF) % (s.cycle16 d : Int)).toNat

/-! ### Validation (R93) -/

/-- Lengths of the runs of missing slots that end just before a present slot, by that slot. -/
def State.runBefore (s : State) (d : Fin 8) (i : Nat) : Nat :=
  let n := s.slots d
  (((List.range n).map fun k => (i + (n - 1) * (k + 1)) % n).takeWhile fun j => !s.present d j).length

def strictly (f : Nat → Nat) (n : Nat) : Bool := (List.range (n - 1)).all fun i => f i < f (i + 1)

/-- Two wheel-0 entries of one polarity of which one would match where the other is expected a revolution away. -/
def State.camAmbiguous (s : State) (d : Fin 8) (i j : Nat) : Bool :=
  let c : Int := 2 * rev1
  let x : Int := ((s.secAngle d 0 j : Int) - s.secAngle d 0 i - rev1) % c
  let dist : Int := min x (c - x)
  i != j && s.secRising d 0 i == s.secRising d 0 j &&
    decide (dist ≤ (s.rd (BZL_SEC_PMAX d 0)).toInt - (s.rd (BZL_SEC_PMIN d 0)).toInt)

/-- The checks of R93. -/
def State.tablesValid (s : State) (d : Fin 8) : Bool :=
  let n := s.slots d
  let full := s.cycleAu d = 2 * rev1
  let w0 := s.secEnabled d 0
  let angles := s.flag (BZL_CFG.uniform d) ||
    (s.nom d 0 == 0 && strictly (s.nom d) n && decide (s.nom d (n - 1) < rev1))
  let ref :=
    if s.flag (BZL_CFG.sync_mode d) then
      full && w0 && ((List.range (s.secEdges d 0)).filter fun j => (s.secEntry d 0 j).getLsbD 29).length == 1
    else
      let k := s.runBefore d 0
      decide (1 ≤ k) && ((List.range n).all fun i => i == 0 || !s.present d i || s.runBefore d i != k)
  let sec := !full || (List.finRange 4).all fun w =>
    !s.secEnabled d w || (strictly (s.secAngle d w) (s.secEdges d w) &&
      decide (s.secAngle d w (s.secEdges d w - 1) < 2 * rev1))
  let amb := !(full && w0) || (List.range (s.secEdges d 0)).all fun i =>
    (List.range (s.secEdges d 0)).all fun j => !s.camAmbiguous d i j
  angles && s.present d 0 && ref && decide (s.get (BZL_REF_ANGLE.angle d) < s.cycleAu d) && sec && amb &&
    (!full || w0 || s.flag (BZL_SYNC.no_cam d))

/-! ### The predictor (R120) -/

/-- tau(φ), Q32.32. -/
def Predictor.tau (p : Predictor) (phi : Nat) : Int :=
  if phi ≤ p.dn then p.q0 * phi + ((p.s * phi * phi) >>> 17)
  else p.q0 * p.dn + ((p.s * p.dn * p.dn) >>> 17) + p.qn * ((phi : Int) - p.dn)

/-- round(tau(φ)) in GTB units. -/
def Predictor.span (p : Predictor) (phi : Nat) : Nat := ((p.tau phi + 2 ^ 31) >>> 32).toNat

/-- The largest φ in lo..lo + n whose predicted span is at most `g`, by halving; `fuel` is the number of halvings. -/
def Predictor.reach (p : Predictor) (g : Nat) : Nat → Nat → Nat → Nat
  | 0, lo, _ => lo
  | fuel + 1, lo, n =>
    if n = 0 then lo
    else
      let m := (n + 1) / 2
      if p.span (lo + m) ≤ g then p.reach g fuel (lo + m) (n - m) else p.reach g fuel lo (m - 1)

/-- φ* bounded by `top`. -/
def Predictor.phiStar (p : Predictor) (g top : Nat) : Nat := p.reach g 33 0 top

/-- Signed quotient, truncated toward zero. -/
def quot (a b : Int) : Int := a.tdiv b

/-- The predictor from the accepted edges held, newest first; `zero` forces s = 0. The second result says that s was
limited. Edges at one running angle, which only a mirror can hold, give no prediction (DESIGN CHOICE, log entry 34). -/
def predict (hist : List EdgePoint) (zero : Bool) (dn gain lim : Nat) : Option (Predictor × Bool) :=
  match hist with
  | k :: k1 :: rest =>
    let dk := k.theta - k1.theta
    if dk = 0 then none
    else
    let tk := min (k.time.toNat - k1.time.toNat) (2 ^ 32 - 1)
    let ql : Int := (tk * 2 ^ 32 / dk : Nat)
    let (s, sat) : Int × Bool :=
      match zero, rest with
      | false, k2 :: _ =>
        let dk1 := k1.theta - k2.theta
        let tk1 := min (k1.time.toNat - k2.time.toNat) (2 ^ 32 - 1)
        let qp : Int := (tk1 * 2 ^ 32 / dk1 : Nat)
        let s := quot ((ql - qp) * gain * 4) ((dk + dk1 : Nat))
        let l := quot (ql * lim * 512) ((dk + 2 * dn : Nat))
        if l < s then (l, true) else if s < -l then (-l, true) else (s, false)
      | _, _ => (0, false)
    let q0 := ql + ((s * dk) >>> 17)
    let qn := q0 + ((s * dn) >>> 16)
    let p : Predictor := { q0 := q0, qn := qn, s := s, dn := dn, p := 0 }
    some ({ p with p := min (p.span dn) (2 ^ 32 - 1) }, sat)
  | _ => none

/-- Θ_k. -/
def Domain.thetaK (x : Domain) : Nat := match x.hist with | e :: _ => e.theta | [] => 0
/-- t_k. -/
def Domain.tK (x : Domain) : Time := match x.hist with | e :: _ => e.time | [] => noTime

def State.dState (s : State) (d : Fin 8) : Nat := s.get (BZL_STATE.state d)
def stSeek : Nat := 0
def stGap : Nat := 1
def stSync : Nat := 2
def stLimp : Nat := 3
def stStall : Nat := 4
def stReverse : Nat := 5
def stLost : Nat := 6

/-- SYNC or LIMP_CAM: the states in which angle has a meaning (R102, R119). -/
def State.tracking (s : State) (d : Fin 8) : Bool := s.dState d == stSync || s.dState d == stLimp

/-- φ of the live position past Θ_k (R119). -/
def State.livePhi (s : State) (d : Fin 8) : Nat :=
  match (s.bzl[d]).pred with
  | some p => if s.tracking d && decide ((s.bzl[d]).tK ≤ s.now) then p.phiStar (s.now.toNat - (s.bzl[d]).tK.toNat) p.dn else 0
  | none => 0

/-- Θ_live (R119). -/
def State.liveTheta (s : State) (d : Fin 8) : Nat := (s.bzl[d]).thetaK + s.livePhi d

/-- BZL_LIVE. Outside SYNC and LIMP_CAM it is BZL_POS. -/
def State.live (s : State) (d : Fin 8) : Word :=
  if s.tracking d then BitVec.ofNat 32 (s.liveTheta d % s.cycle16 d / 16) else s.rd (BZL_POS d)

/-- BZL_INTERP_STAT.clamped: the live position holds at the next expected edge. -/
def State.clamped (s : State) (d : Fin 8) : Bool :=
  match (s.bzl[d]).pred with
  | some p => s.tracking d && decide (s.livePhi d = p.dn)
  | none => false

/-- BZL_PRED. -/
def State.predWord (s : State) (d : Fin 8) : Word :=
  match (s.bzl[d]).pred with | some p => BitVec.ofNat 32 p.p | none => BitVec.allOnes 32

/-- The running angle at time `t` by the rule of R211: past edge k without a clamp and within a cycle, between edges
k − 1 and k on a straight line, none elsewhere. -/
def Domain.angleAt (x : Domain) (c16 : Nat) (t : Time) : Option Nat :=
  match x.hist, x.pred with
  | k :: k1 :: _, some p =>
    if k.time ≤ t then
      let g := t.toNat - k.time.toNat
      if p.span (c16 - 1) < g then none else some (k.theta + p.phiStar g (c16 - 1))
    else if k1.time ≤ t then
      some (k1.theta + (k.theta - k1.theta) * (t.toNat - k1.time.toNat) / (k.time.toNat - k1.time.toNat))
    else none
  | _, _ => none

/-- The target's running angle (R124). -/
def targetOf (c16 thetaK angle : Nat) : Nat := thetaK + gap16 c16 thetaK (16 * angle)

/-- time(Θ_t − Θ_k), or t_k for a target at or behind Θ_k (R126). -/
def Domain.timeOf (x : Domain) (target : Nat) : Time :=
  match x.pred with
  | some p => if x.thetaK < target then x.tK + BitVec.ofNat 64 (p.span (target - x.thetaK)) else x.tK
  | none => noTime

/-- Compute the predictor anew from the edges held (R120). -/
def refreshPredictor (d : Fin 8) (s : State) : State :=
  let x := s.bzl[d]
  let dn := (x.ahead.headD x.thetaK) - x.thetaK
  match predict x.hist (x.intervals < 2) dn (s.get (BZL_INTERP.acc_gain d)) (s.get (BZL_INTERP.acc_lim d)) with
  | none => s.modDom d fun x => { x with pred := none }
  | some (p, sat) => (s.modDom d fun x => { x with pred := some p }).raiseIf sat (BZL_INTERP_STAT.acc_sat d)

/-! ### The tooth map (R111–R113) -/

/-- A cause for the bound channel (R117), by the setting of BZL_BIND in force; `en` is the cause's own enable. -/
def bezelCause (d : Fin 8) (en : Fld) (c : Cause) (s : State) : State :=
  let bind (f : Fld) : Nat := s.inForce d (·.bind) f
  if bind (BZL_BIND.en d) = 1 ∧ bind en = 1 then s.cause (chanOf (bind (BZL_BIND.channel d))) c else s

/-- A written or cleared map that waits is applied (R113). -/
def applyWrittenMap (d : Fin 8) (s : State) : State :=
  match (s.bzl[d]).mapPending with
  | none => s
  | some written =>
    (s.modDom d fun x => { x with mapA := x.mapW, mapPending := none }).setBool (BZL_STATE.map_valid d) written

/-- At a forward slot 0 edge the applied map takes what waits: a learned block, which raises MAP (R112, R117), then a written or cleared map. -/
def installMap (d : Fin 8) (s : State) : State :=
  let s := match (s.bzl[d]).mapInstall with
    | some m =>
      bezelCause d (BZL_BIND.map_en d) .map
        (((s.modDom d fun x => { x with mapW := m, mapA := m, mapInstall := none }).raise (BZL_FLAGS.map_done d)).raise
          (BZL_STATE.map_valid d))
    | none => s
  applyWrittenMap d s

/-- A signed value of 32 bits (s32). -/
def wrap32 (x : Int) : Int := (BitVec.ofInt 32 x).toInt

/-- What one edge adds to its accumulator (R111). -/
def learnError (ta tb : Nat) (start t : Time) (nom : Nat) : Int :=
  let c := wrap32 (quot (((ta : Int) - tb) * tb * 2 ^ 30) (ta * (ta + tb) : Nat))
  let f : Nat := (t.toNat - start.toNat) * 2 ^ 32 / tb % 2 ^ 32
  let g : Nat := f * (2 ^ 32 - f) / 2 ^ 32
  let phi : Int := (f : Int) - ((c * (g : Int)) >>> 30)
  wrap32 (((phi * 737280 * 16 + 2 ^ 31) >>> 32) - nom * 16)

/-- A whole block of 256 revolutions: install it at the next slot 0, or discard it (R112). -/
def closeBlock (d : Fin 8) (s : State) : State :=
  let x := s.bzl[d]
  let m : Sparse Int := (x.learn.acc.map fun (i, a) => (i, (a + 128) >>> 8)).filter fun p => p.2 != 0
  let bad := m.any fun p => decide (s.get (BZL_MAP_CTRL.err_lim d) < p.2.natAbs)
  let s := s.modDom d fun x => { x with learn := { x.learn with acc := [], count := 0 } }
  if bad then bezelCause d (BZL_BIND.map_en d) .map (s.raise (BZL_FLAGS.map_err d))
  else s.modDom d fun x => { x with mapInstall := some m,
                                    learn := { x.learn with stopped := s.get (BZL_MAP_CTRL.mode d) = 1 } }

/-- A revolution has ended at a forward slot 0 edge at `t` (R111); one that SYNC did not hold throughout is rejected, whatever the state now. -/
def closeRevolution (d : Fin 8) (t : Time) (s : State) : State :=
  let l := (s.bzl[d]).learn
  let mode := s.get (BZL_MAP_CTRL.mode d)
  let s := installMap d s
  match l.start with
  | none => s.modDom d fun x => { x with learn := { x.learn with start := some t, edges := [], whole := s.dState d = stSync } }
  | some t0 =>
    let tb := t.toNat - t0.toNat
    let learning := (mode == 1 || mode == 2) && !l.stopped
    let steady := match l.prev with
      | some ta => decide (1024 * ((tb : Int) - ta).natAbs ≤ s.get (BZL_MAP_CTRL.learn_lim d) * ta)
      | none => false
    let s := if learning = false then s
      else if l.whole && s.dState d == stSync && steady then
        let ta := l.prev.getD tb
        let s := s.modDom d fun x => { x with learn := { x.learn with
          count := x.learn.count + 1,
          acc := l.edges.foldl (fun a (i, ti) =>
            Sparse.put (fun _ => 0) a i (wrap32 (Sparse.get (fun _ => 0) a i + learnError ta tb t0 ti (s.nom d i)))) x.learn.acc } }
        if (s.bzl[d]).learn.count ≥ 256 then closeBlock d s else s
      else s.incSat (BZL_MAP_STAT.rejected d)
    s.modDom d fun x => { x with learn := { x.learn with start := some t, edges := [], prev := some tb,
                                                         whole := s.dState d = stSync } }

/-- An edge of a slot other than 0 within the running revolution, kept in every mode: mode may be set within the revolution. -/
def learnEdge (d : Fin 8) (i : Nat) (t : Time) (s : State) : State :=
  s.modDom d fun x => { x with learn := { x.learn with edges := (i, t) :: x.learn.edges } }

/-- The domain has entered SYNC at a slot 0 edge: the revolution that begins there has SYNC throughout so far (R111). -/
def learnWhole (d : Fin 8) (s : State) : State := s.modDom d fun x => { x with learn := { x.learn with whole := true } }

/-- Leaving SYNC or GAP_FOUND ends the running revolution, which is rejected (log entry 32); the accumulators stay (R112). -/
def learnLeave (d : Fin 8) (s : State) : State :=
  let l := (s.bzl[d]).learn
  let mode := s.get (BZL_MAP_CTRL.mode d)
  let s := if (mode == 1 || mode == 2) && !l.stopped && l.start.isSome then s.incSat (BZL_MAP_STAT.rejected d) else s
  s.modDom d fun x => { x with learn := { x.learn with start := none, edges := [], whole := false, prev := none } }

end Sys2Proof.Machine
end

