-- ==== Sys2Proof/Machine/Acq.lean ====
section
/-!
DEFINITION. Triggers of the sample groups (spec/11, R271–R274): firing, missed and overrun triggers, the fixed targets of
an angle source.
-/
namespace Sys2Proof.Machine
open Sys2Proof

def State.modAdc (s : State) (f : Adc → Adc) : State := { s with adc := f s.adc }
def State.modConv (s : State) (c : Fin 24) (f : Converter → Converter) : State :=
  s.modAdc fun a => { a with conv := vmod a.conv c f }
def State.modRed (s : State) (c : Fin 24) (r : Fin 4) (f : Reducer → Reducer) : State :=
  s.modConv c fun x => { x with red := vmod x.red r f }

/-- The converters are powered (R270), and not off in Park (R287). -/
def State.adcOn (s : State) : Bool := s.flag ADC_CTRL.en && !s.parkHold

/-- A time falls in the present cycle. -/
def State.inCycle (s : State) (t : Time) : Bool := decide (s.now ≤ t) && decide (t < s.nextNow)

/-- `n` targets or periods are missed (R273, R274). -/
def groupMissed (g : Fin 8) (n : Nat) (s : State) : State :=
  if n = 0 then s
  else flagGroup g ((s.set (ADC_GCNT.missed g) (min 65535 (s.get (ADC_GCNT.missed g) + n))).raise (ADC_GSTAT.missed g))

/-- The members of a group (R271), in ascending order. -/
def State.members (s : State) (g : Fin 8) : List (Fin 24) :=
  (List.finRange 24).filter fun c => s.flag (ADC_CCFG.member c) && s.get (ADC_CCFG.group c) == g.val

/-- A trigger fires (R272): it starts a pass, or is an overrun while the group is busy. Of triggers that fire in one
cycle the lowest kind names the pass. With the converters off the firing is missed (R270). -/
def fireTrigger (g : Fin 8) (t : Trig) (s : State) : State :=
  if s.adcOn = false then groupMissed g 1 s
  else
    let lateMark (s : State) : State := if t.late then flagGroup g (s.raise (ADC_GSTAT.late g)) else s
    match (s.adc.grp[g]).pass with
    | none =>
      let p : Pass :=
        { trig := t, cyc := s.tb.cyc, len := s.get (ADC_GCFG.len g) + 1, spacing := s.get (ADC_GCFG.spacing g),
          members := s.members g, again := s.flag (ADC_GCFG.repeat' g), next := 0, running := 0 }
      lateMark (s.modGrp g fun x => { x with pass := some p })
    | some p =>
      if p.cyc = s.tb.cyc ∧ t.kind < p.trig.kind ∧ p.next = 0 then
        groupOverrun g (lateMark (s.modGrp g fun x => { x with pass := some { p with trig := t } }))
      else groupOverrun g s

/-- A trigger that was behind when it became due fires at phase 0 of the next cycle, late (R273). -/
def fireLate (g : Fin 8) (t : Trig) (s : State) : State :=
  s.modGrp g fun x => { x with soon := x.soon ++ [{ t with at' := s.nextNow, late := true }] }

/-- The angle, in au, of target `i` of a group's angle source (R274). -/
def State.groupTarget (s : State) (g : Fin 8) (cyc i : Nat) : Nat :=
  (s.get (ADC_GANG.start g) + i * s.get (ADC_GSTEP.step g)) % cyc

/-- Insert by running angle. -/
def insertAngle (a : Nat × Nat) : List (Nat × Nat) → List (Nat × Nat)
  | [] => [a]
  | b :: r => if a.1 < b.1 then a :: b :: r else b :: insertAngle a r

/-- Unfired targets are dropped as missed (R274). -/
def dropTargets (g : Fin 8) (s : State) : State :=
  groupMissed g (s.adc.grp[g]).targets.length (s.modGrp g fun x => { x with targets := [] })

/-- The decision of an accepted edge k, for one group (R274): drop what has not fired, fire the target at Θ_k, fix the
times of those before the next expected edge. -/
def groupEdge (d : Fin 8) (g : Fin 8) (s : State) : State :=
  if s.flag (ADC_GCFG.en g) && s.flag (ADC_GCFG.angle_en g) && s.get (ADC_GSTEP.domain g) == d.val then
    let s := dropTargets g s
    let x := s.bzl[d]
    let cyc := s.cycleAu d
    let c16 := s.cycle16 d
    let dn := match x.pred with | some p => p.dn | none => 0
    let ahead : List (Nat × Nat) := ((List.range (s.get (ADC_GSTEP.count g) + 1)).map fun i =>
      let a := s.groupTarget g cyc i
      ((16 * a + c16 - x.thetaK % c16) % c16, a)).foldl (fun l p => if p.1 < dn ∨ p.1 = 0 then insertAngle p l else l) []
    let s := match ahead.find? (fun p => p.1 == 0) with
      | some (_, a) => fireTrigger g ⟨1, s.now, false, 0, BitVec.ofNat 32 a⟩ s
      | none => s
    let fixed := ahead.filter fun p => p.1 != 0
    let s := s.modGrp g fun y => { y with targets := (fixed.take 64).map fun p => (x.timeOf (x.thetaK + p.1), p.2) }
    groupMissed g (fixed.length - 64) s
  else s

/-- The decision of an accepted edge in SYNC or LIMP_CAM, for every group (R274). -/
def adcEdge (d : Fin 8) (s : State) : State := if s.tracking d then forAll 8 (groupEdge d) s else s

/-- An angle window of domain `d` that is current closes when the domain leaves SYNC and LIMP_CAM (R284). -/
def windowLost (d : Fin 8) (c : Fin 24) (r : Fin 4) (s : State) : State :=
  if s.flag (ADC_RCFG.kind c r) && s.get (ADC_RCFG.domain c r) == d.val && ((s.adc.conv[c]).red[r]).active then
    s.modRed c r fun x => { x with lost := true }
  else s

/-- The domain has left SYNC and LIMP_CAM: unfired targets are dropped as missed (R274), and its angle windows close (R284). -/
def adcLeave (d : Fin 8) (s : State) : State :=
  let s := forAll 8 (fun g s =>
    if s.flag (ADC_GCFG.en g) && s.flag (ADC_GCFG.angle_en g) && s.get (ADC_GSTEP.domain g) == d.val then dropTargets g s else s) s
  forAll 24 (fun c s => forAll 4 (windowLost d c) s) s

end Sys2Proof.Machine
end

