-- ==== Sys2Proof/Machine/Vault.lean ====
section
/-!
DEFINITION. The Vault (spec/10): lines, the slot table, atomics at the bank, partial writes, the rotate path, ECC, poison
and the scrubber.
-/
namespace Sys2Proof.Machine
open Sys2Proof

/-! ### Bytes and words -/

/-- Bytes of the Vault (R253). -/
def vaultSize : Nat := 2 ^ 24

/-- A byte nothing has written reads 0: every word is cleared before anyone can reach it (R267). -/
def zeroByte (_ : Nat) : Byte := 0
def noPoison (_ : Nat) : Bool := false

def Vault.byte (x : Vault) (a : Nat) : Byte := Sparse.get zeroByte x.mem a
def Vault.poisoned (x : Vault) (w : Nat) : Bool := Sparse.get noPoison x.poison w

/-- The canonical form of the Vault's memory. -/
def Vault.wf (x : Vault) : Bool := Sparse.wf zeroByte x.mem && Sparse.wf noPoison x.poison

def State.modVlt (s : State) (f : Vault → Vault) : State := { s with vlt := f s.vlt }

/-- A little-endian value of bytes (R184). -/
def leValue : List Byte → Nat
  | [] => 0
  | b :: r => b.toNat + 256 * leValue r

/-- `n` bytes of the Vault from address `a`. -/
def Vault.bytes (x : Vault) (a n : Nat) : List Byte := (List.range n).map fun k => x.byte (a + k)
/-- The 64-bit word with word address `w` (byte address 8 × w). -/
def Vault.word (x : Vault) (w : Nat) : Dword := BitVec.ofNat 64 (leValue (x.bytes (8 * w) 8))

/-- Set a byte. -/
def Vault.put (x : Vault) (a : Nat) (b : Byte) : Vault := { x with mem := Sparse.put zeroByte x.mem a b }
def Vault.mark (x : Vault) (w : Nat) (p : Bool) : Vault := { x with poison := Sparse.put noPoison x.poison w p }

/-- Set bytes from address `a` upward; `none` leaves a byte as it is. -/
def Vault.putMasked (x : Vault) (a : Nat) : List (Option Byte) → Vault
  | [] => x
  | b :: r => ((match b with | some v => x.put a v | none => x)).putMasked (a + 1) r

/-! ### ECC and poison (R262, R264, R265) -/

/-- Requester codes of VLT_ERR_ADDR. -/
def reqCode : Requester → Nat
  | .engine _ | .commit => 0 | .adc => 1 | .dma _ => 2 | .host => 3 | .assayer => 4 | .bezel => 5 | .sloulo => 6
/-- VLT_ERR_ADDR code of the scrubber. -/
def scrubberCode : Nat := 7

/-- An uncorrectable error in word `w`: it becomes poisoned and the first address is recorded (R264). -/
def vltUncorr (code w : Nat) (s : State) : State :=
  if s.vlt.poisoned w then s
  else
    let s := ((s.modVlt fun x => x.mark w true).raise VLT_STAT.uncorr).incSat VLT_ECC_CNT.uncorr_count
    let s := if s.flag VLT_ERR_ADDR.valid then s
      else (s.wr VLT_ERR_ADDR (BitVec.ofNat 32 (code * 2 ^ 28 + 8 * w))).raise VLT_ERR_ADDR.valid
    s.fault .vltUncorr

/-- A single-bit error in word `w`: corrected, counted and queued for rewriting (R264). -/
def vltCorr (w : Nat) (s : State) : State :=
  let s := (s.raise VLT_STAT.corr).incSat VLT_ECC_CNT.corr_count
  let s := s.modVlt fun x => { x with fix := if x.fix.contains w then x.fix else x.fix ++ [w] }
  s.fault .vltCorr

/-- What a read of a line finds (R264). -/
def lineCheck (code line : Nat) (e : LineEcc) (s : State) : State :=
  forAll 4 (fun k s =>
    if e.bad.getLsbD k then vltUncorr code (4 * line + k) s
    else if e.corr.getLsbD k && !s.vlt.poisoned (4 * line + k) then vltCorr (4 * line + k) s else s) s

/-- Whether any word that overlaps the bytes a … a + n − 1 is poisoned. -/
def Vault.anyPoison (x : Vault) (a n : Nat) : Bool :=
  (List.range ((a + n + 7) / 8 - a / 8)).any fun k => x.poisoned (a / 8 + k)

/-- A poisoned word has been read (R265). -/
def poisonRead (s : State) : State := (s.raise VLT_STAT.poison_rd).fault .vltPoison

/-- Words of the written range: a write of all eight bytes removes poison, a partial one merges and keeps it (R262). -/
def mergePoison (a : Nat) (bytes : List (Option Byte)) (s : State) : State :=
  (List.range ((a + bytes.length + 7) / 8 - a / 8)).foldl (fun s k =>
    let w := a / 8 + k
    let some' (i : Nat) : Bool := decide (a ≤ 8 * w + i) && (bytes.getD (8 * w + i - a) none).isSome
    if s.vlt.poisoned w = false then s
    else if (List.range 8).all some' then s.modVlt fun x => x.mark w false
    else if (List.range 8).any some' then s.raise VLT_STAT.poison_wr
    else s) s

/-- The words of a line that a write covers in part: they are read and corrected before the merge (R262). -/
def partWords (a : Nat) (bytes : List (Option Byte)) (e : LineEcc) : LineEcc :=
  let on (k i : Nat) : Bool :=
    let p := 32 * (a / 32) + 8 * k + i
    decide (a ≤ p) && (bytes.getD (p - a) none).isSome
  let part (k : Nat) : Bool := (List.range 8).any (on k) && !(List.range 8).all (on k)
  let pick (m : BitVec 4) : BitVec 4 := BitVec.ofBoolListLE ((List.range 4).map fun k => m.getLsbD k && part k)
  ⟨pick e.corr, pick e.bad⟩

/-- A write of one line at the bank by requester `code` (R254, R262). Words of the line written leave the scrubber's queue (R266). -/
def bankStore (code a : Nat) (bytes : List (Option Byte)) (e : LineEcc) (s : State) : State :=
  let s := mergePoison a bytes (lineCheck code (a / 32) (partWords a bytes e) s)
  s.modVlt fun x => { x.putMasked a bytes with fix := x.fix.filter fun w => !(decide (a / 32 ≤ w / 4) && decide (w / 4 ≤ (a + bytes.length - 1) / 32)) }

/-- While an image load runs, the lines of the image are guarded (R408). -/
def State.guardedAt (s : State) (a n : Nat) : Bool :=
  let x := (s.rd (ASY_MBOX_DATA 0)).toNat
  let len := (s.rd (ASY_MBOX_DATA 1)).toNat
  s.flag ASY_SEC_STAT.loading && decide (0 < len) && decide (x / 32 ≤ (a + n - 1) / 32) && decide (a / 32 ≤ (x + len - 1) / 32)

/-- A write by the host, DMA, an engine or Sloulo: discarded on a guarded line (R408). -/
def bankWrite (code a : Nat) (bytes : List (Option Byte)) (e : LineEcc) (s : State) : State :=
  if s.guardedAt a bytes.length then s.raise ASY_SEC_STAT.guard_hit else bankStore code a bytes e s

/-- The outcome of a check, on one word of its line. -/
def eccWord (e : LineEcc) (w : Nat) : LineEcc := ⟨e.corr &&& BitVec.twoPow 4 (w % 4), e.bad &&& BitVec.twoPow 4 (w % 4)⟩

/-- An atomic on word `w` (R260): the old value, or none when the word is poisoned and nothing is written. -/
def bankAtomic (code : Nat) (w : Nat) (swap : Bool) (v : Dword) (e : LineEcc) (s : State) : Option Dword × State :=
  let s := lineCheck code (w / 4) (eccWord e w) s
  if s.vlt.poisoned w then (none, poisonRead s)
  else
    let old := s.vlt.word w
    let new := if swap then v else old + v
    let bytes := (leBytes 8 new.toNat).map some
    (some old, if code = 1 then bankStore code (8 * w) bytes ⟨0, 0⟩ s else bankWrite code (8 * w) bytes ⟨0, 0⟩ s)

/-- A slot granted to a class (VLT_USE). -/
def countSlot (c : Nat) (s : State) : State :=
  s.modVlt fun x => { x with use := vmod x.use (Fin.ofNat 8 c) (· + 1) }

/-- A read of the bytes a … a + n − 1 of one line, in a slot of class `code`. -/
def bankRead (code a n : Nat) (e : LineEcc) (s : State) : List Byte × Bool × State :=
  let s := lineCheck code (a / 32) e (countSlot code s)
  if s.vlt.anyPoison a n then (s.vlt.bytes a n, true, poisonRead s) else (s.vlt.bytes a n, false, s)

/-! ### The slot table (R255–R258) -/

/-- Owner of the non-engine slot with index J mod 25, as a class; 7 stands for pooled (R256). -/
def slotPattern : List Nat := [2, 7, 3, 2, 5, 2, 7, 3, 2, 1, 2, 6, 7, 2, 3, 2, 7, 5, 2, 3, 6, 4, 7, 7, 7]

/-- Owner of slot position `p`: class 0 engines, 1–6 as VLT_USE, 7 pooled. -/
def slotOwner (p : Nat) : Nat :=
  if 1000 ≤ p then 7 else if p % 5 < 3 then 0 else slotPattern.getD ((2 * (p / 5) + p % 5 - 3) % 25) 7

/-- The next of `n` cyclic positions after `last` that satisfies `p`. -/
def nextAfter (n last : Nat) (p : Nat → Bool) : Option Nat := ((List.range n).map fun k => (last + 1 + k) % n).find? p

/-- The class that takes the slot at the present position, given which classes have a request ready (R257), and whether it
was won as a pooled slot. -/
def grantClass (x : Vault) (ready : Nat → Bool) : Option (Nat × Bool) :=
  let o := slotOwner x.pos
  if o ≠ 7 ∧ ready o = true then some (o, false)
  else if o ≠ 7 ∧ o ≠ 0 ∧ ready 0 = true then some (0, false)
  else (nextAfter 7 x.lastClass ready).map fun c => (c, true)

/-! ### Requests that wait (R259, R261, R263) -/

/-- A transaction that ends in error: err, and GBL_HOST.qspi_err (R392). -/
def qspiError (s : State) : State := { s with host := { s.host with err := true } }.raise GBL_HOST.qspi_err

/-- The lines a byte range touches, each with the bytes that fall in it. -/
def lineParts (a n : Nat) : List (Nat × Nat) :=
  (List.range ((a + n + 31) / 32 - a / 32)).map fun k =>
    let lo := max a (32 * (a / 32 + k))
    (lo, min (a + n) (32 * (a / 32 + k) + 32) - lo)

/-- Bytes as 32-bit words, the last one filled with zeros. -/
def bytesToWords (bs : List Byte) : List Word :=
  (List.range ((bs.length + 3) / 4)).map fun k => BitVec.ofNat 32 (leValue ((bs.drop (4 * k)).take 4))

/-- The bytes of a read in pieces that end at 64-byte boundaries, as its completions carry them (R380). -/
def splitAt64 : Nat → Nat → List (Byte × Bool) → List (List (Byte × Bool))
  | 0, _, _ => []
  | fuel + 1, off, bs =>
    if bs.isEmpty then [] else bs.take (64 - off % 64) :: splitAt64 fuel (off / 64 * 64 + 64) (bs.drop (64 - off % 64))

/-- The completions of a host read: one that carries a poisoned word has EP set (R386). -/
def complete (off : Nat) (bs : List (Byte × Bool)) (s : State) : State :=
  let s := (splitAt64 bs.length off bs).foldl (fun s l => s.emit (.completion (l.map (·.1)) (l.any (·.2)))) s
  { s with read := bytesToWords (bs.map (·.1)) }

/-- A queued read is done: `bs` are its bytes, each with whether its word is poisoned, which reads all ones (R265). -/
def replyTo (to' : BusTo) (off : Nat) (bs : List (Byte × Bool)) (s : State) : State :=
  match to' with
  | .pcie => complete off bs s
  | .qspi =>
    if bs.any (·.2) then (qspiError s).emit (.qspi (0x53 :: List.replicate bs.length 0xFF)) else s.emit (.qspi (0x5A :: bs.map (·.1)))
  | .nowhere => s
  | .jtag => (bytesToWords (bs.map (·.1))).foldl (fun s w => s.emit (.jtag w)) s
  | .image => { s with asy := { s.asy with fetch := some (bs.map (·.1)) } }

/-- A read of `n` bytes at Vault address `a`, of which those above the Vault read 0xFF and take no slot (R263). -/
def readReq (a n : Nat) (eccs : List LineEcc) (off : Nat) (to' : BusTo) : BusReq :=
  let size := min n (vaultSize - a)
  .read a size (n - size) [] eccs off to'

/-- A request with no byte of the Vault in it needs no slot; any other waits for its turn. -/
def State.enqueue (s : State) (q : BusReq) (put : Vault → Vault) : State :=
  match q with
  | .read _ 0 above _ _ off to' => replyTo to' off (List.replicate above (0xFF, false)) s
  | .write _ [] _ => s
  | _ => s.modVlt put

/-- A request of the host takes its place behind the earlier ones (R259). -/
def hostPush (q : BusReq) (s : State) : State := s.enqueue q fun x => { x with host := x.host ++ [q] }
/-- A request of the Assayer. -/
def asyPush (q : BusReq) (s : State) : State := s.enqueue q fun x => { x with asy := x.asy ++ [q] }
/-- A request of Sloulo. -/
def sloPush (q : BusReq) (s : State) : State := s.enqueue q fun x => { x with slo := x.slo ++ [q] }

/-- A write of bytes at Vault address `a`, without those above the Vault. -/
def writeReq (a : Nat) (bytes : List (Option Byte)) (eccs : List LineEcc) : BusReq := .write a (bytes.take (vaultSize - a)) eccs

/-- The requests that wait in a class. -/
def Vault.waiting (x : Vault) (c : Nat) : List BusReq := if c = 3 then x.host else if c = 4 then x.asy else if c = 6 then x.slo else []
def Vault.putWaiting (x : Vault) (c : Nat) (l : List BusReq) : Vault :=
  if c = 3 then { x with host := l } else if c = 4 then { x with asy := l } else { x with slo := l }

/-- One slot of the read at the front of class `c`: its next line. -/
def busRead' (c a size above : Nat) (got : List (Byte × Bool)) (eccs : List LineEcc) (off : Nat) (to' : BusTo) (rest : List BusReq) (s : State) :
    State :=
  let p := a + got.length
  let n := min (size - got.length) (32 - p % 32)
  let (bs, _, s) := bankRead c p n (eccs.headD ⟨0, 0⟩) s
  let piece := bs.zipIdx.map fun (b, k) => if s.vlt.poisoned ((p + k) / 8) then (0xFF, true) else (b, false)
  let got := got ++ piece
  if size ≤ got.length then
    replyTo to' off (got ++ List.replicate above (0xFF, false)) (s.modVlt fun x => x.putWaiting c rest)
  else s.modVlt fun x => x.putWaiting c (.read a size above got (eccs.drop 1) off to' :: rest)

/-- One slot of the write at the front of class `c`: its next line. The Assayer's own writes meet no guard (R408). -/
def busWrite' (c a : Nat) (bytes : List (Option Byte)) (eccs : List LineEcc) (rest : List BusReq) (s : State) : State :=
  let n := 32 - a % 32
  let e := eccs.headD ⟨0, 0⟩
  let s := countSlot c s
  let s := if c = 4 then bankStore c a (bytes.take n) e s else bankWrite c a (bytes.take n) e s
  let left := bytes.drop n
  s.modVlt fun x => x.putWaiting c (if left.isEmpty then rest else .write (a + n) left (eccs.drop 1) :: rest)

/-- The atomic at the front of the host's requests is applied; a poisoned word gives all ones (R261, R265). -/
def atomicApply (w : Nat) (swap : Bool) (v : Dword) (e : LineEcc) (rest : List BusReq) (s : State) : State :=
  let (old, s) := bankAtomic 3 w swap v e (countSlot 3 (s.modVlt fun x => { x with host := rest }))
  let s := s.setBool VLT_ATOM_CMD.poison old.isNone
  (s.wr64 VLT_ATOM_RES (old.getD (BitVec.allOnes 64))).raise VLT_ATOM_CMD.done'

/-- An atomic is not done: it is among the host's requests. -/
def State.atomPending (s : State) : Bool := s.vlt.host.any fun q => match q with | .atomic _ _ _ => true | _ => false

/-- HOST_ATOMIC_GO: address and operand as they stand; ignored while an earlier one is not done. -/
def hostAtomicGo (swap : Bool) (s : State) : State :=
  if s.atomPending then s.raise VLT_STAT.atom_busy
  else (hostPush (.atomic (s.get VLT_ATOM_ADDR.addr) swap (s.rd64 VLT_ATOM_OPND)) s).clear VLT_ATOM_CMD.done'
def execHostAtomicGo (swap : Bool) (s : State) : Result := .next (hostAtomicGo swap s)

/-- A write of VLT_ATOM_CMD. -/
def atomCmdWrite (v : Word) (s : State) : State :=
  if fieldOf v VLT_ATOM_CMD.go = 1 then hostAtomicGo (fieldOf v VLT_ATOM_CMD.op = 1) s else s

/-- Vault address of a BAR2 offset: through the rotator in the upper half (R263). -/
def bar2Addr (off shift : Nat) : Nat := if off < vaultSize then off else off - vaultSize + shift

/-- BAR2_ACCESS (R259, R263): the access waits for the host's slots, one for each line touched. -/
def bar2Request (off : BitVec 25) (x : HostAccess) (eccs : List LineEcc) (to' : BusTo) (s : State) : State :=
  let a := bar2Addr off.toNat (s.get VLT_ROT.shift)
  match x with
  | .read len => hostPush (readReq a len eccs off.toNat to') s
  | .write bytes => hostPush (writeReq a bytes eccs) s
def execBar2Access (off : BitVec 25) (x : HostAccess) (eccs : List LineEcc) (s : State) : Result :=
  .next (bar2Request off x eccs .pcie s)

/-! ### The scrubber (R266) -/

/-- A scrub read is due. -/
def State.scrubDue (s : State) : Bool :=
  s.flag VLT_CTRL.scrub_en && decide (s.vlt.scrubTally + s.get VLT_SCRUB.period + 1 ≤ s.tally)

/-- The next line is read and checked in an idle slot; the last line ends a pass. -/
def scrubLine (e : LineEcc) (s : State) : State :=
  let l := s.vlt.scrubLine
  let s := lineCheck scrubberCode l e (countSlot 7 s)
  let s := s.modVlt fun x => { x with scrubTally := s.tally }
  if l + 1 < 524288 then s.modVlt fun x => { x with scrubLine := l + 1 }
  else
    let slow := decide (2 * 524288 * (s.get VLT_SCRUB.period + 1) < s.tally - s.vlt.passTally)
    let s := (s.set VLT_SCRUB.passes (s.get VLT_SCRUB.passes + 1)).raiseIf slow VLT_STAT.scrub_slow
    s.modVlt fun x => { x with scrubLine := 0, passTally := s.tally }

/-- VAULT_CLR_PEAK (R255). -/
def vaultClrPeak (s : State) : State := forAll 8 (fun c s => s.clear (VLT_USE.peak c)) s
def execVaultClrPeak (s : State) : Result := .next (vaultClrPeak s)

/-- A write of VLT_CTRL. -/
def vltCtrlWrite (v : Word) (s : State) : State :=
  let s := s.plainWrite VLT_CTRL v
  if fieldOf v VLT_CTRL.clr_peak = 1 then vaultClrPeak s else s

/-- Per-Tally accounting of the slots (VLT_USE), and a Tally cut short (R256). -/
def vaultTally (s : State) : State :=
  let s := s.raiseIf (decide (s.vlt.pos < 1000) && decide (0 < s.vlt.pos)) VLT_STAT.short_tally
  let s := forAll 8 (fun c s =>
    let n := min ((s.vlt.use)[c]) 1023
    let s := s.set (VLT_USE.last c) n
    if s.get (VLT_USE.peak c) < n then s.set (VLT_USE.peak c) n else s) s
  s.modVlt fun x => { x with use := Vector.replicate 8 0 }

/-- VAULT_CLEAR_DONE (R267, R436): every word is zero and the windows become usable. -/
def vaultClearDone (s : State) : State :=
  if s.flag FLT_BOOT.vault_clr then s else
  let s := s.modVlt fun x => { x with mem := [], poison := [], fix := [] }
  ((s.raise FLT_BOOT.vault_clr).raise FLT_BOOT.host_ready).raise GBL_HOST.ready

end Sys2Proof.Machine
end

