-- ==== Sys2Proof/Machine/Adc.lean ====
section
/-!
DEFINITION. Analogue acquisition (spec/11): passes, conversions and correction, urgent conversions, the frame stream and
its writer, window reducers, calibration.
-/
namespace Sys2Proof.Machine
open Sys2Proof

/-- The code that stands for a result that is due where no conversion took place (R269). -/
def noResult : BitVec 16 := 0x8000

/-! ### The ring and the writer (R280–R282) -/

/-- Length of the frame ring in bytes. -/
def State.ringSize (s : State) : Nat := 32 * s.get ADC_RING_SIZE.lines

/-- The stream that copies the ring (R313). -/
def State.ringStream (s : State) : Option (Fin 16) :=
  let m : Fin 16 := Fin.ofNat 16 (s.get ADC_RING_CTRL.stream)
  if s.flag ADC_RING_CTRL.log_en && s.flag (DBK_CFG.en m) && s.flag (DBK_CFG.kind m) &&
      !(s.dbk.stream[m]).freezing && s.get (DBK_STAT.state m) != 2 then some m else none

/-- Bytes free before the consumer and the copier (R281). A ring whose write offset equals the read offset is empty, so a record
may not fill it. -/
def State.ringRoom (s : State) : Nat :=
  let size := s.ringSize
  let byHost := if size = 0 then 0 else
    size - 1 - (s.get ADC_RING_WR.offset + size - s.get ADC_RING_RD.offset % size) % size
  match s.ringStream with
  | none => byHost
  | some m => min byHost (size - (s.dbk.stream[m]).used)

/-- The current line goes to the writer, and what waits for it. -/
def handLine (s : State) : State :=
  let a := s.adc
  if a.hold = [] then s
  else s.modAdc fun x =>
    { x with hold := [], after := [],
             queue := x.queue ++ [.bytes (32 * s.get ADC_RING_BASE.base + x.holdAt) (x.hold.map some) x.holdDue] ++ x.after }

/-- Put one byte, to be written by `due`, into the ring (R281, R282). -/
def ringByte (due : Time) (b : Byte) (s : State) : State :=
  let size := s.ringSize
  let wr := s.get ADC_RING_WR.offset
  let s := s.modAdc fun x =>
    { x with hold := x.hold ++ [b], holdAt := if x.hold = [] then wr else x.holdAt,
             holdSince := if x.hold = [] then s.now else x.holdSince,
             holdDue := if x.hold = [] ∨ due < x.holdDue then due else x.holdDue }
  let nxt := if wr + 1 < size then wr + 1 else 0
  let s := s.set ADC_RING_WR.offset nxt
  let s := if nxt = 0 then s.set ADC_RING_WR.laps (s.get ADC_RING_WR.laps + 1) else s
  if nxt % 32 = 0 then handLine s else s

/-- Append a record to be written by `due` (R281): false when it is not written. -/
def ringAppend (type : Nat) (due : Time) (bytes : List Byte) (s : State) : Bool × State :=
  if s.flag ADC_RING_CTRL.en = false then (false, s)
  else if s.flag ADC_RING_CTRL.stop_full && decide (s.ringRoom < max s.adc.need bytes.length) then
    (false, (((s.modAdc fun x => { x with need := max x.need bytes.length }).incSat ADC_RING_DROP.count).raise
      ADC_STAT.ring_ovf).fault .logLost)
  else
    let s := bytes.foldl (fun s b => ringByte due b s) (s.modAdc fun x => { x with need := 0 })
    match s.ringStream with
    | none => (true, s)
    | some m => (true, s.modStream m fun x =>
        let b : Block := x.open'.getD ⟨0, 0, [], 0⟩
        { x with used := x.used + bytes.length,
                 open' := some { b with len := b.len + bytes.length, recs := b.recs ++ [(type, bytes.length)] } })

/-- The bytes of a record in the stream (R279). -/
def FrameRec.bytes (r : FrameRec) : List Byte :=
  r.head ++ r.cells.foldr (fun c l => leBytes 2 (c.2.getD noResult).toNat ++ l) []

/-- Order of the stream (R280): instant, then group, then a trigger record before rows. -/
def FrameRec.before (a b : FrameRec) : Bool :=
  decide (a.at' < b.at') || (a.at' == b.at' && (decide (a.group < b.group) || (a.group == b.group && a.trig && !b.trig)))
def insertRec (a : FrameRec) : List FrameRec → List FrameRec
  | [] => [a]
  | b :: r => if a.before b then a :: b :: r else b :: insertRec a r
def addRec (a : FrameRec) (s : State) : State := s.modAdc fun x => { x with recs := insertRec a x.recs }

/-- Record types of the frame stream. -/
def recRow : Nat := 1
def recTrigger : Nat := 2

/-- Append the records that are complete, in order, to the open frame (R280). -/
def flushRecs : Nat → State → State
  | 0, s => s
  | fuel + 1, s =>
    match s.adc.recs with
    | [] => s
    | r :: rest =>
      let k := tallyOf r.at'
      let fits := match s.adc.frame with | none => true | some f => f.tally == k
      if fits && decide (r.at' < s.now) && r.cells.all (fun c => c.2.isSome) then
        let first := s.get ADC_RING_WR.offset
        let (ok, s) := ringAppend (if r.trig then recTrigger else recRow) r.due r.bytes (s.modAdc fun x => { x with recs := rest })
        let s := if ok then s.modAdc fun x =>
            let f : Frame := x.frame.getD ⟨k, first, 0, Vector.replicate 8 0⟩
            { x with frame := some { f with mask := f.mask ||| BitVec.twoPow 8 r.group,
                                            rows := if r.trig then f.rows else vmod f.rows r.group (· + 1) } }
          else s
        flushRecs fuel s
      else s

/-- Bit g of a mask of groups. -/
def groupMask (p : Fin 8 → Bool) : Nat := (List.finRange 8).foldl (fun a g => if p g then a + 2 ^ g.val else a) 0

/-- The frame notice and count of one group (R280). -/
def frameNotice (f : Frame) (past : Nat) (due : Time) (s : State) (g : Fin 8) : List WriterItem :=
  let line := 32 * s.get (ADC_GDESC.line g)
  let flagged := ((s.adc.grp[g]).flagged.contains f.tally).toNat
  let note := leBytes 8 f.tally ++ leBytes 4 f.first ++ leBytes 4 past ++ leBytes 1 ((f.rows)[g]) ++ leBytes 1 flagged ++ leBytes 6 0
  (if s.flag (ADC_GBIND.desc_en g) then [.bytes line (note.map some) due] else []) ++
    (if s.flag (ADC_GBIND.cnt_en g) then [.count (line + 24) due] else [])

/-- The open frame's Tally record is due: 210 ns after the next boundary, its conversions ended (R280). -/
def State.frameDue (s : State) : Bool :=
  match s.adc.frame with
  | none => false
  | some f => decide (8000 * (f.tally + 1) + 1680 ≤ s.now.toNat) && s.adc.recs.all fun r => tallyOf r.at' != f.tally

/-- FRAME_CLOSE (R279, R280): the Tally record; then the notices and counts, and the events and causes once all are
written. -/
def frameClose (s : State) : State :=
  match s.adc.frame with
  | none => s
  | some f =>
    if s.frameDue = false then s
    else
      let flags := groupMask fun g => (s.adc.grp[g]).flagged.contains f.tally
      let rows := (List.finRange 8).foldl (fun a (g : Fin 8) => a + 2 ^ (3 * g.val) * ((f.rows)[g] % 8)) 0
      let head := leBytes 2 (0xE000 + f.mask.toNat) ++ leBytes 6 f.tally ++ leBytes 3 rows ++ leBytes 1 flags ++ leBytes 3 f.first ++
        leBytes 1 0
      let due : Time := BitVec.ofNat 64 (8000 * (f.tally + 2))
      let (ok, s) := ringAppend recTally due head (s.modAdc fun x => { x with frame := none })
      let s := match s.ringStream with
        | some m => s.modStream m fun x =>
          { x with open' := none, closed := x.closed ++ (x.open'.map fun b => { b with tally := f.tally }).toList }
        | none => s
      let items := ((List.finRange 8).filter fun (g : Fin 8) => f.mask.getLsbD g).flatMap (frameNotice f (s.get ADC_RING_WR.offset) due s)
      let items := items ++ [.frameDone f.mask]
      let s := if ok = false then s
        else if s.adc.hold = [] then s.modAdc fun x => { x with queue := x.queue ++ items }
        else s.modAdc fun x => { x with after := x.after ++ items }
      s.modAdc fun x => { x with grp := x.grp.map fun y => { y with flagged := y.flagged.filter fun k => decide (f.tally < k) } }
def execFrameClose (s : State) : Result := .next (frameClose s)

/-- Events 64 + g and ADC of a frame whose writes are done (R280). -/
def frameDone (mask : BitVec 8) (s : State) : State :=
  forAll 8 (fun g s =>
    if mask.getLsbD g then
      let s := pulse (64 + g) s
      if s.flag (ADC_GBIND.en g) && s.flag (ADC_GBIND.frame_en g) then s.cause (chanOf (s.get (ADC_GBIND.channel g))) .adc else s
    else s) s

/-- The writer's oldest request in its slot (R282). -/
def writerLineWrite (e : LineEcc) (s : State) : State :=
  let late (due : Time) (s : State) : State := s.raiseIf (decide (due < s.now)) ADC_STAT.wr_slow
  let pop (s : State) : State := countSlot 1 (s.modAdc fun x => { x with queue := x.queue.drop 1, use := x.use + 1 })
  match s.adc.queue with
  | .bytes a b due :: _ => late due (if a < vaultSize then bankStore 1 a b e (pop s) else pop s)
  | .count a due :: _ => late due (bankAtomic 1 (a / 8) false 1 e (pop s)).2
  | .urgent a b ch due :: _ => (late due (bankStore 1 a (b.map some) e (pop s))).cause ch .adc
  | _ => s

/-! ### Conversions -/

/-- Division rounded to the nearest integer, a half upward (log entry 47). -/
def roundDiv (a b : Int) : Int := (2 * a + b).fdiv (2 * b)

/-- The internal reference, 1.500 V, in the unit in which a command gives voltages, 1 nV (R268; log entry 47). -/
def vrefInternal : Nat := 1500000000

/-- The exact code of the input voltage VP − VN under the formula of its range (R268); range 3 is not stored (R9). -/
def exactCode (range : Nat) (vin : Int) (vref : Nat) : Int :=
  match range with
  | 1 => roundDiv (65536 * vin) vref
  | 2 => roundDiv (32768 * (2 * vin - vref)) vref
  | _ => roundDiv (32768 * vin) vref

/-- The input lies beyond its span (R268, R269). -/
def beyondSpan (range : Nat) (vin : Int) (vref : Nat) : Bool :=
  match range with
  | 1 => decide ((vref : Int) < 2 * vin.natAbs)
  | 2 => decide (vin < 0 ∨ (vref : Int) < vin)
  | _ => decide (vref < vin.natAbs)

/-- The raw code, which is signed 16 bits (R268, R276). -/
def rawCode (range : Nat) (vin : Int) (vref : Nat) : BitVec 16 := BitVec.ofInt 16 (min (max (exactCode range vin vref) (-32768)) 32767)

/-- The correction of R276, and whether the result saturates (R269). -/
def correct (raw : BitVec 16) (ovr : Bool) (gain : Nat) (ofs : Int) : BitVec 16 × Bool :=
  let y : Int := (raw.toInt * gain + ofs * 2 ^ 18 + 2 ^ 21) >>> 22
  let y := if ovr then (if raw.msb then -32768 else 32768) else y
  (BitVec.ofInt 16 (min (max y (-32767)) 32767), decide (y < -32767 ∨ 32767 < y))

/-- The input number of a converter's multiplexer input (R268). -/
def ainOf (c : Fin 24) (input : BitVec 2) : Nat := 4 * c.val + input.toNat

/-- The entry of a converter's input at its range (R276). -/
def State.calEntry (s : State) (c : Fin 24) (input : BitVec 2) : Nat × Int :=
  let n := ainOf c input
  let k := 4 * n + s.get (ADC_INCFG.range n)
  (s.get (ADC_CAL_GAIN.gain k), signExt 20 (s.get (ADC_CAL_OFS.offset k)))

/-- Position of a result for reducer r (R283): the instant, the target angle, or the live position. -/
def State.resultPos (s : State) (c : Fin 24) (at' : Time) (target : Option Word) (r : Fin 4) : Dword :=
  if s.flag (ADC_RCFG.kind c r) then
    match target with
    | some a => a.setWidth 64
    | none => (s.live (Fin.ofNat 8 (s.get (ADC_RCFG.domain c r)))).setWidth 64
  else at'

/-- A converter samples an input (R270). -/
def sampleInput (c : Fin 24) (input : BitVec 2) (at' : Time) (target : Option Word) (use : ConvUse) (s : State) : State :=
  let (g, o) := s.calEntry c input
  let x : Conversion :=
    { at' := at', input := input, range := s.get (ADC_INCFG.range (ainOf c input)), ext := s.flag ADC_CTRL.ref_sel, gain := g, ofs := o,
      pos := Vector.ofFn fun r => s.resultPos c at' target r, use := use }
  s.modConv c fun y => { y with run := some x, last := some at' }

/-- The converter can sample at an instant: no conversion runs, and 1,600 units have passed since its last sample (R270). -/
def State.canSample (s : State) (c : Fin 24) (at' : Time) : Bool :=
  let x := s.adc.conv[c]
  x.run.isNone && (match x.last with | some t => decide (t.toNat + 1600 ≤ at'.toNat) | none => true)

/-- Whether slot number `n` of a pass, counted through its repetitions, is still to be sampled (R271, R272). -/
def Pass.goesOn (p : Pass) : Bool := p.next == 0 || p.again || p.next % p.len != 0

/-- The group is busy until the end of the conversion of its last slot (R272). -/
def passCheck (g : Fin 8) (s : State) : State :=
  s.modGrp g fun x => { x with pass := x.pass.filter fun p => p.goesOn || p.running != 0 }

/-- Instant of the next slot (R271). -/
def Pass.instant (p : Pass) : Time := p.trig.at' + BitVec.ofNat 64 (p.next * p.spacing)

/-- The next slot's instant falls in this cycle, or has passed. -/
def State.slotDue (s : State) (g : Fin 8) : Bool :=
  match (s.adc.grp[g]).pass with
  | none => false
  | some p => p.goesOn && decide (p.instant < s.nextNow)

/-- The trigger record of a pass (R279). -/
def triggerRec (g : Fin 8) (t : Trig) : FrameRec :=
  { at' := t.at', due := t.at' + 3200, group := g, trig := true, cells := [],
    head := leBytes 2 (0x4000 + g.val * 1024 + t.kind.val * 128 + t.late.toNat * 64) ++ [t.tag, 0] ++ leBytes 4 t.angle.toNat ++
      leBytes 8 t.at'.toNat }

/-- SLOT_SAMPLE (R271, R275): every member samples; one that an urgent conversion occupies is skipped, and so is one that can not sample yet
for another reason (log entry 47). -/
def slotSample (g : Fin 8) (s : State) : State :=
  match (s.adc.grp[g]).pass with
  | none => s
  | some p =>
    if s.slotDue g = false then s
    else
      let j := p.next % p.len
      let at' := p.instant
      let s := if p.next = 0 then addRec (triggerRec g p.trig) s else s
      let busy (c : Fin 24) : Bool := !s.canSample c at'
      let on := s.adcOn
      let target := if p.next = 0 ∧ p.trig.kind = 1 then some p.trig.angle else none
      let framed := p.members.filter fun (c : Fin 24) => s.flag (ADC_SEQ.frame c j)
      let skip := on && p.members.any busy
      let row : FrameRec :=
        { at' := at', due := at' + 4800, group := g, trig := false,
          head := leBytes 2 (0x2000 + g.val * 1024 + j * 32 + skip.toNat * 16 + p.next / p.len % 16),
          cells := framed.map fun c => (c, if on && !busy c then none else some noResult) }
      let started := if on then p.members.filter (fun c => !busy c) else []
      let s := if framed = [] then s else addRec row s
      let s := if on then p.members.foldl (fun s c =>
          if busy c then (s.incSat (ADC_CSTAT.skips c)).raise (ADC_CSTAT.skipped c)
          else sampleInput c (BitVec.ofNat 2 (s.get (ADC_SEQ.in' c j))) at' target (.slot g) s) s else s
      passCheck g (s.modGrp g fun x =>
        { x with pass := some { p with next := p.next + 1, running := p.running + started.length } })
def execSlotSample (g : Fin 8) (s : State) : Result := .next (slotSample g s)

/-! ### Urgent conversions (R220, R275) -/

/-- The record of an urgent request; an overflow record carries no result. -/
def urgentRec (c : Fin 24) (input : BitVec 2) (time : Time) (valid : Bool) (code : BitVec 16) : List Byte :=
  leBytes 8 time.toNat ++ leBytes 4 (valid.toNat * 2 ^ 31 + (!valid).toNat * 2 ^ 30 + c.val * 2 ^ 24 + ainOf c input * 2 ^ 16 +
    code.toNat) ++ leBytes 4 0

/-- Queue an urgent record for the writer. -/
def queueUrgent (addr : BitVec 24) (b : List Byte) (ch : Fin 512) (s : State) : State :=
  s.modAdc fun x => { x with queue := x.queue ++ [.urgent addr.toNat b ch (s.now + 3200)] }

/-- The overflow record of an urgent request, whose result code is a free value (R220, R270). -/
def overflowRecord (c : Fin 24) (input : BitVec 2) (addr : BitVec 24) (ch : Fin 512) (s : State) : State :=
  let (code, s) := s.fresh 16
  queueUrgent addr (urgentRec c input noTime false code) ch s

/-- URGENT_REQUEST_ARRIVAL (R220, R270): the request joins its converter's queue; a fifth, or one to a converter that is off,
gets an overflow record. -/
def urgentArrival (c : Fin 24) (input : BitVec 2) (addr : BitVec 24) (ch : Fin 512) (s : State) : State :=
  if s.adcOn && decide ((s.adc.conv[c]).urgent.length < 4) then
    s.modConv c fun x => { x with urgent := x.urgent ++ [⟨input, addr, ch, s.tb.cyc⟩] }
  else
    let s := if s.adcOn then (s.raise (ADC_CSTAT.urg_ovf c)).raise ADC_STAT.urg_ovf else s
    overflowRecord c input addr ch s
def execUrgentRequestArrival (c : Fin 24) (input : BitVec 2) (addr : BitVec 24) (ch : Fin 512) (s : State) : Result :=
  .next (urgentArrival c input addr ch s)

/-- An urgent request can be sampled at the start of this cycle (R275): it arrived before, no conversion has ended in this cycle, and the
converter can sample. With the converters off it is answered at once (R270; log entry 47). -/
def State.urgentDue (s : State) (c : Fin 24) : Bool :=
  match (s.adc.conv[c]).urgent with
  | [] => false
  | q :: _ => !s.adcOn || (decide (q.cyc < s.tb.cyc) && decide ((s.adc.conv[c]).ended ≤ s.tb.cyc) && s.canSample c s.now)

/-- URGENT_CONVERSION (R275): the idle converter samples its head request at phase 0. -/
def urgentConversion (c : Fin 24) (s : State) : State :=
  match (s.adc.conv[c]).urgent with
  | [] => s
  | q :: r =>
    if s.urgentDue c = false then s
    else if s.adcOn = false then overflowRecord c q.input q.addr q.ch (s.modConv c fun x => { x with urgent := r })
    else sampleInput c q.input s.now none (.urgent q.addr q.ch) (s.modConv c fun x => { x with urgent := r })
def execUrgentConversion (c : Fin 24) (s : State) : Result := .next (urgentConversion c s)

/-! ### Window reducers (R283–R285) -/

/-- Cycle length of a reducer's domain. -/
def State.redCycle (s : State) (c : Fin 24) (r : Fin 4) : Nat := s.cycleAu (Fin.ofNat 8 (s.get (ADC_RCFG.domain c r)))

/-- A position lies in the current window (R283). -/
def State.inWindow (s : State) (c : Fin 24) (r : Fin 4) (pos : Dword) : Bool :=
  let x := (s.adc.conv[c]).red[r]
  if s.flag (ADC_RCFG.kind c r) then
    let n := s.redCycle c r
    let d (a b : Dword) : Nat := (a.toNat % 2 ^ 32 % n + n - b.toNat % 2 ^ 32 % n) % n
    decide (d pos x.start < d x.stop x.start)
  else decide (x.start ≤ pos) && decide (pos < x.stop)

/-- Whether a result crosses the threshold (R285). -/
def crosses (dir : Nat) (prev x thr : Int) : Bool :=
  let rising := decide (prev < thr) && decide (thr ≤ x)
  let falling := decide (thr < prev) && decide (x ≤ thr)
  (dir % 2 == 1 && rising) || (dir / 2 == 1 && falling)

/-- A result enters the running values (R285). -/
def RedAcc.add (a : RedAcc) (x : Int) (pos : Dword) (dir : Nat) (thr : Int) : RedAcc :=
  { count := a.count + 1, sum := a.sum + x, sumsq := a.sumsq + (x * x).toNat,
    min := match a.min with | some (m, p) => if x < m then some (x, pos) else some (m, p) | none => some (x, pos),
    max := match a.max with | some (m, p) => if m < x then some (x, pos) else some (m, p) | none => some (x, pos),
    prev := some x,
    cross := match a.cross, a.prev with
      | some p, _ => some p
      | none, some y => if crosses dir y x thr then some pos else none
      | none, none => none }

/-- The set of R221 from the running values. -/
def RedAcc.publish (a : RedAcc) (seq : Word) (angle loss : Bool) : Vector Dword 8 :=
  #v[dwordOfInt a.sum, BitVec.ofNat 64 a.sumsq,
    match a.min with | some (m, _) => dwordOfInt m | none => noTime,
    match a.max with | some (m, _) => dwordOfInt m | none => noTime,
    match a.min with | some (_, p) => p | none => noTime,
    match a.max with | some (_, p) => p | none => noTime,
    a.cross.getD noTime,
    BitVec.ofNat 64 (seq.toNat + 2 ^ 32 * (a.count % 2 ^ 16) + 2 ^ 48 * a.cross.isSome.toNat + 2 ^ 49 * angle.toNat +
      2 ^ 50 * loss.toNat)]

/-- WINDOW_PUBLISH (R284): once the conversions before the close are corrected, the set is published and the next window is
chosen. In Park nothing is published (R287). -/
def windowPublish (c : Fin 24) (r : Fin 4) (s : State) : State :=
  let x := (s.adc.conv[c]).red[r]
  match x.closed with
  | none => s
  | some (tc, loss) =>
    let early := match (s.adc.conv[c]).run with | some v => decide (v.at' < tc) | none => false
    if early || s.parkHold then s
    else
      let angle := s.flag (ADC_RCFG.kind c r)
      let again := s.flag (ADC_RCFG.mode c r)
      let (active, start, stop) :=
        match x.next with
        | some (a, b) => (true, a, b)
        | none => (again, if again && !angle then x.stop else x.start,
                          if again && !angle then x.stop + (x.stop - x.start) else x.stop)
      let s := s.modRed c r fun y =>
        { y with seq := y.seq + 1, pub := some (y.acc.publish (y.seq + 1) angle loss), acc := RedAcc.reset, closed := none,
                 next := none, opened := false, lost := false, active := active, start := start, stop := stop }
      if s.flag (ADC_RCFG.notify c r) then s.cause (chanOf (s.get (ADC_RCFG.channel c r))) .adc else s
def execWindowPublish (c : Fin 24) (r : Fin 4) (s : State) : Result := .next (windowPublish c r s)

/-- The current window closes in this cycle (R284), and whether by a loss of sync. -/
def State.closeDue (s : State) (c : Fin 24) (r : Fin 4) : Option Bool :=
  let x := (s.adc.conv[c]).red[r]
  let d : Fin 8 := Fin.ofNat 8 (s.get (ADC_RCFG.domain c r))
  if x.active = false || x.closed.isSome || s.flag (ADC_RCFG.en c r) = false then none
  else if s.flag (ADC_RCFG.kind c r) = false then (if x.stop ≤ s.now then some false else none)
  else if x.lost then some true
  else if x.opened = false then none
  else if s.inWindow c r ((s.live d).setWidth 64) then none
  else some false

/-- WINDOW_CLOSE (R284). -/
def windowClose (c : Fin 24) (r : Fin 4) (s : State) : State :=
  match s.closeDue c r with
  | none => s
  | some loss => s.modRed c r fun x => { x with closed := some (s.now, loss) }
def execWindowClose (c : Fin 24) (r : Fin 4) (s : State) : Result := .next (windowClose c r s)

/-- A corrected result reaches the reducers of its converter (R283–R285). -/
def feedReducer (c : Fin 24) (v : Conversion) (code : BitVec 16) (r : Fin 4) (s : State) : State :=
  if s.flag (ADC_RCFG.en c r) && (BitVec.ofNat 4 (s.get (ADC_RCFG.in_mask c r))).getLsbD v.input.toNat then
    let s := match ((s.adc.conv[c]).red[r]).closed with
      | some (tc, _) => if tc ≤ v.at' then windowPublish c r s else s
      | none => s
    let x := (s.adc.conv[c]).red[r]
    let before := match x.closed with | some (tc, _) => decide (v.at' < tc) | none => true
    if x.active && before && s.inWindow c r ((v.pos)[r]) then
      let dir := s.get (ADC_RCFG.dir c r)
      let thr := signExt 16 (s.get (ADC_RTHR.thr c r))
      s.modRed c r fun y => { y with acc := y.acc.add code.toInt ((v.pos)[r]) dir thr }
    else s
  else s

/-- The result of a slot takes its place in its row, which is then due 400 ns after the earliest end of a conversion in it (R19). -/
def fillCell (g : Fin 8) (at' : Time) (c : Fin 24) (code : BitVec 16) (s : State) : State :=
  s.modAdc fun x => { x with recs := x.recs.map fun r =>
    if r.group = g ∧ r.at' = at' ∧ r.trig = false then
      { r with due := if s.now + 3200 < r.due then s.now + 3200 else r.due,
               cells := r.cells.map fun p => if p.1 = c ∧ p.2 = none then (c, some code) else p }
    else r }

/-- A conversion ends 190 to 200 ns after its instant (R268, R270). A tick ends it in the last cycle of that time, so that only a step of GTB passes
it (log entry 47). -/
def Conversion.canEnd (v : Conversion) (s : State) : Bool := decide (v.at'.toNat + 1520 < s.nextNow.toNat)

/-- The raw code of a conversion of the voltage `vin` with `vext` on VREF_EXT, and whether the input is beyond its span. Without a reference
voltage the formula gives no code: a free value (log entry 47). -/
def rawOf (v : Conversion) (vin : Int) (vext : Nat) (s : State) : BitVec 16 × Bool × State :=
  let vref := if v.ext then vext else vrefInternal
  if vref = 0 then
    let (x, s) := s.fresh 17
    (x.setWidth 16, x.getLsbD 16, s)
  else (rawCode v.range vin vref, beyondSpan v.range vin vref, s)

/-- CONVERSION_END (R268, R269, R270, R276): the result of the held input voltage VP − VN, in nanovolts and with the converter's own error
in it, is corrected and goes to its row, its urgent record or the calibration point, and to the reducers. -/
def conversionEnd (c : Fin 24) (vin : Int) (vext : Nat) (s : State) : State :=
  match (s.adc.conv[c]).run with
  | none => s
  | some v =>
    if v.canEnd s = false then s else
    let (raw, ovr, s) := rawOf v vin vext s
    let (code, sat) := correct raw ovr v.gain v.ofs
    let s := s.modConv c fun x => { x with run := none, ended := s.tb.cyc + 1 }
    let s := if sat then (s.raise (ADC_CSTAT.sat c)).raise ADC_STAT.sat else s
    match v.use with
    | .cal => s.modAdc fun x =>
      { x with cal := x.cal.map fun p => { p with taken := p.taken + 1, sum := p.sum + raw.toInt }, sample := some (raw, code) }
    | .urgent addr ch => forAll 4 (feedReducer c v code) (queueUrgent addr (urgentRec c v.input v.at' true code) ch s)
    | .slot g =>
      let s := fillCell g v.at' c code s
      let s := passCheck g (s.modGrp g fun x => { x with pass := x.pass.map fun p => { p with running := p.running - 1 } })
      forAll 4 (feedReducer c v code) s
def execConversionEnd (c : Fin 24) (vin : Int) (vext : Nat) (s : State) : Result := .next (conversionEnd c vin vext s)

/-- WINDOW_SUBMIT (R222, R284): the next window, which is current at once while the reducer waits. -/
def windowSubmit (c : Fin 24) (r : Fin 4) (start stop : Dword) (s : State) : State :=
  if s.flag (ADC_RCFG.en c r) = false then s
  else s.modRed c r fun x =>
    if x.active then { x with next := some (start, stop) }
    else { x with active := true, start := start, stop := stop, opened := false, lost := false, acc := RedAcc.reset }
def execWindowSubmit (c : Fin 24) (r : Fin 4) (start stop : Dword) (s : State) : Result := .next (windowSubmit c r start stop s)

/-- REDUCER_ENABLE, and every write of ADC_RCFG (R284): while en = 1 only en may change. -/
def rcfgWrite (c : Fin 24) (r : Fin 4) (v : Word) (s : State) : State :=
  let on := fieldOf v (ADC_RCFG.en c r) = 1
  if s.flag (ADC_RCFG.en c r) then
    if on then s else (s.clear (ADC_RCFG.en c r)).modRed c r fun x => { x with active := false, closed := none, next := none }
  else
    let s := s.plainWrite (ADC_RCFG c r) v
    if on then s.modRed c r fun x =>
      { x with active := true, start := s.rd64 (ADC_RSTART c r), stop := s.rd64 (ADC_REND c r), opened := false, lost := false, closed := none,
               next := none, acc := RedAcc.reset, seq := 0, pub := none }
    else s
def execReducerEnable (c : Fin 24) (r : Fin 4) (v : Word) (s : State) : Result := .next (rcfgWrite c r v s)

/-- A write of the ADC_REND high word submits the window (R284). -/
def rendHighWrite (c : Fin 24) (r : Fin 4) (v : Word) (s : State) : State :=
  let s := s.wr (ADC_REND c r + 4) v
  windowSubmit c r (s.rd64 (ADC_RSTART c r)) (s.rd64 (ADC_REND c r)) s

/-- Field `f` of a reducer's last result set, and whether there is one (R221). -/
def State.redField (s : State) (c : Fin 24) (r : Fin 4) (f : Fin 8) : Dword × Bool :=
  match ((s.adc.conv[c]).red[r]).pub with
  | some p => (p[f], true)
  | none => (if f = 7 then 0 else noTime, false)

/-! ### Group commands -/

/-- CHANNEL_TRIGGER (R219, R273): one channel trigger may be pending; an instant in the cycle of arrival fires in it; a time behind, or 2³⁹
or more ahead, triggers at once, which is phase 0 of the next cycle, and late. -/
def channelTrigger (g : Fin 8) (time : Option Time) (tag : Byte) (s : State) : State :=
  if s.flag (ADC_GCFG.en g) = false then s
  else if ((s.adc.grp[g]).chan).isSome then (s.incSat (ADC_GSTAT.chan_drops g)).raise (ADC_GSTAT.chan_drop g)
  else
    let t := time.getD s.nextNow
    let bad := decide (t < s.now) || decide (2 ^ 39 ≤ (t - s.now).toNat)
    if s.inCycle t then fireTrigger g ⟨3, t, false, tag, BitVec.allOnes 32⟩ s else
    s.modGrp g fun x => { x with chan := some ⟨3, if bad then s.nextNow else t, bad, tag, BitVec.allOnes 32⟩ }
def execChannelTrigger (g : Fin 8) (time : Option Time) (tag : Byte) (s : State) : Result := .next (channelTrigger g time tag s)

/-- HOST_TRIGGER (R273): phase 0 of the next cycle. -/
def hostTrigger (g : Fin 8) (s : State) : State :=
  if s.flag (ADC_GCFG.en g) then
    s.modGrp g fun x => { x with soon := x.soon ++ [⟨4, s.nextNow, false, 0, BitVec.allOnes 32⟩] }
  else s
def execHostTrigger (g : Fin 8) (s : State) : Result := .next (hostTrigger g s)

/-- GROUP_STOP (R272). -/
def groupStop (g : Fin 8) (s : State) : State :=
  passCheck g (s.modGrp g fun x => { x with pass := x.pass.map fun p => { p with again := false } })
def execGroupStop (g : Fin 8) (s : State) : Result := .next (groupStop g s)

/-- GROUP_CLR_COUNTS (R272). -/
def groupClrCounts (g : Fin 8) (s : State) : State := (s.wr (ADC_GCNT g) 0).clear (ADC_GSTAT.chan_drops g)
def execGroupClrCounts (g : Fin 8) (s : State) : Result := .next (groupClrCounts g s)

/-- A write of ADC_GCMD. -/
def gcmdWrite (g : Fin 8) (v : Word) (s : State) : State :=
  let s := if fieldOf v (ADC_GCMD.clr_counts g) = 1 then groupClrCounts g s else s
  let s := if fieldOf v (ADC_GCMD.stop g) = 1 then groupStop g s else s
  if fieldOf v (ADC_GCMD.trig g) = 1 then hostTrigger g s else s

/-- GTIME_ARM (R273): a write of the ADC_GTIME high word. -/
def gtimeArm (g : Fin 8) (v : Word) (s : State) : State :=
  (s.wr (ADC_GTIME g + 4) v).modGrp g fun x => { x with timeArmed := true }
def execGtimeArm (g : Fin 8) (v : Word) (s : State) : Result := .next (gtimeArm g v s)

/-- The time trigger is due. -/
def State.timeDue (s : State) (g : Fin 8) : Bool :=
  s.flag (ADC_GCFG.en g) && s.flag (ADC_GCFG.time_en g) && (s.adc.grp[g]).timeArmed && decide (s.rd64 (ADC_GTIME g) < s.nextNow)

/-- TIME_TRIGGER (R273): fires, then GTIME advances by its period, past every period that lies behind; with no period the
source fires once. -/
def timeTrigger (g : Fin 8) (s : State) : State :=
  if s.timeDue g = false then s
  else
    let t := s.rd64 (ADC_GTIME g)
    let p := s.get (ADC_GPER.period g)
    let trig : Trig := ⟨0, t, false, 0, BitVec.allOnes 32⟩
    let late := decide (t < s.now)
    let s := if late then fireLate g trig s else fireTrigger g trig s
    if p = 0 then (s.clear (ADC_GCFG.time_en g)).modGrp g fun x => { x with timeArmed := false }
    else
      let n := if late then (s.now.toNat - t.toNat) / p + 1 else 1
      groupMissed g (n - 1) (s.wr64 (ADC_GTIME g) (t + BitVec.ofNat 64 (n * p)))
def execTimeTrigger (g : Fin 8) (s : State) : Result := .next (timeTrigger g s)

/-- ANGLE_TARGET_FIRE (R274): the first fixed target whose time has come. -/
def angleTargetFire (g : Fin 8) (s : State) : State :=
  match (s.adc.grp[g]).targets with
  | [] => s
  | (t, a) :: r =>
    if t < s.nextNow then
      let trig : Trig := ⟨1, t, false, 0, BitVec.ofNat 32 a⟩
      let s := s.modGrp g fun x => { x with targets := r }
      if t < s.now then fireLate g trig s else fireTrigger g trig s
    else s
def execAngleTargetFire (g : Fin 8) (s : State) : Result := .next (angleTargetFire g s)

/-- EVENT_TRIGGER (R273): the delay after the pulse has passed. -/
def eventTrigger (g : Fin 8) (s : State) : State :=
  match (s.adc.grp[g]).evt with
  | none => s
  | some t =>
    if t < s.nextNow then
      let trig : Trig := ⟨2, t, false, BitVec.ofNat 8 (s.get (ADC_GEVT.event g)), BitVec.allOnes 32⟩
      let s := s.modGrp g fun x => { x with evt := none }
      if t < s.now then fireLate g trig s else fireTrigger g trig s
    else s
def execEventTrigger (g : Fin 8) (s : State) : Result := .next (eventTrigger g s)

/-- Channel, host and late triggers fire in the cycle of their instant (R273). -/
def fireWaiting (g : Fin 8) (s : State) : State :=
  let x := s.adc.grp[g]
  let due := (x.soon ++ x.chan.toList).filter fun t => decide (t.at' < s.nextNow)
  let s := s.modGrp g fun y =>
    { y with soon := y.soon.filter fun t => !decide (t.at' < s.nextNow), chan := y.chan.filter fun t => !decide (t.at' < s.nextNow) }
  let byKind (k : Nat) : List Trig := due.filter fun t => t.kind.val == k
  ((List.range 5).flatMap byKind).foldl (fun s t => fireTrigger g t s) s

/-- GROUP_ENABLE_WRITE, and every write of ADC_GCFG (R271, R272): while en = 1 only en may be cleared, which removes the
pending triggers and lets the running pass complete. -/
def gcfgWrite (g : Fin 8) (v : Word) (s : State) : State :=
  let on := fieldOf v (ADC_GCFG.en g) = 1
  if s.flag (ADC_GCFG.en g) then
    if on then s
    else groupStop g ((s.clear (ADC_GCFG.en g)).modGrp g fun x =>
      { x with timeArmed := false, targets := [], evt := none, chan := none, soon := [] })
  else s.plainWrite (ADC_GCFG g) v
def execGroupEnableWrite (g : Fin 8) (v : Word) (s : State) : Result := .next (gcfgWrite g v s)

/-- A write of ADC_CCFG or ADC_SEQ: ignored while the group is enabled (R271). -/
def groupOpen (c : Fin 24) (s : State) : Bool :=
  !(s.flag (ADC_CCFG.member c) && s.flag (ADC_GCFG.en (s.get (ADC_CCFG.group c))))
def ccfgWrite (c : Fin 24) (v : Word) (s : State) : State :=
  let joins := fieldOf v (ADC_CCFG.member c) = 1 && s.flag (ADC_GCFG.en (fieldOf v (ADC_CCFG.group c)))
  if groupOpen c s && !joins then s.plainWrite (ADC_CCFG c) v else s
def seqWrite (c : Fin 24) (off : Nat) (v : Word) (s : State) : State := if groupOpen c s then s.plainWrite off v else s

/-- RING_ENABLE, and every write of ADC_RING_CTRL (R281). -/
def ringCtrlWrite (v : Word) (s : State) : State :=
  let s := s.plainWrite ADC_RING_CTRL v
  if s.flag ADC_RING_CTRL.en then
    (s.wr ADC_RING_WR 0).modAdc fun x => { x with hold := [], queue := x.queue ++ x.after, after := [], need := 0 }
  else s
def execRingEnable (v : Word) (s : State) : Result := .next (ringCtrlWrite v s)

/-- ADC_RING_BASE and ADC_RING_SIZE are writable only while the ring is off. -/
def ringPlaceWrite (off : Nat) (v : Word) (s : State) : State := if s.flag ADC_RING_CTRL.en then s else s.plainWrite off v

/-! ### Calibration (R277, R278) -/

/-- A rejected calibration (R278). -/
def calReject (err : Nat) (s : State) : State := (s.raise ADC_STAT.cal_err).set ADC_CAL_STAT.err err

/-- CALIBRATION_GO, and every write of ADC_CAL_CTRL. -/
def calCtrlWrite (v : Word) (s : State) : State :=
  let s := s.plainWrite ADC_CAL_CTRL v
  if fieldOf v ADC_CAL_CTRL.go = 0 || s.adc.cal.isSome then s
  else
    let n := s.get ADC_CAL_CTRL.input
    let c : Fin 24 := Fin.ofNat 24 (n / 4)
    if groupOpen c s = false then calReject 1 s
    else (s.raise ADC_CAL_STAT.busy).modAdc fun x =>
      { x with cal := some ⟨n, s.get ADC_CAL_CTRL.range, s.flag ADC_CAL_CTRL.point, s.get ADC_CAL_CTRL.e, 0, 0, s.nextNow⟩ }
def execCalibrationGo (v : Word) (s : State) : Result := .next (calCtrlWrite v s)

/-- The next sample of the calibration point (R277): on an idle converter with no urgent request waiting. -/
def calSample (s : State) : State :=
  match s.adc.cal with
  | none => s
  | some p =>
    let c : Fin 24 := Fin.ofNat 24 (p.input / 4)
    let x := s.adc.conv[c]
    let at' := if p.nextAt < s.now then s.now else p.nextAt
    if s.adcOn && decide (p.taken < 2 ^ p.e) && s.canSample c at' && x.urgent.isEmpty && decide (p.nextAt < s.nextNow) then
      let s := sampleInput c (BitVec.ofNat 2 p.input) at' none .cal s
      s.modAdc fun y => { y with cal := some { p with nextAt := at' + 1600 } }
    else s

/-- The full point computes and writes the entry, or is rejected (R277, R278). -/
def calFinish (p : CalPoint) (m1 : Int) (s : State) : State :=
  match s.adc.zero with
  | none => calReject 2 s
  | some (n, r, m0) =>
    let t0 := signExt 16 (s.get ADC_CAL_TGT.t0)
    let t1 := signExt 16 (s.get ADC_CAL_TGT.t1)
    let dm := m1 - m0
    let dt := t1 - t0
    if n ≠ p.input ∨ r ≠ p.range then calReject 2 s
    else if dm.natAbs < 256 * 1024 ∨ dm * dt < 0 then calReject 3 s
    else
      let gain := roundDiv (dt * 2 ^ 30) dm
      let ofs := roundDiv (t0 * 16 * 2 ^ 26 - gain * m0) (2 ^ 26)
      if gain < 0x200000 ∨ 0x5FFFFF < gain ∨ 32767 * 16 < ofs.natAbs then calReject 4 s
      else
        let k := 4 * p.input + p.range
        (s.set (ADC_CAL_GAIN.gain k) gain.toNat).set (ADC_CAL_OFS.offset k) (BitVec.ofInt 20 ofs).toNat

/-- CALIBRATION_COMPLETE (R277): the 2^e samples are taken; the mean is kept, and a full point computes the entry. -/
def calibrationComplete (s : State) : State :=
  match s.adc.cal with
  | none => s
  | some p =>
    if p.taken < 2 ^ p.e then s
    else
      let m : Int := roundDiv (p.sum * 256) (2 ^ p.e)
      let s := (s.wr ADC_CAL_MEAN (wordOfInt m)).clear ADC_CAL_STAT.busy
      let s := (s.modAdc fun x => { x with cal := none }).raise ADC_STAT.cal_done
      if p.full then calFinish p m s
      else (s.modAdc fun x => { x with zero := some (p.input, p.range, m) }).raise ADC_CAL_STAT.zero_held
def execCalibrationComplete (s : State) : Result := .next (calibrationComplete s)

/-! ### The cycle and the Tally -/

/-- An angle window opens in the first cycle in which the live position lies inside (R284): looked at once the cycle's decisions are
made. -/
def openWindow (c : Fin 24) (r : Fin 4) (s : State) : State :=
  let x := (s.adc.conv[c]).red[r]
  let d : Fin 8 := Fin.ofNat 8 (s.get (ADC_RCFG.domain c r))
  if x.active && !x.opened && x.closed.isNone && s.flag (ADC_RCFG.kind c r) && s.tracking d &&
      s.inWindow c r ((s.live d).setWidth 64) then
    s.modRed c r fun y => { y with opened := true }
  else s

/-- The writer takes a line whose oldest byte has waited 250 ns (R282). -/
def ageLine (s : State) : State :=
  if s.adc.hold ≠ [] ∧ s.adc.holdSince.toNat + 2000 ≤ s.now.toNat then handLine s else s

/-- Frames whose writes are all done report (R280). -/
def framesDone (s : State) : State :=
  match s.adc.queue with
  | .frameDone m :: r => frameDone m (s.modAdc fun x => { x with queue := r })
  | _ => s

/-- What the block does in a cycle without a command. -/
def adcCycle (s : State) : State :=
  let s := forAll 8 fireWaiting s
  let s := ageLine (flushRecs s.adc.recs.length s)
  calSample (framesDone s)

/-- What the block does at the end of a cycle. -/
def openWindows (s : State) : State := forAll 24 (fun c s => forAll 4 (openWindow c) s) s

/-- ADC_WR_USE at a boundary (R282). -/
def adcTally (s : State) : State :=
  let n := min s.adc.use 255
  let s := s.set ADC_WR_USE.last n
  let s := if s.get ADC_WR_USE.peak < n then s.set ADC_WR_USE.peak n else s
  s.modAdc fun x => { x with use := 0 }

/-! ### Live registers -/

def gstatRead (g : Fin 8) (s : State) : Word :=
  let x := s.adc.grp[g]
  withField (withField (s.rd (ADC_GSTAT g)) (ADC_GSTAT.pend_chan g) x.chan.isSome.toNat) (ADC_GSTAT.busy g) x.pass.isSome.toNat
def cstatRead (c : Fin 24) (s : State) : Word :=
  withField (s.rd (ADC_CSTAT c)) (ADC_CSTAT.urg_depth c) (s.adc.conv[c]).urgent.length
def calOfsRead (k : Nat) (s : State) : Word := wordOfInt (signExt 20 (s.get (ADC_CAL_OFS.offset k)))
/-- Word of the current window's start or end as it reads (R284); with no window current, the one written last (log entry 47). -/
def windowWordRead (c : Fin 24) (r : Fin 4) (off : Nat) (s : State) : Word :=
  let x := (s.adc.conv[c]).red[r]
  if x.active = false then s.rd off
  else
    let v := if off < ADC_REND c r then x.start else x.stop
    if off % 8 = 0 then loWord v else hiWord v
/-- ADC_RD_DATA: the selected field. -/
def rdData (s : State) : Dword :=
  (s.redField (Fin.ofNat 24 (s.get ADC_RD_SEL.conv)) (Fin.ofNat 4 (s.get ADC_RD_SEL.reducer)) (Fin.ofNat 8 (s.get ADC_RD_SEL.field))).1

end Sys2Proof.Machine
end

