-- ==== Sys2Proof/Machine/Daybook.lean ====
section
/-!
DEFINITION. The Daybook (spec/13): DRAM and its ECC, staging and copying of streams, seals and freezes, throttling, BAR4.
-/
namespace Sys2Proof.Machine
open Sys2Proof

/-! ### DRAM (R311) -/

/-- Usable bytes of the Daybook. -/
def daybookSize : Nat := 896 * 2 ^ 20
/-- Internal address of Daybook offset 0. -/
def daybookBase : Nat := 0x40000000

/-- A byte nothing has written reads 0. Log entry 12. -/
def Daybook.byte (x : Daybook) (a : Nat) : Byte := Sparse.get (fun _ => 0) x.mem a
def Daybook.put (x : Daybook) (a : Nat) (b : Byte) : Daybook := { x with mem := Sparse.put (fun _ => 0) x.mem a b }
def Daybook.putMasked (x : Daybook) (a : Nat) : List (Option Byte) → Daybook
  | [] => x
  | b :: r => ((match b with | some v => x.put a v | none => x)).putMasked (a + 1) r
/-- The canonical form of the Daybook's memory. -/
def Daybook.wf (x : Daybook) : Bool := Sparse.wf (fun _ => (0 : Byte)) x.mem

/-- An uncorrectable word at Daybook word address `w` (R311). -/
def dbkUncorr (w : Nat) (s : State) : State :=
  let s := (s.raise DBK_GSTAT.uncorr).incSat DBK_ECC_CNT.uncorr_count
  let s := if s.flag DBK_ERR_ADDR.valid then s else (s.wr DBK_ERR_ADDR (BitVec.ofNat 32 (8 * w))).raise DBK_ERR_ADDR.valid
  s.fault .dbkUncorr

/-- What a read of a Daybook line finds (R311): the uncorrectable words that overlap the bytes a … a + n − 1. -/
def dbkCheck (a n : Nat) (e : LineEcc) (s : State) : List Nat × State :=
  let line := a / 32
  let hit (k : Nat) : Bool := decide (a < 32 * line + 8 * k + 8) && decide (32 * line + 8 * k < a + n)
  (List.range 4).foldl (fun (acc : List Nat × State) k =>
    if hit k = false then acc
    else if e.bad.getLsbD k then (acc.1 ++ [4 * line + k], dbkUncorr (4 * line + k) acc.2)
    else if e.corr.getLsbD k then
      (acc.1, ((acc.2.raise DBK_GSTAT.corr).incSat DBK_ECC_CNT.corr_count).fault .dbkCorr)
    else acc) ([], s)

/-- The throttle level of a DRAM-die reading in 1/16 °C (R312). -/
def throttleLevel (temp : Int) : Nat := if temp ≤ 85 * 16 then 0 else if temp ≤ 95 * 16 then 1 else 2

/-- The controller takes a throttle level; reaching 2 is a fault (R312, R419). -/
def setThrottle (l : Nat) (s : State) : State :=
  let old := s.get DBK_GSTAT.throttle
  let s := s.set DBK_GSTAT.throttle l
  if l = 2 ∧ old ≠ 2 then s.fault .dbkThrottle else s

/-- THROTTLE_CHANGE (R312, R402). -/
def execThrottleChange (temp : BitVec 16) (s : State) : Result := .next (setThrottle (throttleLevel temp.toInt) s)

/-! ### Staging (R315, R316) -/

/-- The oldest line of a stream in its Bezel-class slot (R315). -/
def assemblerLineWrite (m : Fin 16) (e : LineEcc) (s : State) : State :=
  match (s.dbk.stream[m]).lines with
  | [] => s
  | (a, b) :: r =>
    let s := s.modStream m fun x => { x with lines := r }
    if a < vaultSize then bankStore 5 a (b.map some) e (countSlot 5 s) else countSlot 5 s

/-- A line whose oldest byte has waited 250 ns goes to the writer (R315). -/
def ageStream (m : Fin 16) (s : State) : State :=
  let x := s.dbk.stream[m]
  if x.hold ≠ [] ∧ x.holdSince.toNat + 2000 ≤ s.now.toNat then
    s.modStream m fun y => { y with hold := [], lines := y.lines ++ [((s.staging m).1 + y.holdAt, y.hold)] }
  else s

/-- BLOCK_CLOSE (R316). -/
def blockClose (s : State) : State := forAll 16 (fun m s => if s.eventStream m then closeBlockOf m s else s) s
def execBlockClose (s : State) : Result := .next (blockClose s)

/-- A block of an earlier Tally is open. -/
def State.blockDue (s : State) : Bool :=
  (List.finRange 16).any fun m => s.eventStream m &&
    (match (s.dbk.stream[m]).open' with | some b => b.tally != s.tally | none => false)

/-! ### Copying (R319) -/

/-- Length of a stream's Daybook ring in bytes. -/
def State.ringBytes (s : State) (m : Fin 16) : Nat := 65536 * s.get (DBK_RING.size m)

/-- Staging bytes not yet in the Vault. -/
def State.unwritten (s : State) (m : Fin 16) : Nat :=
  if s.flag (DBK_CFG.kind m) then
    s.adc.hold.length + (s.adc.queue.map fun i => match i with | .bytes _ b _ => b.length | _ => 0).sum
  else
    let x := s.dbk.stream[m]
    x.hold.length + (x.lines.map fun l => l.2.length).sum

/-- Bytes of whole blocks that wait to be copied and stand in the Vault. -/
def State.sealedBytes (s : State) (m : Fin 16) : Nat :=
  let x := s.dbk.stream[m]
  min ((x.closed.map (·.len)).sum - x.part) (x.used - s.unwritten m)

/-- The next copy of a stream: source, destination and length (R319). -/
def State.nextCopy (s : State) (m : Fin 16) : Option (Nat × Nat × Nat) :=
  let x := s.dbk.stream[m]
  let (base, size) := s.staging m
  let off := s.get (DBK_WR.offset m)
  let len := min (s.sealedBytes m) (min (size - x.rd) (s.ringBytes m - off))
  let n : Fin 32 := Fin.ofNat 32 (s.get (DBK_CFG.dma m))
  if s.flag (DBK_CFG.en m) && x.copying.isNone && s.dmaState n == dmaIdle && !s.flag (DMA_STAT.sh_ready n) && decide (0 < len) then
    some (base + x.rd, daybookBase + 65536 * s.get (DBK_RING.base m) + off, len)
  else none

/-- COPIER_ARM (R319). -/
def copierArm (m : Fin 16) (s : State) : State :=
  match s.nextCopy m with
  | none => s
  | some (src, dst, len) =>
    let n : Fin 32 := Fin.ofNat 32 (s.get (DBK_CFG.dma m))
    let s := (s.wr64 (DMA_SH_SRC n) (BitVec.ofNat 64 src)).wr64 (DMA_SH_DST n) (BitVec.ofNat 64 dst)
    let s := (s.wr (DMA_SH_LEN n) (BitVec.ofNat 32 len)).wr (DMA_SH_CFG n)
      (BitVec.ofNat 32 (s.get (DBK_CFG.prio m) * 2 ^ 12 + 7 * 2 ^ 8))
    let s := s.raise (DMA_STAT.sh_ready n)
    s.modStream m fun x => { x with copying := some len }
def execCopierArm (m : Fin 16) (s : State) : Result := .next (copierArm m s)

/-- Closed blocks that `part` bytes cover have been copied whole; `start` counts the ring bytes before the first. -/
def takeBlocks : List Block → Nat → Nat → List Block × List Block × Nat
  | [], part, _ => ([], [], part)
  | b :: r, part, start =>
    if b.len ≤ part then
      let (d, rest, p) := takeBlocks r (part - b.len) (start + b.len)
      ({ b with pos := start } :: d, rest, p)
    else ([], b :: r, part)

/-- The blocks of a stream's Daybook ring that its next bytes overwrite leave it. -/
def Stream.prune (x : Stream) (size : Nat) : Stream :=
  let gone := x.ring.filter fun b => decide (b.pos + size < x.total)
  { x with ring := x.ring.filter fun b => decide (x.total ≤ b.pos + size), gone := x.gone + gone.length,
           passed := gone.foldl (fun o b => some (match o with | some k => max k b.tally | none => b.tally)) x.passed }

/-- A frozen stream's last copy is done (R322): the retained span. -/
def frozen (m : Fin 16) (s : State) : State :=
  let x := s.dbk.stream[m]
  match x.accepted with
  | none => s
  | some a =>
    if x.freezing && x.used == 0 then
      let size := s.ringBytes m
      let from' := a.tally - s.get (DBK_SPAN.pre m)
      let kept := x.ring.filter fun b => decide (from' ≤ b.tally)
      let short := match x.passed with | some k => decide (from' < k) | none => false
      let stop := s.get (DBK_WR.offset m)
      let first := match kept with | b :: _ => if size = 0 then 0 else b.pos % size | [] => stop
      let s := (s.wr (DBK_SEAL_POS m) (BitVec.ofNat 32 first)).wr (DBK_SEAL_POS m + 4) (BitVec.ofNat 32 stop)
      let s := (s.raiseIf short (DBK_STAT.short_pre m)).raise (DBK_STAT.sealed m)
      (s.set (DBK_STAT.state m) 2).modStream m fun x => { x with freezing := false }
    else s

/-- A copy of channel n's stream has completed (R319). -/
def copierDone (n : Fin 32) (s : State) : State :=
  match s.copierOf n with
  | none => s
  | some m =>
    let x := s.dbk.stream[m]
    match x.copying with
    | none => s
    | some len =>
      let (_, size) := s.staging m
      let ring := s.ringBytes m
      let off := s.get (DBK_WR.offset m) + len
      let s := if ring ≤ off then
          (s.set (DBK_WR.offset m) 0).set (DBK_WR.laps m) (s.get (DBK_WR.laps m) + 1)
        else s.set (DBK_WR.offset m) off
      let (done, closed, part) := takeBlocks x.closed (x.part + len) (x.total - x.part)
      let s := s.modStream m fun y =>
        { y with copying := none, rd := if size = 0 then 0 else (y.rd + len) % size, used := y.used - len, total := y.total + len,
                 closed := closed, part := part, ring := y.ring ++ done }
      frozen m (s.modStream m fun y => y.prune ring)

/-! ### Seals (R321, R322) -/

/-- SEAL_ARRIVAL (R321): a committed seal. -/
def execSealArrival (m : Fin 16) (t : Time) (s : State) : Result := .next (sealStream 1 m t s)
/-- HOST_SEAL (R321). -/
def hostSeal (m : Fin 16) (s : State) : State := sealStream 2 m (s.rd64 (DBK_SEAL_TIME m)) s
def execHostSeal (m : Fin 16) (s : State) : Result := .next (hostSeal m s)
/-- SEAL_EVENT (R321): a pulse of the stream's seal event. -/
def execSealEvent (m : Fin 16) (s : State) : Result := .next (sealOnEvent (s.get (DBK_CFG.seal_evt m)) m s)

/-- The boundary at which the stream freezes has come; an ADC stream waits for the frame before it (R322). -/
def State.freezeDue (s : State) (m : Fin 16) : Bool :=
  match (s.dbk.stream[m]).accepted with
  | none => false
  | some a =>
    s.get (DBK_STAT.state m) == 1 && !(s.dbk.stream[m]).freezing && decide (a.freezeAt ≤ s.tally) &&
      (!s.flag (DBK_CFG.kind m) ||
        ((s.adc.recs.all fun r => decide (a.freezeAt ≤ tallyOf r.at')) &&
          (match s.adc.frame with | some f => decide (a.freezeAt ≤ f.tally) | none => true)))

/-- STREAM_FREEZE (R322): the block before the boundary is the last; the stream reads FROZEN when it is copied. -/
def streamFreeze (m : Fin 16) (s : State) : State :=
  if s.freezeDue m then
    let s := if s.flag (DBK_CFG.kind m) then s else closeBlockOf m s
    frozen m (s.modStream m fun x => { x with freezing := true })
  else s
def execStreamFreeze (m : Fin 16) (s : State) : Result := .next (streamFreeze m s)

/-- REARM (R322): FROZEN to RECORD. -/
def rearm (m : Fin 16) (s : State) : State :=
  if s.get (DBK_STAT.state m) = 2 then
    (s.set (DBK_STAT.state m) 0).modStream m fun x =>
      { x with accepted := none, open' := none, rd := if s.flag (DBK_CFG.kind m) then s.get ADC_RING_WR.offset else x.wr }
  else s
def execRearm (m : Fin 16) (s : State) : Result := .next (rearm m s)

/-- STREAM_CLR_COUNT (R318). -/
def execStreamClrCount (m : Fin 16) (s : State) : Result := .next (s.clear (DBK_STAT.lost_count m))

/-- A write of DBK_CMD. -/
def dbkCmdWrite (m : Fin 16) (v : Word) (s : State) : State :=
  let s := if fieldOf v (DBK_CMD.clr_count m) = 1 then s.clear (DBK_STAT.lost_count m) else s
  let s := if fieldOf v (DBK_CMD.rearm m) = 1 then rearm m s else s
  if fieldOf v (DBK_CMD.seal m) = 1 then hostSeal m s else s

/-! ### Enabling a stream (R313) -/

/-- Two ranges overlap. -/
def overlap (a b : Nat × Nat) : Bool := decide (a.1 < b.1 + b.2) && decide (b.1 < a.1 + a.2)

/-- A stream may not be enabled. -/
def State.streamRefused (s : State) (m : Fin 16) : Bool :=
  let ring (k : Fin 16) : Nat × Nat := (65536 * s.get (DBK_RING.base k), s.ringBytes k)
  let others := (List.finRange 16).filter fun k => k != m && s.flag (DBK_CFG.en k)
  decide (daybookSize < (ring m).1 + (ring m).2) || decide (vaultSize < (s.staging m).1 + (s.staging m).2) ||
    others.any fun k => overlap (ring m) (ring k) || overlap (s.staging m) (s.staging k) ||
      s.get (DBK_CFG.dma k) == s.get (DBK_CFG.dma m)

/-- STREAM_ENABLE, and every write of DBK_CFG (R313): while en = 1 only en may change. -/
def dbkCfgWrite (m : Fin 16) (v : Word) (s : State) : State :=
  let on := fieldOf v (DBK_CFG.en m) = 1
  if s.flag (DBK_CFG.en m) then (if on then s else s.clear (DBK_CFG.en m))
  else
    let s := (s.plainWrite (DBK_CFG m) v).clear (DBK_CFG.en m)
    if on = false then s
    else if s.streamRefused m then s.raise (DBK_STAT.cfg_err m)
    else
      let wr := if s.flag (DBK_CFG.kind m) then s.get ADC_RING_WR.offset else 0
      let s := (s.raise (DBK_CFG.en m)).modStream m fun _ => { Stream.reset with wr := 0, rd := wr }
      let s := forAll 8 (fun t s =>
        if s.get (ETH_TLM_CFG.stream t) = m.val then
          { s with eth := { s.eth with tlm := vmod s.eth.tlm t fun x => { x with blk := 0, skip := 0 } } } else s) s
      (s.set (DBK_STAT.state m) 0).wr64 (DBK_WR m) 0
def execStreamEnable (m : Fin 16) (v : Word) (s : State) : Result := .next (dbkCfgWrite m v s)

/-- DBK_RING and DBK_STG ignore writes while en = 1 (R313). -/
def dbkPlaceWrite (m : Fin 16) (off : Nat) (v : Word) (s : State) : State :=
  if s.flag (DBK_CFG.en m) then s else s.plainWrite off v

/-! ### BAR4 (R323) -/

/-- The lines a byte range touches, each with the part that falls in it. -/
def dbkParts (a n : Nat) : List (Nat × Nat) := lineParts a n

/-- Bytes of a read through the window, each with whether its word is uncorrectable and therefore reads all ones (R311, R386), and the state
after; beyond the Daybook all ones (R323). -/
def windowRead (off len : Nat) (eccs : List LineEcc) (s : State) : List (Byte × Bool) × State :=
  let a := s.get DBK_WIN.base * 2 ^ 20 + off
  let r := (dbkParts a len).foldl (fun (acc : List (Byte × Bool) × State × Nat) p =>
    if daybookSize ≤ p.1 then (acc.1 ++ List.replicate p.2 (0xFF, false), acc.2.1, acc.2.2 + 1)
    else
      let (bad, s) := dbkCheck p.1 p.2 (eccs.getD acc.2.2 ⟨0, 0⟩) acc.2.1
      let b := (List.range p.2).map fun k =>
        if bad.contains ((p.1 + k) / 8) then ((0xFF : Byte), true) else (s.dbk.byte (p.1 + k), false)
      (acc.1 ++ b, s, acc.2.2 + 1)) (([] : List (Byte × Bool)), s, 0)
  (r.1, r.2.1)

/-- BAR4_READ: the completions of the read. -/
def bar4Read (off : BitVec 28) (len : Nat) (eccs : List LineEcc) (s : State) : State :=
  let (b, s) := windowRead off.toNat len eccs s
  complete off.toNat b s
def execBar4Read (off : BitVec 28) (len : Nat) (eccs : List LineEcc) (s : State) : Result := .next (bar4Read off len eccs s)

/-- BAR4_WRITE (R323): discarded. -/
def execBar4Write (s : State) : Result := .next (s.raise DBK_GSTAT.win_wr)

end Sys2Proof.Machine
end

