-- ==== Sys2Proof/Machine/Time.lean ====
section
/-!
DEFINITION. The Global Timebase, slew and loss of lock (spec/02).
-/
namespace Sys2Proof.Machine
open Sys2Proof

/-- Largest magnitude of TB_SLEW.rate: ±2,000 ppm of 8 units per cycle (R38). -/
def slewLimit : Int := 68719476

/-- The owner of TB_SLEW.rate named by TB_CTRL.slew_src (R38). -/
def slewSrc : SlewOwner → Nat
  | .host => 0 | .ptp => 1 | .sloulo => 2

/-- A rate from one of the three writers: only the owner's takes effect, saturated to the limit (R38). -/
def slewWrite (w : SlewOwner) (rate : Int) (s : State) : State :=
  if s.get TB_CTRL.slew_src ≠ slewSrc w then s
  else
    let r := max (-slewLimit) (min slewLimit rate)
    (s.wr TB_SLEW (wordOfInt r)).raiseIf (decide (r ≠ rate)) TB_STAT.slew_sat
/-- SLEW_WRITE (R38). -/
def execSlewWrite (w : SlewOwner) (rate : Word) (s : State) : Result := .next (slewWrite w rate.toInt s)

/-- Increment of the next cycle and the accumulator after it (R38): the accumulator's integer part moves up, down or not
at all. -/
def TimeBase.slewStep (b : TimeBase) (rate : Word) : Dword × Nat :=
  let a := b.acc + rate.signExtend 64
  let up := hiWord a - hiWord b.acc
  (a, if up = 1 then 9 else if up = BitVec.allOnes 32 then 7 else 8)

/-- A host read of the TB_GTB low word (R37): latches the high word and the Tally number. -/
def gtbLowRead (s : State) : Word × State :=
  (loWord s.now, (s.wr (TB_GTB + 4) (hiWord s.now)).wr64 TB_TALLY (BitVec.ofNat 64 s.tally))
/-- GTB_LOW_READ (R37). -/
def execGtbLowRead (s : State) : Result :=
  let (v, s) := gtbLowRead s
  .next { s with read := [v] }

/-- The value GTB resumes with after `aon` AON cycles (R40). -/
def resumeTime (hold : Time) (aon : BitVec 32) : Time := BitVec.ofNat 64 (hold.toNat + aon.toNat * 1953125 / 8)

/-- GTB is to step to `t` in the next cycle (R35). -/
def stepGtb (t : Time) (cause : Nat) (s : State) : State := s.modTb fun x => { x with load := some (t, cause) }

/-- What a step leaves: noncont, step_cause, and the value in TB_RESUME_GTB (R35, R40, R41). -/
def stepMarks (cause : Nat) (s : State) : State :=
  ((s.wr64 TB_RESUME_GTB s.now).raise TB_STAT.noncont).set TB_STAT.step_cause cause

/-- PLL_LOCK_LOSS (R41): the clocks stop and GTB holds; the AON elapsed counter clears; FLT_STAT.pll is set. -/
def pllLockLoss (s : State) : State :=
  if s.flag TB_STAT.pll_lock then ((s.clear TB_STAT.pll_lock).modTb fun b => { b with aon := 0 }).fault .pll else s
def execPllLockLoss (s : State) : Result := .next (pllLockLoss s)

/-- A node of a fabric that steps is left out of alignment (R41, R365). -/
def leaveAlignment (s : State) : State :=
  if s.flag SLO_STAT.admitted && !s.flag SLO_STAT.root then
    let s := { s with slo := { s.slo with stepped := true } }
    if s.get SLO_STAT.align = 2 then s.set SLO_STAT.align 1 else s
  else s

/-- PLL_RELOCK (R41): after a loss of lock GTB is loaded from the AON count with step_cause 3 in the first cycle. -/
def pllRelock (s : State) : State :=
  if s.flag TB_STAT.pll_lock || !s.flag FLT_BOOT.pll || s.get PWR_STAT.state = 6 then s
  else safeNStart (leaveAlignment (stepGtb (resumeTime s.now s.tb.aon) 3 (s.raise TB_STAT.pll_lock)))
def execPllRelock (s : State) : Result := .next (pllRelock s)

/-- PLL_LOCK (R34): the PLL first locks after RESET_N release; GTB is 0 in the first cycle. -/
def pllLock (s : State) : State :=
  if s.flag FLT_BOOT.pll || s.get PWR_STAT.state == 5 then s
  else safeNStart (((s.raise TB_STAT.pll_lock).raise FLT_BOOT.pll).modTb fun b =>
    { b with gtb := 0, inc := 8, boundary := true, boundaryDone := false })
def execPllLock (s : State) : Result := .next (pllLock s)

end Sys2Proof.Machine
end

