-- ==== Sys2Proof/Machine/Ether.lean ====
section
/-!
DEFINITION. Ethernet (spec/13, R324–R330): host transmit and receive buffers, PTP timestamps and servo, telemetry. Frames
stand without preamble and FCS, from the destination address on.
-/
namespace Sys2Proof.Machine
open Sys2Proof

def State.modEth (s : State) (f : Ether → Ether) : State := { s with eth := f s.eth }
def State.modTlm (s : State) (t : Fin 8) (f : Telemetry → Telemetry) : State :=
  s.modEth fun x => { x with tlm := vmod x.tlm t f }

/-- The `n` bytes of a value in network order. -/
def beBytes (n v : Nat) : List Byte := (leBytes n v).reverse
/-- A value of bytes in network order. -/
def beValue (bs : List Byte) : Nat := leValue bs.reverse

/-- The bytes a … a + n − 1 of a frame. -/
def cut (bs : List Byte) (a n : Nat) : List Byte := (bs.drop a).take n

/-! ### Frames -/

/-- The frame carries an 802.1Q tag. -/
def frameTagged (bs : List Byte) : Bool := beValue (cut bs 12 2) == 0x8100

/-- The PTP message of a frame (R325): over EtherType 0x88F7 or UDP/IPv4 port 319. -/
def ptpMessage (bs : List Byte) : Option (List Byte) :=
  let o := if frameTagged bs then 16 else 12
  let type := beValue (cut bs o 2)
  let p := bs.drop (o + 2)
  if type = 0x88F7 then some p
  else if type = 0x0800 ∧ (cut p 9 1) = [17] then
    let u := p.drop (4 * (beValue (cut p 0 1) % 16))
    if beValue (cut u 2 2) = 319 then some (u.drop 8) else none
  else none

/-- The sequenceId of a PTP event message: Sync, Delay_Req, Pdelay_Req, Pdelay_Resp (R325; message numbers and place of the
sequenceId PRESUMED from IEEE 1588-2008, log entry 36). -/
def ptpEvent (bs : List Byte) : Option (BitVec 16) :=
  match ptpMessage bs with
  | none => none
  | some p => if p.length < 34 ∨ 3 < beValue (cut p 0 1) % 16 then none else some (BitVec.ofNat 16 (beValue (cut p 30 2)))

/-- Destinations the receiver takes beside its own address (R324): broadcast and the PTP multicast addresses (PRESUMED
from IEEE 1588-2008, log entry 36). -/
def knownGroups : List Nat := [0xFFFFFFFFFFFF, 0x011B19000000, 0x0180C200000E, 0x01005E000181, 0x01005E00006B]

/-- The MAC is on (R326, R331). -/
def State.macOn (s : State) (m : Fin 2) : Bool := s.flag (ETH_CTRL.en m) && !s.parkHold
/-- The MAC can send. -/
def State.macUp (s : State) (m : Fin 2) : Bool := s.macOn m && s.flag (ETH_STAT.link_up m)

/-- The MAC pads a frame to 60 bytes (R326). -/
def padFrame (bs : List Byte) : List Byte := bs ++ List.replicate (60 - bs.length) 0

/-! ### Transmission (R324, R326) -/

def State.modMac (s : State) (m : Fin 2) (f : MacTx → MacTx) : State := s.modEth fun x => { x with mac := vmod x.mac m f }

/-- The transmitter can start a frame: none is in transmission, and no pause holds it off. -/
def State.macFree (s : State) (m : Fin 2) : Bool :=
  let x := s.eth.mac[m]
  x.air.isNone && decide (x.pause ≤ s.now) && s.macUp m

/-- The host's frame goes ahead of the next telemetry frame (R326). -/
def macStart (m : Fin 2) (s : State) : State :=
  match (s.eth.mac[m]).wait with
  | some f => if s.macFree m then s.modMac m fun x => { x with air := some (f, s.now, true), wait := none } else s
  | none => s

/-- GTB units that a frame of `n` bytes takes at 1,000 Mb/s, with preamble, FCS and the gap after it (PRESUMED from IEEE 802.3, log entry 29). -/
def frameTime (n : Nat) : Nat := 64 * (8 + max n 60 + 4 + 12)

/-- The frame in transmission has been on the line for its time. -/
def State.airDone (s : State) (m : Fin 2) : Bool :=
  match (s.eth.mac[m]).air with
  | some (f, t, _) => decide (t.toNat + frameTime f.length ≤ s.now.toNat)
  | none => false

/-- What the transmitters do at the beginning of a cycle: a telemetry frame has left, and the host's frame starts. -/
def macCycle (s : State) : State :=
  forAll 2 (fun m s =>
    let s := match (s.eth.mac[m]).air with
      | some (_, _, false) => if s.airDone m then s.modMac m fun x => { x with air := none } else s
      | _ => s
    macStart m s) s

/-- Bytes of the host transmit buffer. -/
def State.txBytes (s : State) (m : Fin 2) (n : Nat) : List Byte :=
  (List.range n).map fun k => BitVec.ofNat 8 ((s.rd (ETH_TXBUF m (k / 4))).toNat / 2 ^ (8 * (k % 4)))

/-- A write of ETH_TXCTL; with send = 1 it is FRAME_SEND. -/
def frameSend (m : Fin 2) (v : Word) (s : State) : State :=
  let busy := s.flag (ETH_TXCTL.busy m)
  let s := s.plainWrite (ETH_TXCTL m) v
  if fieldOf v (ETH_TXCTL.send m) = 0 then s
  else
    let l := s.get (ETH_TXCTL.len m)
    if busy || decide (l < 14) || decide (1518 < l) || !s.macUp m then s.raise (ETH_STAT.tx_err m)
    else macStart m ((s.raise (ETH_TXCTL.busy m)).modMac m fun x => { x with wait := some (s.txBytes m l) })
def execFrameSend (m : Fin 2) (v : Word) (s : State) : Result := .next (frameSend m v s)

/-- A write of a word of ETH_TXBUF, ignored while a frame is being sent. -/
def txBufWrite (m : Fin 2) (off : Nat) (v : Word) (s : State) : State :=
  if s.flag (ETH_TXCTL.busy m) then s else s.plainWrite off v

/-- TRANSMIT_DONE: the host's frame in transmission has left the MAC; a PTP event message gets a transmit timestamp, and a fifth is dropped
(R325). -/
def transmitDone (m : Fin 2) (sfd : Time) (s : State) : State :=
  match (s.eth.mac[m]).air with
  | some (f, _, true) =>
    let s := ((s.clear (ETH_TXCTL.busy m)).modMac m fun x => { x with air := none }).emit (.frame m (padFrame f))
    match ptpEvent f with
    | none => s
    | some q =>
      if s.eth.txts.length < 4 then
        s.modEth fun x => { x with txts := x.txts ++ [(sfd - BitVec.ofNat 64 (s.get ETH_PTP_LAT.tx), m, q)] }
      else s
  | _ => s
def execTransmitDone (m : Fin 2) (sfd : Time) (s : State) : Result := .next (transmitDone m sfd s)

/-- TXTS_POP (R325): a read of the ETH_PTP_TXTS low word. -/
def txtsRead (s : State) : Word × State :=
  match s.eth.txts with
  | [] => s.latchRead ETH_PTP_TXTS noTime
  | (t, m, q) :: r =>
    let s := s.modEth fun x => { x with txts := r }
    let s := (s.set ETH_PTP_TXID.mac m).set ETH_PTP_TXID.seq q.toNat
    s.latchRead ETH_PTP_TXTS t
def execTxtsPop (s : State) : Result :=
  let (v, s) := txtsRead s
  .next { s with read := [v] }

/-! ### Reception (R324, R327) -/

/-- The pause time of a pause frame, in units of 512 bit times: MAC control EtherType, opcode 1, to the reserved group or the MAC's own address
(PRESUMED from IEEE 802.3 Clause 31B, which R324 names; log entry 29). -/
def State.pauseTime (s : State) (m : Fin 2) (bs : List Byte) : Option Nat :=
  let dest := beValue (cut bs 0 6)
  if (dest = 0x0180C2000001 ∨ dest = (s.rd64 (ETH_ADDR m)).toNat % 2 ^ 48) ∧ beValue (cut bs 12 2) = 0x8808 ∧ beValue (cut bs 14 2) = 1 then
    some (beValue (cut bs 16 2))
  else none

/-- FRAME_RECEIVE: too long, a bad FCS or a full buffer drops the frame; a pause frame holds off the next transmission and is not kept, as
are other destinations. -/
def frameReceive (m : Fin 2) (bytes : List Byte) (sfd : Time) (good : Bool) (s : State) : State :=
  if s.macUp m = false then s
  else if good = false ∨ 1518 < bytes.length then s.incSat (ETH_STAT.rx_drops m)
  else
    let dest := beValue (cut bytes 0 6)
    match s.pauseTime m bytes with
    | some q => s.modMac m fun x => { x with pause := s.now + BitVec.ofNat 64 (4096 * q) }
    | none =>
    if dest ≠ (s.rd64 (ETH_ADDR m)).toNat % 2 ^ 48 ∧ knownGroups.contains dest = false then s
    else if 4 ≤ (s.eth.rx[m]).length then s.incSat (ETH_STAT.rx_drops m)
    else
      let ts := (ptpEvent bytes).map fun _ => sfd - BitVec.ofNat 64 (s.get ETH_PTP_LAT.rx)
      s.modEth fun x => { x with rx := vmod x.rx m (· ++ [⟨bytes, ts⟩]) }
def execFrameReceive (m : Fin 2) (bytes : List Byte) (sfd : Time) (good : Bool) (s : State) : Result :=
  .next (frameReceive m bytes sfd good s)

/-- RX_POP (R327). -/
def rxPop (m : Fin 2) (s : State) : State := s.modEth fun x => { x with rx := vmod x.rx m List.tail }
def execRxPop (m : Fin 2) (s : State) : Result := .next (rxPop m s)

/-- A write of ETH_RXCMD. -/
def rxCmdWrite (m : Fin 2) (v : Word) (s : State) : State := if fieldOf v (ETH_RXCMD.pop m) = 1 then rxPop m s else s

/-- A word of ETH_RXBUF. -/
def State.rxWord (s : State) (m : Fin 2) (k : Nat) : Word :=
  match s.eth.rx[m] with
  | [] => 0
  | f :: _ => BitVec.ofNat 32 (leValue (cut f.bytes (4 * k) 4))

/-- ETH_RXINFO as it reads. -/
def State.rxInfo (s : State) (m : Fin 2) : Word :=
  match s.eth.rx[m] with
  | [] => 0
  | f :: _ => BitVec.ofNat 32 (2 ^ 31 + f.ts.isSome.toNat * 2 ^ 12 + (frameTagged f.bytes).toNat * 2 ^ 11 + f.bytes.length)

/-- A read of the ETH_RXTS low word. -/
def rxtsRead (m : Fin 2) (s : State) : Word × State :=
  s.latchRead (ETH_RXTS m) (match s.eth.rx[m] with | [] => noTime | f :: _ => f.ts.getD noTime)

/-- ETH_STAT as it reads: the buffer's count beside the stored flags. -/
def State.ethStat (s : State) (m : Fin 2) : Word :=
  let n := (s.eth.rx[m]).length
  withField (withField (s.rd (ETH_STAT m)) (ETH_STAT.rx_count m) n) (ETH_STAT.rx_ready m) (decide (0 < n)).toNat

/-- ETH_PTP_TXID as it reads. -/
def State.txid (s : State) : Word := withField (s.rd ETH_PTP_TXID) ETH_PTP_TXID.ready (!s.eth.txts.isEmpty).toNat

/-- LINK_CHANGE (R324). -/
def linkChange (m : Fin 2) (up : Bool) (s : State) : State :=
  if s.flag (ETH_STAT.link_up m) = up ∨ (up = true ∧ s.macOn m = false) then s
  else (s.setBool (ETH_STAT.link_up m) up).raise (ETH_STAT.link_chg m)
def execLinkChange (m : Fin 2) (up : Bool) (s : State) : Result := .next (linkChange m up s)

/-! ### The PTP servo (R328) -/

/-- PTP_OFFSET_WRITE: acts when TB_CTRL.slew_src = 1. -/
def ptpOffset (v : Word) (s : State) : State :=
  if s.get TB_CTRL.slew_src ≠ 1 then s
  else
    let o := v.toInt
    let i : Dword := s.eth.integ + dwordOfInt (o * (s.get ETH_PTP_GAIN.ki : Int) / 256)
    slewWrite .ptp (-(o * (s.get ETH_PTP_GAIN.kp : Int) / 16 + i.toInt)) (s.modEth fun x => { x with integ := i })
def execPtpOffsetWrite (v : Word) (s : State) : Result := .next (ptpOffset v s)

/-! ### Telemetry (R329) -/

/-- Whether a record type of the stream is kept always (Tally and loss records), if selected, or never. -/
def tlmKeeps (types : Nat) (adc : Bool) (type : Nat) : Option Bool :=
  if type = recLoss ∨ type = recTally then some true
  else
    let bit := if adc then 3 else type - 1
    if (adc && type != 1) || types / 2 ^ bit % 2 == 0 then none else some false

/-- Bytes before record `k` of a block. -/
def Block.upTo (b : Block) (k : Nat) : Nat := ((b.recs.take k).map (·.2)).sum

/-- The bytes of a record in the stream's Daybook ring. -/
def State.ringRecord (s : State) (m : Fin 16) (pos len : Nat) : List Byte :=
  let size := s.ringBytes m
  (List.range len).map fun k => s.dbk.byte (65536 * s.get (DBK_RING.base m) + (if size = 0 then 0 else (pos + k) % size))

/-- The builder has been lapped: it moves to the oldest block and counts those it passes over. -/
def tlmLapped (t : Fin 8) (m : Fin 16) (s : State) : State :=
  let x := s.eth.tlm[t]
  let gone := (s.dbk.stream[m]).gone
  if x.blk < gone then
    let s := s.set (ETH_TLM_STAT.skipped t) (min 65535 (s.get (ETH_TLM_STAT.skipped t) + (gone - x.blk)))
    (s.raise (ETH_TLM_STAT.skip t)).modTlm t fun y => { y with blk := gone, skip := 0 }
  else s

/-- The builder takes records from the copied blocks until the packet is full or no record is left. `fuel` bounds the
records. -/
def tlmBuild (t : Fin 8) (m : Fin 16) : Nat → State → State
  | 0, s => s
  | fuel + 1, s =>
    let x := s.eth.tlm[t]
    if x.full then s
    else
      let st := s.dbk.stream[m]
      match st.ring[x.blk - st.gone]? with
      | none => s
      | some b =>
        match b.recs[x.skip]? with
        | none => tlmBuild t m fuel (s.modTlm t fun y => { y with blk := y.blk + 1, skip := 0 })
        | some (type, len) =>
          let next (drop : Nat) (s : State) : State := s.modTlm t fun y => { y with skip := y.skip + 1, drop := drop }
          let take (drop : Nat) : State :=
            if 1472 < 16 + x.payload.length + len then s.modTlm t fun y => { y with full := true }
            else
              let bs := s.ringRecord m (b.pos + b.upTo x.skip) len
              tlmBuild t m fuel ((next drop s).modTlm t fun y =>
                { y with payload := y.payload ++ bs, count := y.count + 1,
                         since := if y.count = 0 then s.now else y.since, tally := if y.count = 0 then b.tally else y.tally })
          match tlmKeeps (s.get (ETH_TLM_CFG.types t)) (s.flag (DBK_CFG.kind m)) type with
          | none => tlmBuild t m fuel (next x.drop s)
          | some true => take x.drop
          | some false => if x.drop = 0 then take (s.get (ETH_TLM_CFG.decim t)) else tlmBuild t m fuel (next (x.drop - 1) s)

/-- The builder of stream `t` works off what has been copied. -/
def tlmWork (t : Fin 8) (s : State) : State :=
  if s.flag (ETH_TLM_CFG.en t) then
    let m : Fin 16 := Fin.ofNat 16 (s.get (ETH_TLM_CFG.stream t))
    let s := tlmLapped t m s
    tlmBuild t m ((s.dbk.stream[m]).ring.map fun b => b.recs.length + 1).sum s
  else s

/-- A packet is full or has waited flush µs since its first record, and its MAC can take it, or is off. -/
def State.tlmDue (s : State) (t : Fin 8) : Bool :=
  let x := s.eth.tlm[t]
  let m : Fin 2 := Fin.ofNat 2 (s.get (ETH_TLM_CFG.mac t))
  s.flag (ETH_TLM_CFG.en t) && decide (0 < x.count) && (!s.macUp m || (s.macFree m && (s.eth.mac[m]).wait.isNone)) &&
    (x.full || decide (x.since.toNat + 8000 * s.get (ETH_TLM_STAT.flush t) ≤ s.now.toNat))

/-- One's-complement sum of 16-bit words in network order (IPv4 and UDP checksums). -/
def onesSum : List Byte → Nat
  | [] => 0
  | [a] => a.toNat * 256
  | a :: b :: r => let x := a.toNat * 256 + b.toNat + onesSum r; x % 65536 + x / 65536

/-- The frame of a telemetry packet: Ethernet II, IPv4 with DF, UDP. `id` is the IPv4 identification, which the spec leaves
open. -/
def tlmFrame (t : Fin 8) (payload : List Byte) (id : BitVec 16) (s : State) : List Byte :=
  let m : Fin 2 := Fin.ofNat 2 (s.get (ETH_TLM_CFG.mac t))
  let udpLen := 8 + payload.length
  let addrs := beBytes 4 (s.get (ETH_TLM_IP.src t)) ++ beBytes 4 (s.get (ETH_TLM_IP.dst t))
  let ip (sum : Nat) : List Byte :=
    [0x45, BitVec.ofNat 8 (4 * s.get (ETH_TLM_HDR.dscp t))] ++ beBytes 2 (20 + udpLen) ++ beBytes 2 id.toNat ++
      [0x40, 0, BitVec.ofNat 8 (s.get (ETH_TLM_HDR.ttl t)), 17] ++ beBytes 2 sum ++ addrs
  let ports := beBytes 2 (s.get (ETH_TLM_PORT.src t)) ++ beBytes 2 (s.get (ETH_TLM_PORT.dst t))
  let sum := 65535 - onesSum (addrs ++ [0, 17] ++ beBytes 2 udpLen ++ ports ++ beBytes 2 udpLen ++ [0, 0] ++ payload)
  let tag := if s.flag (ETH_TLM_CFG.tag_en t) then [0x81, 0x00] ++ beBytes 2 (s.get (ETH_TLM_HDR.tci t)) else []
  beBytes 6 ((s.rd64 (ETH_TLM_DMAC t)).toNat % 2 ^ 48) ++ beBytes 6 ((s.rd64 (ETH_ADDR m)).toNat % 2 ^ 48) ++ tag ++
    [0x08, 0x00] ++ ip (65535 - onesSum (ip 0)) ++ ports ++ beBytes 2 udpLen ++
    beBytes 2 (if sum = 0 then 65535 else sum) ++ payload

/-- TELEMETRY_PACKET: the packet in hand is sent when the transmitter is free (R326); with the MAC off or its link down it is lost. -/
def telemetryPacket (t : Fin 8) (s : State) : State :=
  let s := tlmWork t s
  if s.tlmDue t = false then s
  else
    let x := s.eth.tlm[t]
    let m : Fin 2 := Fin.ofNat 2 (s.get (ETH_TLM_CFG.mac t))
    let head := leBytes 4 x.seq.toNat ++ leBytes 1 (s.get (ETH_TLM_CFG.stream t)) ++ leBytes 1 t.val ++
      leBytes 2 x.count ++ leBytes 8 x.tally
    let (id, s) := s.fresh 16
    let f := tlmFrame t (head ++ x.payload) id s
    let s := if s.macUp m then (s.emit (.frame m (padFrame f))).modMac m fun y => { y with air := some (f, s.now, false) } else s
    s.modTlm t fun y => { y with payload := [], count := 0, full := false, seq := y.seq + 1 }
def execTelemetryPacket (t : Fin 8) (s : State) : Result := .next (telemetryPacket t s)

/-- A write of ETH_TLM_CFG: an enable starts at the next block to be copied. -/
def tlmCfgWrite (t : Fin 8) (v : Word) (s : State) : State :=
  let old := s.flag (ETH_TLM_CFG.en t)
  let s := s.plainWrite (ETH_TLM_CFG t) v
  if old = false ∧ s.flag (ETH_TLM_CFG.en t) = true then
    let st := s.dbk.stream[(Fin.ofNat 16 (s.get (ETH_TLM_CFG.stream t)) : Fin 16)]
    s.modTlm t fun _ => { Telemetry.reset with blk := st.gone + st.ring.length }
  else s

end Sys2Proof.Machine
end

