-- ==== Sys2Proof/Machine/Routes.lean ====
section
/-!
DEFINITION. What the root works out (spec/15, R359–R361): who gets which node ID, and every node's routing table.
-/
namespace Sys2Proof.Machine
open Sys2Proof

/-! ### Paths -/

/-- Hops and summed delay of a path. -/
abbrev PathCost := Nat × Nat

/-- Fewer hops, then the lower sum of link delays (R361). -/
def PathCost.less (a b : PathCost) : Bool := decide (a.1 < b.1) || (a.1 == b.1 && decide (a.2 < b.2))

/-- What is known of the paths to one destination: a cost for each node reached. -/
abbrev Costs := List (Dword × PathCost)

def Costs.of (x : Costs) (u : Dword) : Option PathCost := (x.find? fun y => y.1 == u).map (·.2)

/-- The links of a node that may be used: DEGRADED ones only when `weak` (R375). -/
def usableLink (weak : Bool) (n : NodeReport) (p : Fin 4) : Option (Dword × Nat) :=
  match n.links[p] with
  | some (u, d, deg) => if deg && !weak then none else some (u, d)
  | none => none

/-- Cost of the path from a node by one of its ports. -/
def viaPort (weak : Bool) (x : Costs) (n : NodeReport) (p : Fin 4) : Option PathCost :=
  match usableLink weak n p with
  | some (u, d) => (x.of u).map fun c => (c.1 + 1, c.2 + d)
  | none => none

/-- The lower of two costs, if there are any. -/
def lower (a b : Option PathCost) : Option PathCost :=
  match a, b with
  | some x, some y => some (if PathCost.less y x then y else x)
  | some x, none => some x
  | none, y => y

/-- One round: every node takes the best of its own cost and those by its ports. -/
def relax (weak : Bool) (nodes : List NodeReport) (x : Costs) : Costs :=
  nodes.filterMap fun n =>
    ((List.finRange 4).foldl (fun b p => lower b (viaPort weak x n p)) (x.of n.uid)).map fun c => (n.uid, c)

/-- Costs of the shortest paths to `dst` among `nodes`. -/
def costsTo (weak : Bool) (nodes : List NodeReport) (dst : Dword) : Costs :=
  nodes.foldl (fun x _ => relax weak nodes x) [(dst, (0, 0))]

/-! ### Node IDs (R359) -/

/-- The enabled SLO_IDMAP entries that count: bit 0 and entries naming the root are ignored, and of entries naming one UID the lowest
stands. -/
def idMap (s : State) (root : Dword) : List (Dword × Fin 64) :=
  (List.finRange 64).foldl (fun (m : List (Dword × Fin 64)) (i : Fin 64) =>
    let u := s.rd64 (SLO_IDMAP i)
    if i.val = 0 ∨ (s.rd64 SLO_IDMAP_EN).getLsbD i = false ∨ u = root ∨ (m.any fun y => y.1 == u) then m else m ++ [(u, i)]) []

/-- Insert a UID in ascending order. -/
def insertUid (u : Dword) : List Dword → List Dword
  | [] => [u]
  | v :: r => if u.toNat < v.toNat then u :: v :: r else v :: insertUid u r

/-- Give the lowest IDs that are neither taken nor kept, in ascending order of UID. -/
def giveIds (kept : List (Fin 64)) : List Dword → List (Dword × Fin 64) → List (Dword × Fin 64)
  | [], m => m
  | u :: r, m =>
    match (List.finRange 64).find? fun i => !(kept.contains i) && !(m.any fun y => y.2 == i) with
    | some i => giveIds kept r (m ++ [(u, i)])
    | none => giveIds kept r m

/-- Assignment of a full census (R359) or, with the IDs already held, of an incremental admission (R360): nodes within 8 hops of the
root. -/
def assignIds (s : State) (root : Dword) (rootId : Fin 64) (held : List (Dword × Fin 64)) (nodes : List NodeReport) : List (Dword × Fin 64) :=
  let near := costsTo true nodes root
  let inReach (u : Dword) : Bool := match near.of u with | some c => decide (c.1 ≤ 8) | none => false
  let us := (nodes.filter fun n => inReach n.uid && n.uid != root).map (·.uid)
  let map := idMap s root
  let keep := held.filter fun y => us.contains y.1 && y.2 != rootId
  let named := (map.filter fun y => us.contains y.1 && !(keep.any fun z => z.1 == y.1 || z.2 == y.2) && y.2 != rootId)
  let first := (root, rootId) :: keep ++ named
  let rest := us.filter fun u => !(first.any fun y => y.1 == u)
  giveIds (map.map (·.2)) (rest.foldl (fun l u => insertUid u l) []) first

/-! ### Tables (R361, R375) -/

/-- Routes of the node `n` to `dst`: the primary port with its hops, and the alternate. `costs` are those to the destination, `toSelf`
those to the node itself. -/
def routeOf (weak : Bool) (ids : List (Dword × Fin 64)) (n : NodeReport) (costs toSelf : Costs) : Option (Fin 4 × Nat × Option (Fin 4)) :=
  let idOf (u : Dword) : Nat := match ids.find? fun y => y.1 == u with | some y => y.2.val | none => 64
  let cand (p : Fin 4) : Option (PathCost × Nat × Fin 4) :=
    match usableLink weak n p, viaPort weak costs n p with
    | some (u, _), some c => some (c, idOf u, p)
    | _, _ => none
  let better (a b : PathCost × Nat × Fin 4) : Bool := PathCost.less b.1 a.1 || (b.1 == a.1 && decide (b.2.1 < a.2.1))
  let best (l : List (PathCost × Nat × Fin 4)) : Option (PathCost × Nat × Fin 4) :=
    l.foldl (fun x y => match x with | some z => some (if better z y then y else z) | none => some y) none
  let all := (List.finRange 4).filterMap cand
  match best all with
  | none => none
  | some (c, _, p) =>
    let alts := all.filter fun y =>
      y.2.2 != p &&
        (match usableLink weak n y.2.2 with
         | some (u, _) => (match toSelf.of u with | some back => decide (y.1.1 - 1 < back.1 + c.1) | none => false)
         | none => false)
    some (p, c.1, (best alts).map (·.2.2))

/-- The SLO_ROUTE word of a route. -/
def routeWord (tree : Bool) : Option (Fin 4 × Nat × Option (Fin 4)) → Word
  | none => 0
  | some (p, hops, alt) =>
    BitVec.ofNat 32 (2 ^ 31 + (min hops 15) * 2 ^ 16 + (match alt with | some a => a.val * 2 ^ 12 + 2 ^ 11 | none => 0) + p.val * 2 ^ 8 + tree.toNat)

/-- The primary port of `n` toward the root. -/
def treeUp (ids : List (Dword × Fin 64)) (nodes : List NodeReport) (root : Dword) (n : NodeReport) : Option (Fin 4) :=
  let go (weak : Bool) := routeOf weak ids n (costsTo weak nodes root) (costsTo weak nodes n.uid)
  if n.uid = root then none else ((go false) <|> (go true)).map (·.1)

/-- The tables of every node that has an ID, the root's first, then by depth (R359, R361). -/
def allTables (ids : List (Dword × Fin 64)) (nodes : List NodeReport) (root : Dword) (rootId : Fin 64) (census : Bool) : List RouteTable :=
  let mine := nodes.filter fun n => ids.any fun y => y.1 == n.uid
  let up : List (Dword × Option (Fin 4)) := mine.map fun n => (n.uid, treeUp ids mine root n)
  let upOf (u : Dword) : Option (Fin 4) := match up.find? fun y => y.1 == u with | some y => y.2 | none => none
  let near := costsTo true mine root
  let tables := mine.map fun n =>
    let toSelf (weak : Bool) := costsTo weak mine n.uid
    let treePort (p : Fin 4) : Bool :=
      match n.links[p] with
      | some (u, _, _) =>
        upOf n.uid == some p ||
          (match mine.find? fun m => m.uid == u with
           | some m => (match upOf u with
             | some q => (match m.links[q] with | some (v, _, _) => v == n.uid | none => false)
             | none => false)
           | none => false)
      | none => false
    let entry (i : Fin 64) : Word :=
      match ids.find? fun y => y.2 == i with
      | some (u, _) =>
        if u = n.uid then 0
        else
          let go (weak : Bool) := routeOf weak ids n (costsTo weak mine u) (toSelf weak)
          let r := (go false) <|> (go true)
          routeWord (match r with | some (p, _) => treePort p | none => false) r
      | none => 0
    let idOf (u : Dword) : Option (Fin 64) := (ids.find? fun y => y.1 == u).map (·.2)
    { uid := n.uid, id := (idOf n.uid).getD 0, entries := (List.finRange 64).map entry,
      depth := match near.of n.uid with | some c => c.1 | none => 0,
      far := Vector.ofFn fun p => match n.links[p] with | some (u, _, _) => idOf u | none => none,
      tree := Vector.ofFn treePort, root := rootId, census := census : RouteTable }
  (List.range 65).flatMap fun d => tables.filter fun t => t.depth == d

end Sys2Proof.Machine
end

