-- ==== Sys2Proof/Machine/Sloulo.lean ====
section
/-!
DEFINITION. The Sloulo fabric (spec/15): links with retry and credits, link states, census and admission, alignment, subscriptions and the
bulk mailbox.
-/
namespace Sys2Proof.Machine
open Sys2Proof

/-! ### This node -/

/-- What this node reports of itself (R359, R374). -/
def State.ownReport (s : State) : NodeReport :=
  { uid := Config.deviceUid, id := if s.sloAdmitted then some s.nodeId else none,
    links := Vector.ofFn fun p =>
      if s.portOpen p then ((s.slo.port)[p]).far.map fun u => (u, (s.rd (SLO_PORT_DELAY p)).toNat, s.portState p == portDegradedSt) else none }

/-- SLO_STAT as read: align is REF on the root and FREE while this node does not steer (R364). -/
def sloStatRead (s : State) : Word :=
  let a := if s.flag SLO_STAT.root then 5 else if s.sloAdmitted = false ∨ s.get TB_CTRL.slew_src ≠ 2 then 0 else s.get SLO_STAT.align
  withField (s.rd SLO_STAT) SLO_STAT.align a

/-! ### Subscriptions (R366) -/

/-- The subscribers of a local domain change: SLO_PUBs and SLO_PUB_MASKs. -/
def putSubs (k : Fin 4) (l : List (Fin 64 × BitVec 6)) (s : State) : State :=
  let s := s.modSlo fun x => { x with subs := x.subs.set k l }
  (s.set (SLO_PUB.subs k) l.length).wr64 (SLO_PUB_MASK k) (l.foldl (fun m y => m ||| BitVec.twoPow 64 y.1) 0)

/-- A mirror's subscription stands: its next cell is the first (R368). -/
def mirrorBegins (k : Fin 4) (s : State) : State :=
  ((s.raise (SLO_MIR_STAT.subscribed k)).clear (SLO_MIR_STAT.refused k)).modDom (Fin.ofNat 8 (k.val + 4)) fun x =>
    { x with fresh := true, mirSeq := none }

def State.mirSource (s : State) (k : Fin 4) : Fin 64 × Fin 4 :=
  (Fin.ofNat 64 (s.get (SLO_MIR.src_node k)), Fin.ofNat 4 (s.get (SLO_MIR.src_dom k)))

/-- Another enabled mirror among `p` shares the source (R366). -/
def State.shared (s : State) (k : Fin 4) (p : Fin 4 → Bool) : Option (Fin 4) :=
  (List.finRange 4).find? fun j => j != k && p j && s.mirrorOf (s.mirSource k).1 (s.mirSource k).2 j

/-- Subscribe mirror `k`, unless another shares the subscription. -/
def subscribe (p : Fin 4 → Bool) (k : Fin 4) (s : State) : State :=
  let s := s.clear (SLO_MIR_STAT.subscribed k)
  match s.shared k p with
  | some j => if s.flag (SLO_MIR_STAT.subscribed j) then mirrorBegins k s else s
  | none => sendCell (s.mirSource k).1 (.sub .subscribe (s.mirSource k).2 k) s

/-- Unsubscribe mirror `k`, unless another still shares the subscription. -/
def unsubscribe (k : Fin 4) (s : State) : State :=
  let s := s.clear (SLO_MIR_STAT.subscribed k)
  match s.shared k (fun _ => true) with
  | some _ => s
  | none => sendCell (s.mirSource k).1 (.sub .unsubscribe (s.mirSource k).2 k) s

/-- MIRROR_SUBSCRIBE: what SLO_MIRd.en says. -/
def mirrorSubscribe (k : Fin 4) (s : State) : State :=
  if s.flag (SLO_MIR.en k) then subscribe (fun _ => true) k s else unsubscribe k s
def execMirrorSubscribe (k : Fin 4) (s : State) : Result := .next (mirrorSubscribe k s)

/-- A write of SLO_MIRd: a change of source leaves the old one first. -/
def mirWrite (k : Fin 4) (v : Word) (s : State) : State :=
  let old := s.rd (SLO_MIR k)
  let new := (s.plainWrite (SLO_MIR k) v).rd (SLO_MIR k)
  if new = old then s
  else
    let s := if s.flag (SLO_MIR.en k) then unsubscribe k s else s
    let s := s.wr (SLO_MIR k) new
    if s.flag (SLO_MIR.en k) then mirrorSubscribe k s else s

/-- Every enabled mirror subscribes (R366). -/
def subscribeAll (s : State) : State :=
  forAll 4 (fun k s => if s.flag (SLO_MIR.en k) then subscribe (fun j => decide (j < k)) k s else s) s

/-- SUB_RECEIVE (R366): the source accepts or refuses; its answer updates the mirrors that name it. -/
def subReceive (node : Fin 64) (op : SubOp) (source mirror : Fin 4) (s : State) : State :=
  let l := ((s.slo.subs)[source]).filter fun y => y.1 != node
  match op with
  | .subscribe =>
    if s.flag (SLO_PUB_ALLOW.allow source) && decide (l.length < 16) then
      sendCell node (.sub .accept source mirror) (putSubs source (l ++ [(node, 0)]) s)
    else sendCell node (.sub .refuse source mirror) s
  | .unsubscribe => putSubs source l s
  | .accept => forAll 4 (fun k s => if s.mirrorOf node source k then mirrorBegins k s else s) s
  | .refuse =>
    forAll 4 (fun k s =>
      if s.mirrorOf node source k then (s.clear (SLO_MIR_STAT.subscribed k)).raise (SLO_MIR_STAT.refused k) else s) s
def execSubReceive (node : Fin 64) (op : SubOp) (source mirror : Fin 4) (s : State) : Result :=
  .next (subReceive node op source mirror s)

/-- A full census removes every subscription (R366). -/
def clearSubs (s : State) : State :=
  forAll 4 (fun k s => s.clear (SLO_MIR_STAT.subscribed k)) (forAll 4 (fun k s => putSubs k [] s) s)

/-! ### Admission and alignment (R363–R365) -/

/-- The node withdraws its admission (R359). -/
def withdrawNode (s : State) : State :=
  clearSubs ((((s.clear SLO_STAT.admitted).clear SLO_STAT.node_id).clear SLO_STAT.depth).clear SLO_STAT.align)

/-- Limit of |o|, in 1/16 units, beyond which the node reads LOST. -/
def State.lostLimit (s : State) : Nat := 16 * s.get SLO_ALIGN.lost_lim

/-- The alignment that an offset gives (R365). A node that a relock has stepped is not ALIGNED before a readmit or a census (R41); it reads
ACQUIRE (DEDUCED, log entry 43). -/
def alignOf (s : State) (o : Int) : Nat :=
  if o.natAbs ≤ 128 then (if s.slo.stepped then 1 else 2) else if s.lostLimit < o.natAbs then 4 else 1

/-- Set SLO_STAT.align; entering LOST sets align_lost and the fault summary (R365, R419). -/
def setAlign (a : Nat) (s : State) : State :=
  let was := s.get SLO_STAT.align
  let s := s.set SLO_STAT.align a
  if a = 4 ∧ was ≠ 4 then (s.raise SLO_STAT.align_lost).fault .sloTime else s

/-- The admission step (R359, R364): a node behind its timing parent steps GTB forward; it takes its ID. -/
def admitNode (id : Fin 64) (depth : Nat) (s : State) : State :=
  let o := s.slo.ofs
  let step : Int := if o < 0 then (-o + 8).fdiv 16 else 0
  let s := if 0 < step then stepGtb (s.nextNow + BitVec.ofInt 64 step) 1 s else s
  let s := s.modSlo fun x => { x with joining := none, ofs := o + 16 * step, measTally := s.tally, helloTally := s.tally, stepped := false }
  let s := ((s.set SLO_STAT.node_id id).set SLO_STAT.depth depth).raise SLO_STAT.admitted
  if s.get TB_CTRL.slew_src = 2 then setAlign (if 0 ≤ o ∧ (s.lostLimit : Int) < o then 4 else 1) s else s

/-- An admission (R359, R360, R366): the step, and every mirror subscribes. -/
def admission (id : Fin 64) (depth : Nat) (s : State) : State :=
  ((subscribeAll (admitNode id depth s)).raise SLO_STAT.census_chg).clear SLO_STAT.census_busy

/-- READMIT (R364): the admission step again. -/
def readmit (s : State) : State :=
  if s.sloAdmitted && !s.flag SLO_STAT.root then admitNode s.nodeId (s.get SLO_STAT.depth) s else s
def execReadmit (s : State) : Result := .next (readmit s)

/-- The steering law of R364. -/
def steer (o : Int) (s : State) : State :=
  if s.get TB_CTRL.slew_src ≠ 2 then s
  else
    let i := s.slo.integ + dwordOfInt ((o * (s.get SLO_ALIGN.ki : Int)).fdiv 256)
    slewWrite .sloulo (-((o * (s.get SLO_ALIGN.kp : Int)).fdiv 16 + i.toInt)) (s.modSlo fun x => { x with integ := i })

/-- The node's own offset from its timing parent's port (R363). -/
def ownOffset (o : Int) (s : State) : State :=
  let s := s.wr SLO_OFS (wordOfInt (max (-(2 ^ 31)) (min (2 ^ 31 - 1) o)))
  let s := s.modSlo fun x => { x with ofs := o, measTally := s.tally }
  match s.slo.joining with
  | some (id, depth) => admission id depth s
  | none =>
    if s.sloAdmitted = false then s
    else
      let s := steer o s
      if s.get TB_CTRL.slew_src = 2 then setAlign (alignOf s o) s else s

/-- LINK_MEASUREMENT (R363): delay and offset of one exchange. -/
def linkMeasurement (p : Fin 4) (t1 t2 t3 t4 : Time) (s : State) : State :=
  if s.portOpen p = false then s
  else
    let asym := signExt 16 (s.get (SLO_PORT_CTRL.asym p))
    let out := (t2 - t1).toInt
    let back := (t4 - t3).toInt
    let delay := (16 * ((t4 - t1).toInt - (t3 - t2).toInt)) / 2 - asym
    let ofs := (16 * (out - back)) / 2 + asym
    let s := s.modPort p fun x => { x with delays := (delay :: x.delays).take 16 }
    let l := ((s.slo.port)[p]).delays
    let s := s.wr (SLO_PORT_DELAY p) (wordOfInt (l.sum.fdiv l.length))
    if s.parentPort = some p then ownOffset (-ofs) s else s
def execLinkMeasurement (p : Fin 4) (t1 t2 t3 t4 : Time) (s : State) : Result := .next (linkMeasurement p t1 t2 t3 t4 s)

/-- ALIGN_HOLD is due (R365). -/
def State.holdDue (s : State) : Bool :=
  s.sloAdmitted && !s.flag SLO_STAT.root && s.get TB_CTRL.slew_src == 2 && decide (s.slo.measTally + 64 ≤ s.tally) && s.get SLO_STAT.align != 3
/-- ALIGN_HOLD (R365). -/
def execAlignHold (s : State) : Result := .next (if s.holdDue then s.set SLO_STAT.align 3 else s)

/-! ### Routes, census (R358–R362, R374) -/

/-- A routing table is loaded in one cycle, which clears alt_active (R374). -/
def loadTable (t : RouteTable) (s : State) : State :=
  let s := forAll 64 (fun n s => s.wr (SLO_ROUTE n) (t.entries.getD n 0)) s
  let s := forAll 4 (fun p s => s.set (SLO_PORT_STAT.far_node p) (match t.far[p] with | some n => n.val | none => 0)) s
  s.modSlo fun x => { x with tree := t.tree, rootId := t.root }

/-- The root's own table is loaded and every other node's goes out in order of depth. -/
def distribute (tables : List RouteTable) (s : State) : State :=
  let s := (tables.filter fun t => t.uid == Config.deviceUid).foldl (fun s t => loadTable t s) s
  (tables.filter fun t => t.uid != Config.deviceUid).foldl (fun s t => routeCell ⟨false, t.id, s.nodeId, .route t⟩ s) s

/-- Remember the ID each UID last held (R360). -/
def rememberIds (ids : List (Dword × Fin 64)) (s : State) : State :=
  s.modSlo fun x => { x with ids := ids ++ x.ids.filter fun y => !(ids.any fun z => z.1 == y.1) }

/-- The nodes the root knows, with its own report as it stands. -/
def State.knownNodes (s : State) : List NodeReport := s.ownReport :: s.slo.nodes.filter fun n => n.uid != Config.deviceUid

/-- The root recomputes and distributes routes among the nodes it knows (R374). -/
def redistribute (s : State) : State :=
  let nodes := s.knownNodes
  let ids := nodes.filterMap fun n => n.id.map fun i => (n.uid, i)
  (distribute (allTables ids nodes Config.deviceUid s.nodeId false) (s.modSlo fun x => { x with nodes := nodes })).raise SLO_STAT.route_chg

/-- DISCOVER floods from the root, which in a full census withdraws its admission as every node does (R359). -/
def beginDiscovery (full : Bool) (s : State) : State :=
  let s := ((if full then withdrawNode s else s).raise SLO_STAT.census_busy).modSlo fun x => { x with flood := some none }
  forAll 4 (fun p s => if s.portOpen p then queueCell p ⟨true, 0, 0, .discover Config.deviceUid full⟩ s else s) s

/-- A full census as the root runs it, once the reports are in (R359). -/
def rootCensus (reports : List NodeReport) (s : State) : State :=
  let u := Config.deviceUid
  let all := s.ownReport :: reports.filter fun n => n.uid != u
  let ids := assignIds s u 0 [] all
  let s := clearSubs s
  let s := (((s.clear SLO_STAT.node_id).clear SLO_STAT.depth).raise SLO_STAT.admitted).set SLO_STAT.excluded (all.length - ids.length)
  let named := all.map fun n => { n with id := (ids.find? fun y => y.1 == n.uid).map (·.2) }
  let s := rememberIds ids (s.modSlo fun x => { x with nodes := named, rootId := 0, flood := none, helloTally := s.tally })
  subscribeAll (((distribute (allTables ids all u 0 true) s).raise SLO_STAT.census_chg).clear SLO_STAT.census_busy)

/-- An incremental admission as the root runs it (R360): nodes that hold an ID keep it, a new one takes the ID its UID last held or a free
one. -/
def rootAdmission (reports : List NodeReport) (s : State) : State :=
  let u := Config.deviceUid
  let all := s.ownReport :: reports.filter fun n => n.uid != u
  let now := all.filterMap fun n => n.id.map fun i => (n.uid, i)
  let past := s.slo.ids.filter fun y => !(now.any fun z => z.1 == y.1 || z.2 == y.2)
  let ids := assignIds s u s.nodeId (now ++ past) all
  let named := all.map fun n => { n with id := (ids.find? fun y => y.1 == n.uid).map (·.2) }
  let tables := (allTables ids all u s.nodeId false).map fun t => { t with census := !(now.any fun y => y.1 == t.uid) }
  let s := rememberIds ids (s.modSlo fun x => { x with nodes := named, flood := none })
  (((distribute tables s).raise SLO_STAT.route_chg).raise SLO_STAT.census_chg).clear SLO_STAT.census_busy

/-- A node takes the ROUTE of its admission. -/
def joinFabric (t : RouteTable) (s : State) : State :=
  admission t.id t.depth ((loadTable t s).modSlo fun x => { x with flood := none })

/-- CENSUS (R359): on the root, or as an ordinary node meets it. -/
def census (x : Admission) (s : State) : State :=
  if s.flag SLO_CTRL.en = false then s
  else
    match x with
    | .root reports => if s.flag SLO_STAT.root then rootCensus reports s else s
    | .node t => if s.flag SLO_STAT.root then s else joinFabric t (withdrawNode s)
def execCensus (x : Admission) (s : State) : Result := .next (census x s)

/-- INCREMENTAL_ADMISSION (R360). -/
def incrementalAdmission (x : Admission) (s : State) : State :=
  if s.flag SLO_CTRL.en = false then s
  else
    match x with
    | .root reports => if s.flag SLO_STAT.root && s.sloAdmitted then rootAdmission reports s else s
    | .node t => if s.flag SLO_STAT.root || s.sloAdmitted then s else joinFabric t s
def execIncrementalAdmission (x : Admission) (s : State) : Result := .next (incrementalAdmission x s)

/-- ROUTE_RECEIVE (R374): the new table; a node not yet admitted is admitted at its next measurement (R359, R364). -/
def routeReceive (t : RouteTable) (s : State) : State :=
  let s := (loadTable t s).modSlo fun x => { x with flood := none }
  if s.sloAdmitted then ((s.raise SLO_STAT.route_chg).set SLO_STAT.depth t.depth).clear SLO_STAT.census_busy
  else s.modSlo fun x => { x with joining := some (t.id, t.depth) }
def execRouteReceive (t : RouteTable) (s : State) : Result := .next (routeReceive t s)

/-- HELLO_SEND (R362). -/
def helloSend (s : State) : State := if s.flag SLO_STAT.root && s.sloAdmitted then sendAll false (.hello Config.deviceUid) s else s
def execHelloSend (s : State) : Result := .next (helloSend s)

/-- 1,000 Tallies without HELLO (R362). -/
def State.rootLostDue (s : State) : Bool :=
  s.sloAdmitted && !s.flag SLO_STAT.root && decide (s.slo.helloTally + 1000 ≤ s.tally)

/-- ROOT_LOST (R362): a backup root acts if no other that it reaches has a lower UID. -/
def rootLost (acts : Bool) (s : State) : State :=
  if s.rootLostDue = false then s
  else
    let s := ((s.raise SLO_STAT.root_lost).fault .sloTime).modSlo fun x => { x with helloTally := s.tally }
    if acts && s.flag SLO_CTRL.backup_root then
      let s := ((s.raise SLO_STAT.root).clear SLO_STAT.depth).modSlo fun x => { x with acting := true, rootId := s.nodeId }
      redistribute s
    else s
def execRootLost (acts : Bool) (s : State) : Result := .next (rootLost acts s)

/-- The node's links have changed: the root distributes new routes, any other node reports to it (R374). -/
def reportChange (s : State) : State :=
  if s.flag SLO_STAT.root then (if s.sloAdmitted then redistribute s else s)
  else if s.sloAdmitted then routeCell ⟨false, s.slo.rootId, s.nodeId, .report s.ownReport⟩ s
  else s

/-- Another root is met (R358). -/
def meetRoot (u : Dword) (s : State) : State :=
  if s.flag SLO_STAT.root && u != Config.deviceUid && decide (u.toNat < Config.deviceUid.toNat) then
    (((s.clear SLO_STAT.root).raise SLO_STAT.root_conflict).clear SLO_STAT.census_busy).modSlo fun x => { x with acting := false }
  else s

/-- DISCOVER (R359): flooded once, answered with a REPORT by the port it came by. -/
def onDiscover (p : Fin 4) (u : Dword) (full : Bool) (s : State) : State :=
  let s := meetRoot u s
  if s.flag SLO_STAT.root ∨ s.slo.flood.isSome then s
  else
    let s := if full then withdrawNode s else s
    let s := (s.raise SLO_STAT.census_busy).modSlo fun x => { x with flood := some (some p) }
    let s := forAll 4 (fun q s => if q ≠ p ∧ s.portOpen q then queueCell q ⟨true, 0, 0, .discover u full⟩ s else s) s
    queueCell p ⟨false, 0, 0, .report s.ownReport⟩ s

/-- A neighbour the root does not know. -/
def State.unknownLink (s : State) (x : NodeReport) : Bool :=
  (List.finRange 4).any fun p => match x.links[p] with | some (u, _, _) => !(s.knownNodes.any fun n => n.uid == u) | none => false

/-- A link that the old report had, not DEGRADED, and the new one has not. -/
def lostLink (old new : NodeReport) : Bool :=
  (List.finRange 4).any fun p =>
    match old.links[p] with
    | some (u, _, false) => (match new.links[p] with | some (v, _, false) => u != v | _ => true)
    | _ => false

/-- REPORT: the root notes it; a lost link brings new routes, an unknown neighbour an admission (R360, R374). Any other node passes it
on. -/
def onReport (c : Cell) (x : NodeReport) (s : State) : State :=
  if s.flag SLO_STAT.root then
    let old := s.slo.nodes.find? fun n => n.uid == x.uid
    let s := s.modSlo fun y => { y with nodes := x :: y.nodes.filter fun n => n.uid != x.uid }
    if s.flag SLO_STAT.census_busy then s
    else if s.unknownLink x then beginDiscovery false s
    else match old with
      | some o => if lostLink o x then redistribute s else s
      | none => s
  else
    match s.slo.flood with
    | some (some q) => if s.portOpen q then queueCell q c s else s
    | _ => match s.routePort s.slo.rootId with
      | some q => if s.portOpen q then queueCell q c s else discardCell SLO_DISC.unreach s
      | none => discardCell SLO_DISC.unreach s

/-! ### Ports (R349–R357) -/

/-- Every unacknowledged cell is to be sent again (R352). -/
def startResend (p : Fin 4) (s : State) : State :=
  let x := (s.slo.port)[p]
  if x.window.isEmpty then s
  else (s.incSat (SLO_PORT_CNT.resends p)).modPort p fun x => { x with resend := x.window, tries := x.tries + 1, progress := s.tb.cyc }

/-- RESEND_TIMEOUT is due: 2 µs without ack progress (R352). -/
def State.resendDue (s : State) (p : Fin 4) : Bool :=
  let x := (s.slo.port)[p]
  s.portOpen p && !x.window.isEmpty && x.resend.isEmpty && decide (x.progress + 2000 ≤ s.tb.cyc)
/-- RESEND_TIMEOUT (R352). -/
def resendTimeout (p : Fin 4) (s : State) : State := if s.resendDue p then startResend p s else s
def execResendTimeout (p : Fin 4) (s : State) : Result := .next (resendTimeout p s)

/-- An ack releases the cells before it (R352). -/
def takeAck (p : Fin 4) (ack : BitVec 7) (s : State) : State :=
  let x := (s.slo.port)[p]
  match x.window with
  | [] => s
  | (q, _) :: _ =>
    let n := (ack - q).toNat
    if n = 0 ∨ x.window.length < n then s
    else s.modPort p fun x =>
      let w := x.window.drop n
      { x with window := w, resend := x.resend.filter fun y => w.any fun z => z.1 == y.1, progress := s.tb.cyc, tries := 0 }

/-- A cell is discarded for its CRC or its sequence number; the first after an accepted one asks for a resend (R352). -/
def badCell (p : Fin 4) (s : State) : State :=
  (s.incSat (SLO_PORT_CNT.bad p)).modPort p fun x => { x with bad := x.bad + 1, nak := x.nak || !x.asked, asked := true }

/-- The cell may leave: fewer than 32 of its VC outstanding against the far end's credits, and room in the window (R352, R353). -/
def SloPort.mayLeave (x : SloPort) (v : Fin 4) : Bool :=
  !(x.queue[v]).isEmpty && decide ((x.sent[v] - x.freed[v]).toNat < 32) && decide (x.window.length < 64)

/-- What a port sends in a cell time (R354). -/
inductive Choice where
  | resend
  | cell (v : Fin 4)
  | link
  deriving DecidableEq, Repr

def SloPort.choose (x : SloPort) (up : Bool) : Choice :=
  if up = false then .link
  else if x.resend.isEmpty = false then .resend
  else if x.nak || x.ask.isSome || (x.owe && decide (31 ≤ x.quiet)) then .link
  else if x.slot % 32 == 0 && x.mayLeave 3 then .cell 3
  else match (List.finRange 4).find? x.mayLeave with
    | some v => .cell v
    | none => .link

/-- The LINK cell a port sends. -/
def SloPort.linkCell (x : SloPort) (down : Bool) (now : Time) : LinkCell :=
  { ack := x.expect, credits := x.credit, nak := x.nak, degraded := x.declared, down := down, uid := some Config.deviceUid,
    time := match x.ask with | none => .none | some none => .request | some (some t2) => .reply t2 now }

/-- CELL_TRANSMIT (R354): one cell time of a port. -/
def cellTransmit (p : Fin 4) (s : State) : State :=
  if s.portState p = portDownSt then s
  else
    let x := (s.slo.port)[p]
    let tick (y : SloPort) : SloPort := { y with slot := y.slot + 1, quiet := y.quiet + 1 }
    match x.choose (s.portOpen p) with
    | .resend =>
      match x.resend with
      | (q, c) :: r => (s.modPort p fun y => { tick y with resend := r }).emit (.cell p q x.expect c)
      | [] => s
    | .cell v =>
      match x.queue[v] with
      | c :: r =>
        let n := s.tb.cyc
        (s.modPort p fun y =>
          { tick y with queue := y.queue.set v r, sent := vmod y.sent v (· + 1), window := y.window ++ [(y.seq, c)], seq := y.seq + 1,
                        progress := if y.window.isEmpty then n else y.progress }).emit (.cell p x.seq x.expect c)
      | [] => s
    | .link =>
      let now := s.now
      (s.modPort p fun y =>
        { tick y with nak := false, owe := false, quiet := 0, ask := none, t1 := if y.ask = some none then some now else y.t1 }).emit
        (.link p (x.linkCell false now))
def execCellTransmit (p : Fin 4) (s : State) : Result := .next (cellTransmit p s)

/-- LINK_CELL_RECEIVE (R352, R353, R356, R363): credits, ack, nak, the far end's word, identity and delay stamps. -/
def linkCellReceive (p : Fin 4) (good : Bool) (l : LinkCell) (sof : Time) (s : State) : State :=
  if s.portState p = portDownSt then s
  else if good = false then badCell p s
  else
    let t1 := ((s.slo.port)[p]).t1
    let n := s.tb.cyc
    let s := s.modPort p fun x =>
      { x with good := x.good + 1, heard := n, freed := l.credits, far := l.uid <|> x.far, farDown := l.down, farDegraded := l.degraded }
    let s := takeAck p l.ack s
    let s := if l.nak then startResend p s else s
    match l.time with
    | .none => s
    | .request => s.modPort p fun x => { x with ask := some (some sof) }
    | .reply t2 t3 =>
      match t1 with
      | some t1 => (s.modPort p fun x => { x with t1 := none }).post (n + 1) (.linkMeasurement p t1 t2 t3 sof)
      | none => s
def execLinkCellReceive (p : Fin 4) (good : Bool) (l : LinkCell) (sof : Time) (s : State) : Result :=
  .next (linkCellReceive p good l sof s)

/-- An accepted cell is forwarded, delivered or discarded (R355, R359, R370, R371). -/
def handleCell (p : Fin 4) (c : Cell) (s : State) : State :=
  if s.sloAdmitted = false ∧ cellVc c.body ≠ 3 then discardCell SLO_DISC.unadmitted s
  else
    match c.body with
    | .discover u full => onDiscover p u full s
    | .report x => onReport c x s
    | .route t => if t.uid = Config.deviceUid then s.post (s.tb.cyc + 1) (.routeReceive t) else routeCell c s
    | .hello u => floodTree (some p) c (deliverCell c (meetRoot u s))
    | _ =>
      if c.bcast then floodTree (some p) c (deliverCell c s)
      else if s.sloAdmitted ∧ c.dst = s.nodeId then deliverCell c s
      else routeCell c s

/-- CELL_RECEIVE (R351–R355): accepted with a good CRC and the expected sequence number; a reserved type is counted and is not
sequenced. -/
def cellReceive (p : Fin 4) (good : Bool) (seq ack : BitVec 7) (c : Cell) (s : State) : State :=
  if s.portOpen p = false then s
  else if good = false then badCell p s
  else
    let n := s.tb.cyc
    let s := takeAck p ack (s.modPort p fun x => { x with heard := n })
    match c.body with
    | .reserved _ => discardCell SLO_DISC.other s
    | _ =>
      if seq ≠ ((s.slo.port)[p]).expect then badCell p s
      else
        handleCell p c (s.modPort p fun x =>
          { x with expect := x.expect + 1, asked := false, good := x.good + 1, credit := vmod x.credit (cellVc c.body) (· + 1), owe := true })
def execCellReceive (p : Fin 4) (good : Bool) (seq ack : BitVec 7) (c : Cell) (s : State) : Result := .next (cellReceive p good seq ack c s)

/-- Destinations whose primary port has failed go to their alternate, if that port is UP (R374). -/
def switchRoutes (p : Fin 4) (s : State) : State :=
  forAll 64 (fun n s =>
    if s.flag (SLO_ROUTE.valid n) && s.get (SLO_ROUTE.pri_port n) == p.val && s.flag (SLO_ROUTE.alt_valid n) &&
        s.portState (Fin.ofNat 4 (s.get (SLO_ROUTE.alt_port n))) == portUpSt then s.raise (SLO_ROUTE.alt_active n) else s) s

/-- PORT_DOWN (R356, R357, R374). -/
def portDown (p : Fin 4) (s : State) : State :=
  if s.portState p = portDownSt then s
  else
    let x := (s.slo.port)[p]
    let lost := x.window.length + (List.finRange 4).foldl (fun n v => n + (x.queue[v]).length) 0
    let s := s.set (SLO_PORT_LOST.cells p) (min (2 ^ 32 - 1) (s.get (SLO_PORT_LOST.cells p) + lost))
    let s := ((s.emit (.link p (x.linkCell true s.now))).modPort p fun _ => SloPort.reset)
    let s := (((s.set (SLO_PORT_STAT.state p) portDownSt).clear (SLO_PORT_STAT.far_node p)).raise (SLO_PORT_STAT.down p)).fault .sloLink
    reportChange (switchRoutes p s)
def execPortDown (p : Fin 4) (s : State) : Result := .next (portDown p s)

/-- The block's own grounds for PORT_DOWN (R356): en = 0, 2 µs without a good cell, four resends without progress, the far end. -/
def State.portDownDue (s : State) (p : Fin 4) : Bool :=
  let x := (s.slo.port)[p]
  s.portState p != portDownSt &&
    (!s.flag (SLO_PORT_CTRL.en p) || decide (x.heard + 2000 ≤ s.tb.cyc) || (decide (4 ≤ x.tries) && x.resend.isEmpty &&
      decide (x.progress + 2000 ≤ s.tb.cyc)) || x.farDown)

/-- BLOCK_LOCK_GAINED (R356): training begins. -/
def blockLockGained (p : Fin 4) (s : State) : State :=
  if s.flag SLO_CTRL.en && s.flag (SLO_PORT_CTRL.en p) && s.portState p == portDownSt then
    (s.set (SLO_PORT_STAT.state p) portTrainSt).modPort p fun _ => { SloPort.reset with heard := s.tb.cyc }
  else s
def execBlockLockGained (p : Fin 4) (s : State) : Result := .next (blockLockGained p s)

/-- PORT_UP is due: identity exchanged, or 10,000 Tallies of high efficiency (R356). -/
def State.portUpDue (s : State) (p : Fin 4) : Bool :=
  let x := (s.slo.port)[p]
  (s.portState p == portTrainSt && x.far.isSome) || (s.portState p == portDegradedSt && decide (10000 ≤ x.high) && !x.farDegraded)

/-- PORT_UP (R356, R360): toward a node the root does not know, an admission begins. -/
def portUp (p : Fin 4) (s : State) : State :=
  if s.portUpDue p = false then s
  else
    let n := s.tb.cyc
    let s := (s.set (SLO_PORT_STAT.state p) portUpSt).modPort p fun x => { x with declared := false, low := 0, high := 0, good := 0, bad := 0, heard := n }
    if s.flag SLO_STAT.root then
      if s.flag SLO_STAT.census_busy then queueCell p ⟨true, 0, 0, .discover Config.deviceUid (!s.sloAdmitted)⟩ s
      else if s.unknownLink s.ownReport then beginDiscovery false s else s
    else reportChange s
def execPortUp (p : Fin 4) (s : State) : Result := .next (portUp p s)

/-- PORT_DEGRADED is due (R356). -/
def State.portDegradedDue (s : State) (p : Fin 4) : Bool :=
  let x := (s.slo.port)[p]
  s.portState p == portUpSt && (decide (1000 ≤ x.low) || x.farDegraded)
/-- PORT_DEGRADED (R356, R375). -/
def portDegraded (p : Fin 4) (s : State) : State :=
  if s.portDegradedDue p = false then s
  else
    let s := (s.set (SLO_PORT_STAT.state p) portDegradedSt).modPort p fun x => { x with declared := decide (1000 ≤ x.low), low := 0, high := 0 }
    reportChange (switchRoutes p ((s.raise (SLO_PORT_STAT.degraded p)).fault .sloLink))
def execPortDegraded (p : Fin 4) (s : State) : Result := .next (portDegraded p s)

/-- Efficiency of the ending Tally (R356). -/
def SloPort.judge (x : SloPort) : SloPort :=
  { x with low := if 2 * x.good < x.good + x.bad then x.low + 1 else 0,
           high := if 9 * (x.good + x.bad) ≤ 10 * x.good then x.high + 1 else 0, good := 0, bad := 0 }

/-- What a Tally boundary does in the fabric: efficiency, and every 16 Tallies a measurement of each open port (R356, R363). -/
def sloTally (s : State) : State :=
  forAll 4 (fun p s =>
    if s.portOpen p then
      let ask := s.tally % 16 == 0
      s.modPort p fun x => let y := x.judge; { y with ask := if ask && y.ask.isNone then some none else y.ask }
    else s) s

/-! ### Delivery (R370) -/

/-- RPOST_DELIVERY (R333, R370). -/
def execRpostDelivery (ch : Fin 512) (s : State) : Result := .next (s.postTo ch .rpost)
/-- REVT_DELIVERY (R370). -/
def execRevtDelivery (m : BitVec 5) (s : State) : Result := .next (pulse (160 + m.toNat) s)

/-! ### The bulk mailbox (R372, R373) -/

/-- BULK_TX_READ is due: in every slot while entries are found, otherwise once per Tally. -/
def State.bulkDue (s : State) : Bool :=
  s.flag SLO_BTX_CTRL.en && s.get SLO_BTX_SIZE.entries != 0 && (s.slo.found || s.slo.readTally != s.tally)

/-- BULK_TX_READ (R372): the head entry is sent when its lap bit is the expected one. -/
def bulkTxRead (e : LineEcc) (s : State) : State :=
  if (s.flag SLO_BTX_CTRL.en && s.get SLO_BTX_SIZE.entries != 0) = false then s
  else
    let size := s.get SLO_BTX_SIZE.entries
    let a := (32 * s.get SLO_BTX_BASE.line + 32 * s.slo.btxPos) % vaultSize
    let (bs, bad, s) := bankRead 6 a 32 e s
    let bs := if bad then (List.range 32).map fun k => if s.vlt.poisoned ((a + k) / 8) then 0xFF else bs.getD k 0 else bs
    let valid := (bs.getD 31 0).getLsbD 7 == s.slo.btxLap
    let s := s.modSlo fun x => { x with found := valid, readTally := s.tally }
    if valid = false then s
    else
      let goes := leValue ((bs.drop 24).take 2)
      let post := if (bs.getD 26 0).getLsbD 0 then some (chanOf (goes % 512)) else none
      let s := s.modSlo fun x =>
        { x with btxPos := if x.btxPos + 1 < size then x.btxPos + 1 else 0,
                 btxLap := if x.btxPos + 1 < size then x.btxLap else !x.btxLap, consumed := x.consumed + 1 }
      sendCell (Fin.ofNat 64 (goes / 512)) (.bulk (bs.take 22) post) s

/-- CONSUMER_COUNT_WRITE is due: once per Tally, when the count has changed. -/
def State.consumerDue (s : State) : Bool := s.slo.written != s.slo.consumed && s.slo.writeTally != s.tally
/-- CONSUMER_COUNT_WRITE (R372). -/
def consumerCountWrite (e : LineEcc) (s : State) : State :=
  if s.consumerDue = false then s
  else
    let s := bankWrite 6 (8 * s.get SLO_BTX_CONS.addr) ((leBytes 8 s.slo.consumed.toNat).map some) e (countSlot 6 s)
    s.modSlo fun x => { x with written := x.consumed, writeTally := s.tally }

/-- BULK_RECEIVE (R373): an entry for the receive ring waits for a slot of Sloulo. -/
def bulkReceive (node : Fin 64) (data : List Byte) (post : Option (Fin 512)) (time : Time) (s : State) : State :=
  if s.flag SLO_BRX_CTRL.en = false ∨ s.get SLO_BRX_SIZE.entries = 0 then discardCell SLO_DISC.bulk s
  else sloPush (.entry ((List.range 22).map (fun k => data.getD k 0) ++ [0, 0] ++ leBytes 6 time.toNat ++ [BitVec.ofNat 8 node]) post) s

/-- The entry is written at the receive position; then RPOST is raised (R373). -/
def putEntry (bytes : List Byte) (post : Option (Fin 512)) (e : LineEcc) (s : State) : State :=
  let size := s.get SLO_BRX_SIZE.entries
  let a := (32 * s.get SLO_BRX_BASE.line + 32 * s.slo.brxPos) % vaultSize
  let s := bankWrite 6 a ((bytes ++ [if s.slo.brxLap then 0x80 else 0]).map some) e (countSlot 6 s)
  let s := s.modSlo fun x =>
    { x with brxPos := if x.brxPos + 1 < size then x.brxPos + 1 else 0, brxLap := if x.brxPos + 1 < size then x.brxLap else !x.brxLap }
  let s := s.wr SLO_BRX_WR (s.rd SLO_BRX_WR + 1)
  match post with
  | some ch => s.postTo ch .rpost
  | none => s

def execBulkReceive (node : Fin 64) (data : List Byte) (post : Option (Fin 512)) (time : Time) (s : State) : Result :=
  .next (bulkReceive node data post time s)

/-! ### Register writes -/

/-- The node leaves the fabric. -/
def leaveFabric (s : State) : State :=
  let s := forAll 4 (fun p s => if s.portState p = portDownSt then s else portDown p s) (s.clear SLO_STAT.root)
  let s := forAll 64 (fun n s => s.wr (SLO_ROUTE n) 0) (withdrawNode s)
  (s.clear SLO_STAT.census_busy).modSlo fun x => { x with joining := none, flood := none, acting := false, tree := Vector.replicate 4 false }

/-- A write of SLO_CTRL (R358, R359, R364). -/
def sloCtrlWrite (v : Word) (s : State) : State :=
  let was := s.flag SLO_CTRL.en
  let s := s.plainWrite SLO_CTRL v
  let is := s.flag SLO_CTRL.en
  let s := if was && !is then leaveFabric s else s
  let s := if !was && is && s.flag GBL_STRAP.node_root then beginDiscovery true (s.raise SLO_STAT.root) else s
  let s := if fieldOf v SLO_CTRL.census = 1 ∧ was = true ∧ s.flag SLO_STAT.root = true then beginDiscovery true s else s
  if fieldOf v SLO_CTRL.readmit = 1 then readmit s else s

/-- A write of SLO_PORTp_CTRL: en = 0 takes the port DOWN (R356). -/
def portCtrlWrite (p : Fin 4) (v : Word) (s : State) : State :=
  let s := s.plainWrite (SLO_PORT_CTRL p) v
  if s.flag (SLO_PORT_CTRL.en p) then s else portDown p s

/-- A write of SLO_BTX_CTRL or SLO_BRX_CTRL: writing 1 starts at position 0 with lap 1. -/
def btxCtrlWrite (v : Word) (s : State) : State :=
  let s := s.plainWrite SLO_BTX_CTRL v
  if fieldOf v SLO_BTX_CTRL.en = 1 then s.modSlo fun x => { x with btxPos := 0, btxLap := true, found := true } else s
def brxCtrlWrite (v : Word) (s : State) : State :=
  let s := s.plainWrite SLO_BRX_CTRL v
  if fieldOf v SLO_BRX_CTRL.en = 1 then (s.modSlo fun x => { x with brxPos := 0, brxLap := true }).wr SLO_BRX_WR 0 else s
/-- SLO_BTX_BASE and SLO_BRX_BASE are writable only while their mailbox is off. -/
def bulkBaseWrite (off : Nat) (en : Fld) (v : Word) (s : State) : State := if s.flag en then s else s.plainWrite off v

end Sys2Proof.Machine
end

