-- ==== Sys2Proof/Machine/Irq.lean ====
section
/-!
DEFINITION. The interrupt controller (spec/14, R332–R340).
-/
namespace Sys2Proof.Machine
open Sys2Proof

def State.modIc (s : State) (f : Ic → Ic) : State := { s with ic := f s.ic }
def State.modPcie (s : State) (f : Pcie → Pcie) : State := { s with host := { s.host with pcie := f s.host.pcie } }

/-! ### Sources (R332) -/

/-- Sources that are not reserved. -/
def srcExists (n : Nat) : Bool :=
  decide (n < 512) || (decide (n < 544) && n % 4 != 3) || n == 544 || n == 545 || (decide (576 ≤ n) && decide (n ≤ 587)) ||
    (decide (608 ≤ n) && decide (n ≤ 615)) || (decide (640 ≤ n) && decide (n ≤ 643)) || (decide (672 ≤ n) && decide (n ≤ 678)) ||
    (decide (704 ≤ n) && decide (n ≤ 728))

/-- An edge source. -/
def srcEdge (n : Nat) : Bool := decide (n < 512)

/-- A word has one of the bits of a mask. -/
def State.anyOf (s : State) (off : Nat) (m : Word) : Bool := s.rd off &&& m != 0

/-- The input of a level source: R117 (Bezel), R309 (DMA), R286 (ADC), R377 (Sloulo), R330 (Ethernet), R418 (Assayer), R420 (fault
summary). -/
def State.levelInput (s : State) (n : Nat) : Bool :=
  if n < 544 then
    let f := BZL_FLAGS ((n - 512) / 4)
    if n % 4 = 0 then s.anyOf f 0x1 else if n % 4 = 1 then s.anyOf f 0xFE else if n % 4 = 2 then s.anyOf f 0x300 else false
  else if n = 544 then s.flag DMA_GSTAT.bus_err
  else if n = 545 then s.dmaChFlag
  else if n < 576 then false
  else if n < 584 then
    let g := n - 576
    s.flag (ADC_GSTAT.overrun g) || s.flag (ADC_GSTAT.missed g) || s.flag (ADC_GSTAT.late g) || s.flag (ADC_GSTAT.chan_drop g)
  else if n = 584 then s.flag ADC_STAT.ring_ovf || s.flag ADC_STAT.wr_slow
  else if n = 585 then s.flag ADC_STAT.urg_ovf
  else if n = 586 then s.flag ADC_STAT.cal_done || s.flag ADC_STAT.cal_err
  else if n = 587 then s.flag ADC_STAT.sat
  else if n < 608 then false
  else if n < 612 then s.flag (SLO_PORT_STAT.down (n - 608)) || s.flag (SLO_PORT_STAT.degraded (n - 608))
  else if n = 612 then
    s.flag SLO_STAT.census_chg || s.flag SLO_STAT.route_chg || s.flag SLO_STAT.root_conflict || s.flag SLO_STAT.root_lost
  else if n = 613 then s.flag SLO_STAT.align_lost
  else if n = 614 then (List.range 4).any fun k => s.flag (SLO_MIR_STAT.refused k)
  else if n = 615 then s.flag SLO_STAT.discard
  else if n < 640 then false
  else if n < 642 then
    let m : Fin 2 := Fin.ofNat 2 (n - 640)
    s.flag (ETH_STAT.link_chg m) || !((s.eth.rx)[m]).isEmpty
  else if n = 642 then !s.eth.txts.isEmpty
  else if n = 643 then (List.range 8).any fun t => s.flag (ETH_TLM_STAT.skip t)
  else if n = 672 then s.flag ASY_MBOX_RSP.done'
  else if n = 673 then s.flag ASY_STAT.temp_warn || s.flag ASY_STAT.temp_crit
  else if n = 674 then s.flag ASY_STAT.sup_out
  else if n = 675 then s.flag ASY_STAT.ref_out
  else if n = 676 then s.flag ASY_STAT.ledger_lost || s.flag ASY_STAT.nor_err
  else if n = 677 then s.flag ASY_STAT.fw_fault
  else if n = 678 then s.flag ASY_STAT.sec_event || s.flag ASY_STAT.mbox_rej
  else if 704 ≤ n ∧ n ≤ 728 then s.flag (bitFld FLT_STAT (n - 704))
  else false

/-- The edge latch of an edge source, the input of a level source (IC_SRCn.input). -/
def State.srcInput (s : State) (n : Nat) : Bool := if srcEdge n then s.flag (IC_SRC.input n) else s.levelInput n

/-- IC_SRCn.state. -/
def srcIdle : Nat := 0
def srcPend : Nat := 1
def srcDelivered : Nat := 2
def State.srcState (s : State) (n : Nat) : Nat := s.get (IC_SRC.state n)

/-! ### Targets (R335, R340) -/

/-- A target cannot take a delivery (R340). -/
def State.targetHeld (s : State) (t : Nat) : Bool :=
  let p := s.host.pcie
  if t < 32 then
    s.get GBL_STRAP.hostsel != 0 || !(p.msixEn || p.msiEn) || !p.master || p.d3 ||
      (p.msixEn && (p.maskAll || ((p.table)[(Fin.ofNat 32 t)]).ctrl.getLsbD 0))
  else if t = 34 then !s.flag ASY_STAT.ready || s.asy.stopped
  else false

/-- The PENDING sources of a target, in order (R335, R339). -/
def State.targetQueue (s : State) (t : Nat) : List (Fin 1024) := s.ic.queue.filter fun (n : Fin 1024) => s.get (IC_SRC.target n) == t

/-- IC_STAT.held: some target holds sources (R340). -/
def State.icHeld (s : State) : Bool := s.ic.queue.any fun (n : Fin 1024) => s.targetHeld (s.get (IC_SRC.target n))

/-- The first source held in D3hot sends a PME (R340). -/
def pmeCheck (s : State) : State :=
  let p := s.host.pcie
  if p.d3 && p.pmeEn && !p.pmeStatus && s.get GBL_STRAP.hostsel == 0 && s.ic.queue.any (fun (n : Fin 1024) => decide (s.get (IC_SRC.target n) < 32)) then
    (s.modPcie fun x => { x with pmeStatus := true }).emit .pme
  else s

/-- Bit t of the PBA: vector t is masked with a source PENDING (R340). -/
def State.pbaBit (s : State) (t : Nat) : Bool :=
  let p := s.host.pcie
  p.msixEn && (p.maskAll || ((p.table)[(Fin.ofNat 32 t)]).ctrl.getLsbD 0) && !(s.targetQueue t).isEmpty

/-! ### Rows -/

/-- Once Deep Park has taken the controller's state, nothing is recorded (R345). -/
def State.icFrozen (s : State) : Bool := s.get PWR_STAT.state == 5 && decide (2 ≤ s.get PWR_STAT.dp_step)

/-- An enabled IDLE source with its latch set or its input asserted (R334). -/
def State.pendDue (s : State) (n : Fin 1024) : Bool :=
  srcExists n && s.flag (IC_SRC.en n) && s.srcState n == srcIdle && s.srcInput n && !s.icFrozen

/-- A source joins the order of PENDING sources: behind those of earlier cycles, by number among those of its own (R335). -/
def Ic.join (x : Ic) (n : Fin 1024) : Ic :=
  let behind (k : Fin 1024) : Bool := x.fresh.contains k && decide (n < k)
  { x with queue := x.queue.filter (fun k => !behind k) ++ n :: x.queue.filter behind, fresh := n :: x.fresh }

/-- SOURCE_PENDING (R334, R347). -/
def sourcePending (n : Fin 1024) (s : State) : State :=
  if s.pendDue n = false then s
  else
    let wakes := s.flag (IC_SRC.wake n)
    let s := (s.set (IC_SRC.state n) srcPend).modIc fun x => { x.join n with woke := x.woke || wakes }
    pmeCheck (if srcEdge n then s.clear (IC_SRC.input n) else s)
def execSourcePending (n : Fin 1024) (s : State) : Result := .next (sourcePending n s)

/-- DELIVERY is due: the target's oldest source can be delivered, and none has been in this cycle (R335). -/
def State.deliveryDue (s : State) (t : Fin 35) : Bool :=
  s.flag IC_CTRL.en && !s.targetHeld t && !(s.targetQueue t).isEmpty && (s.ic.last)[t] != s.tb.cyc + 1 && !s.icFrozen

/-- The message of a target: its MSI-X vector, or the one MSI message (R335); pins and the Assayer take none. -/
def deliverTo (t : Fin 35) (s : State) : State :=
  let p := s.host.pcie
  if 32 ≤ t.val then s
  else if p.msixEn then
    let e := (p.table)[(Fin.ofNat 32 t.val)]
    s.emit (.hostWrite e.addr.toNat ((leBytes 4 e.data.toNat).map some))
  else s.emit (.hostWrite p.msiAddr.toNat ((leBytes 4 p.msiData.toNat).map some))

/-- DELIVERY (R335): the oldest PENDING source of the target becomes DELIVERED. -/
def delivery (t : Fin 35) (s : State) : State :=
  if s.deliveryDue t = false then s
  else
    match s.targetQueue t with
    | [] => s
    | n :: _ =>
      let s := (s.set (IC_SRC.state n) srcDelivered).set (IC_SRC.dtarget n) t
      let c := s.tb.cyc
      deliverTo t (s.modIc fun x => { x with queue := x.queue.filter (· != n), done := x.done ++ [n], last := x.last.set t (c + 1) })
def execDelivery (t : Fin 35) (s : State) : Result := .next (delivery t s)

def noStorm (_ : Nat) : Nat := 0

/-- The storm detector at a completion of a level source (R338). -/
def stormCount (n : Fin 1024) (s : State) : State :=
  if srcEdge n then s
  else if s.srcInput n && s.flag (IC_SRC.en n) then
    let k := Sparse.get noStorm s.ic.storm n + 1
    let lim := s.get IC_CTRL.storm_lim
    let s := s.modIc fun x => { x with storm := Sparse.put noStorm x.storm n k }
    if lim ≠ 0 ∧ lim ≤ k then
      let s := s.raise IC_STAT.storm
      if s.flag IC_STORM.valid then s else (s.raise IC_STORM.valid).set IC_STORM.source n
    else s
  else s.modIc fun x => { x with storm := Sparse.put noStorm x.storm n 0 }

/-- EOI (R336): a DELIVERED source becomes IDLE; the rules of R334 apply from the next cycle. -/
def eoi (n : Fin 1024) (s : State) : State :=
  if s.srcState n ≠ srcDelivered then s.raise IC_STAT.eoi_bad
  else stormCount n ((s.set (IC_SRC.state n) srcIdle).modIc fun x => { x with done := x.done.filter (· != n) })
def execEoi (n : Fin 1024) (s : State) : Result := .next (eoi n s)

/-- A PENDING source returns to IDLE, and its latch clears (R334). -/
def unpend (n : Fin 1024) (s : State) : State :=
  if s.srcState n = srcPend then
    let s := (s.set (IC_SRC.state n) srcIdle).modIc fun x => { x with queue := x.queue.filter (· != n) }
    if srcEdge n then s.clear (IC_SRC.input n) else s
  else s

/-- PEND_WITHDRAW (R334): ignored for a level source. -/
def pendWithdraw (n : Fin 1024) (s : State) : State := if srcEdge n then unpend n s else s
def execPendWithdraw (n : Fin 1024) (s : State) : Result := .next (pendWithdraw n s)

/-- A write of IC_PENDw. -/
def icPendWrite (w : Nat) (v : Word) (s : State) : State :=
  forAll 32 (fun i s => if v.getLsbD i then pendWithdraw (Fin.ofNat 1024 (32 * w + i.val)) s else s) s

/-- SOURCE_CONFIG_WRITE (R334, R339): en and wake at once, a new target in the next cycle; of two targets written in one cycle the last stands. -/
def sourceConfigWrite (n : Fin 1024) (v : Word) (s : State) : State :=
  if srcExists n = false then s
  else
    let old := s.get (IC_SRC.target n)
    let s := s.plainWrite (IC_SRC n) v
    let new := s.get (IC_SRC.target n)
    let s := s.set (IC_SRC.target n) old
    let mine (c : Nat × Instr) : Bool := match c.2 with | .retarget k _ => k == n | _ => false
    let moving := s.inflight.any mine
    let s := { s with inflight := s.inflight.filter fun c => !(mine c && decide (s.tb.cyc < c.1)) }
    let s := if new = old ∧ moving = false then s else s.post (s.tb.cyc + 1) (.retarget n (BitVec.ofNat 6 new))
    if s.flag (IC_SRC.en n) then s else unpend n s
def execSourceConfigWrite (n : Fin 1024) (v : Word) (s : State) : Result := .next (sourceConfigWrite n v s)

/-- RETARGET (R339): the place in the new target's order is the cycle in which the source first entered PENDING. -/
def retarget (n : Fin 1024) (t : BitVec 6) (s : State) : State :=
  if srcExists n && decide (t.toNat < 35) then pmeCheck (s.set (IC_SRC.target n) t.toNat) else s
def execRetarget (n : Fin 1024) (t : BitVec 6) (s : State) : Result := .next (retarget n t s)

/-- At the first boundary after a wake from Deep Park, level sources whose inputs are deasserted return to IDLE (R346). -/
def icResample (s : State) : State :=
  if s.ic.resample = false then s
  else
    let gone := (s.ic.queue ++ s.ic.done).filter fun (n : Fin 1024) => !srcEdge n && !s.levelInput n
    let s := gone.foldl (fun s n => s.set (IC_SRC.state n) srcIdle) s
    s.modIc fun x => { x with resample := false, queue := x.queue.filter fun n => !(gone.contains n), done := x.done.filter fun n => !(gone.contains n) }

/-! ### Reads (R337) -/

/-- The source longest DELIVERED to a target that `p` accepts, or none = 1. -/
def icTop (p : Nat → Bool) (s : State) : Word :=
  match s.ic.done.find? fun (n : Fin 1024) => p (s.get (IC_SRC.dtarget n)) with
  | some n => BitVec.ofNat 32 n
  | none => 0x80000000

/-- IC_SRCn as read; a reserved source reads 0 (R332). -/
def icSrcRead (n : Nat) (s : State) : Word :=
  if srcExists n then withField (s.rd (IC_SRC n)) (IC_SRC.input n) (s.srcInput n).toNat else 0

/-- 32 sources in a given state as a word (IC_PENDw, IC_DELIVw). -/
def icStateWord (st w : Nat) (s : State) : Word :=
  BitVec.ofNat 32 ((List.range 32).foldl (fun a i => if s.srcState (32 * w + i) = st then a + 2 ^ i else a) 0)

/-- IRQ_N0 and IRQ_N1 are driven low, and the Assayer's interrupt input is asserted (R335): target 32 + k holds a DELIVERED source. -/
def State.irqPin (s : State) (k : Fin 3) : Bool := s.ic.done.any fun (n : Fin 1024) => s.get (IC_SRC.dtarget n) == 32 + k.val

end Sys2Proof.Machine
end

