-- ==== Sys2Proof/Machine/Teller.lean ====
section
/-!
DEFINITION. Channels, the Teller, engines and the commit unit (spec/06): contexts, dispatch, preemption, aborts, fences and
replay, the program store, and the three steps of a commit. The instructions that run on an engine are in the Isa files.
-/
namespace Sys2Proof.Machine
open Sys2Proof

/-! ### Routines on an engine -/

/-- The routine that runs on an engine: at level 1 if there is one, else at level 0 (R156). -/
def Engine.top (x : Engine) : Option Routine := match x.l1 with | some r => some r | none => x.l0

def State.routine (s : State) (e : Fin 17) : Option Routine := (s.tlr.eng[e]).top

/-- Replace the running routine of an engine. -/
def State.putTop (s : State) (e : Fin 17) (r : Routine) : State :=
  s.modEng e fun x => match x.l1 with | some _ => { x with l1 := some r } | none => { x with l0 := some r }

/-- An engine's role: 0 active, 1 reserve, 2 fenced (ENG_STAT). -/
def State.engRole (s : State) (e : Fin 17) : Nat := s.get (ENG_STAT.role e)
def State.engQuad (s : State) (e : Fin 17) : Fin 4 := Fin.ofNat 4 (s.get (ENG_STAT.quad e))
def State.engActive (s : State) (e : Fin 17) : Bool := s.engRole e == 0
def State.engIdle (s : State) (e : Fin 17) : Bool := (s.tlr.eng[e]).l0.isNone && (s.tlr.eng[e]).l1.isNone

/-- Number of active engines (TLR_STAT.engines). -/
def State.engines (s : State) : Nat := ((List.finRange 17).filter s.engActive).length
/-- The reserve engine is available (TLR_STAT.reserve_free). -/
def State.reserve (s : State) : Option (Fin 17) := (List.finRange 17).find? fun e => s.engRole e == 1

/-- TLR_STAT as it reads. -/
def State.tlrStat (s : State) : Word :=
  withField (withField (s.rd TLR_STAT) TLR_STAT.engines s.engines) TLR_STAT.reserve_free s.reserve.isSome.toNat

/-- The trap level of an engine is in use: a level-1 routine, or a store-error trap or a restore that still runs (R157). -/
def State.trapBusy (s : State) (e : Fin 17) : Bool := (s.tlr.eng[e]).l1.isSome || decide (s.engCycle < (s.tlr.eng[e]).busyTo)

/-- ENG_STAT as it reads. -/
def State.engStat (s : State) (e : Fin 17) : Word :=
  let x := s.tlr.eng[e]
  let w := withField (withField (s.rd (ENG_STAT e)) (ENG_STAT.level e) x.l1.isSome.toNat) (ENG_STAT.trap e) (s.trapBusy e).toNat
  match x.l0, x.l1 with
  | some r, _ => withField (withField w (ENG_STAT.busy e) 1) (ENG_STAT.channel e) r.ch
  | none, some _ => withField w (ENG_STAT.busy e) 1
  | none, none => w

/-! ### Micro-state and the trap save area (R242, R243) -/

/-- Bits hi to lo of a number. -/
def natBits (x hi lo : Nat) : Nat := x / 2 ^ lo % 2 ^ (hi - lo + 1)

/-- The rows of a micro-trap (R242) as doublewords, the low half of a row first: micro-state `m` before the trap with the given cause, the
budget count, the entries in S0, whether an access was abandoned, and the pc. Entry 0 of the stack is the one pushed first (log entry 57). -/
def packRows (m : Micro) (pc : BitVec 16) (cause count staged : Nat) (abandoned : Bool) : Vector Dword 16 :=
  let st := m.stack.reverse
  let entry (k : Nat) : Nat := (st.getD k 0).toNat * 2 ^ (99 - 13 * k)
  let row4 := m.vd.toNat * 2 ^ 64 + m.w.toNat * 2 ^ 32 + pc.toNat * 2 ^ 16 + (m.pend.getD 0).toNat
  let row5 := m.u.toNat * 2 ^ 115 + m.stack.length * 2 ^ 112 + (entry 0 + entry 1 + entry 2 + entry 3) + m.lc.toNat * 2 ^ 52 +
    m.pend.isSome.toNat * 2 ^ 51 + cause * 2 ^ 49 + abandoned.toNat * 2 ^ 48 + count % 2048 * 2 ^ 37
  let row6 := staged * 2 ^ 122 + 2 ^ 121
  Vector.ofFn fun k : Fin 16 =>
    if h : k.val < 8 then m.t[k.val]
    else BitVec.ofNat 64 (match k.val with
      | 8 => row4
      | 9 => row4 / 2 ^ 64
      | 10 => row5
      | 11 => row5 / 2 ^ 64
      | 12 => row6
      | 13 => row6 / 2 ^ 64
      | _ => 0)

/-- Row r of a save area. -/
def rowOf (x : Vector Dword 16) (r : Fin 8) : Nat := x[2 * r.val].toNat + x[2 * r.val + 1].toNat * 2 ^ 64

/-- The micro-state that the rows give back (R243): VD was saved valid. -/
def unpackRows (x : Vector Dword 16) : Micro :=
  let row4 := rowOf x 4
  let row5 := rowOf x 5
  { w := BitVec.ofNat 32 (natBits row4 63 32), u := BitVec.ofNat 13 (natBits row5 127 115), t := Vector.ofFn fun k : Fin 8 => x[k.val],
    lc := BitVec.ofNat 8 (natBits row5 59 52), vd := BitVec.ofNat 64 (natBits row4 127 64), vdAt := 0,
    stack := ((List.range (natBits row5 114 112)).map fun k => BitVec.ofNat 13 (row5 / 2 ^ (99 - 13 * k))).reverse,
    pend := if natBits row5 51 51 = 1 then some (BitVec.ofNat 16 (natBits row4 15 0)) else none }

/-- The budget count in the rows. -/
def rowsCount (x : Vector Dword 16) : Nat := natBits (rowOf x 5) 47 37

/-- The running routine leaves its engine. A victim under it resumes after the 8 cycles of the restore (R156, R243), with the micro-state and
the count that the rows give back, after the cycles its instruction still needed when the trap was taken (log entry 18). -/
def State.dropTop (s : State) (e : Fin 17) : State :=
  let rows := s.mnt.tsave[e]
  match (s.tlr.eng[e]).l1, (s.tlr.eng[e]).l0 with
  | some _, some r =>
    s.modEng e fun x =>
      { x with l1 := none, busyTo := s.engCycle + 9,
               l0 := some { r with issueAt := s.engCycle + 9 + r.issueAt, count := rowsCount rows + r.issueAt,
                                   micro := r.micro.map fun _ => unpackRows rows } }
  | some _, none => s.modEng e fun x => { x with l1 := none }
  | none, _ => s.modEng e fun x => { x with l0 := none, busyTo := 0, sel := none }

/-- The victims whose restore is over run again (R156). -/
def State.resume (s : State) (e : Fin 17) : State :=
  match (s.tlr.eng[e]).l0 with
  | some r => if s.trapBusy e = false ∧ s.get (TLR_CH_STAT.state r.ch) = chPreempted then s.set (TLR_CH_STAT.state r.ch) chRunning else s
  | none => s

/-! ### Contexts (R142, R143) -/

/-- Word `k` of a context (byte offset 4 × k). -/
def Context.word (x : Context) (k : Nat) : Word :=
  if k < 32 then (if k % 2 = 0 then loWord (x.v[k / 2]!) else hiWord (x.v[k / 2]!))
  else match k with
    | 32 => x.pc.setWidth 32
    | 33 => x.flags.setWidth 32
    | 34 => BitVec.ofNat 32 (x.adom.toNat * 256 + x.persona.toNat * 16 + x.cls.toNat)
    | 35 => x.budget.setWidth 32
    | 36 => x.bind.setWidth 32
    | 38 => loWord x.wake
    | 39 => hiWord x.wake
    | _ => 0

/-- The context with word `k` replaced. -/
def Context.put (x : Context) (k : Nat) (w : Word) : Context :=
  let half (old : Dword) : Dword := if k % 2 = 0 then joinWords (hiWord old) w else joinWords w (loWord old)
  if h : k < 32 then { x with v := vmod x.v ⟨k / 2, by omega⟩ half }
  else match k with
    | 32 => { x with pc := w.setWidth 16 }
    | 33 => { x with flags := w.setWidth 6 }
    | 34 => { x with adom := (w >>> 8).setWidth 3, persona := w.getLsbD 4, cls := w.setWidth 2 }
    | 35 => { x with budget := w.setWidth 11 }
    | 36 => { x with bind := w.setWidth 9 }
    | 38 | 39 => { x with wake := half x.wake }
    | _ => x

/-- CONTEXT_WRITE (R143): applied only while the channel is DISABLED. `off` is the byte offset in the context. -/
def contextWrite (ch : Fin 512) (off : Nat) (v : Word) (s : State) : State :=
  if s.flag (TLR_CH_CTL.en ch) ∨ s.get (TLR_CH_STAT.state ch) ≠ chDisabled then s.raise TLR_STAT.ctx_wr_ignored
  else s.modCtx ch fun x => x.put (off / 4) v
def execContextWrite (ch : Fin 512) (off : Nat) (v : Word) (s : State) : Result := .next (contextWrite ch off v s)

/-- A read of a context word: committed values; the low word of a 64-bit field latches its high word (R143). A high word
that no read has latched shows the committed word (DESIGN CHOICE, log entry 18). -/
def contextRead (ch : Fin 512) (off : Nat) (s : State) : Word × State :=
  let k := off / 4
  let x := s.tlr.ctx[ch]
  let at' := 0xA0000 + 0xA0 * ch.val + 4 * k
  if k < 32 ∨ k = 38 ∨ k = 39 then
    if k % 2 = 0 then s.latchRead at' (joinWords (x.word (k + 1)) (x.word k))
    else ((Sparse.get noLatch s.latch at').getD (x.word k), s)
  else (x.word k, s)

/-- Engine cycles a routine may take (R143, R424). -/
def Context.cycles (x : Context) (replay : Bool) : Nat :=
  let b := x.budget.toNat
  let b := if b = 0 ∨ 1600 < b then 800 else b
  if x.cls = 3 ∧ replay = false then min b 400 else b

/-! ### Causes and channel control (R144–R148) -/

/-- CAUSE_SET (R144). -/
def execCauseSet (ch : Fin 512) (c : Cause) (s : State) : Result := .next (s.cause ch c)

/-- WAKE_TIME_REACHED (R146): at a boundary at or after the wake time. -/
def wakeReached (ch : Fin 512) (s : State) : State :=
  if s.tb.boundary ∧ (s.tlr.ctx[ch]).wake ≠ noTime ∧ (s.tlr.ctx[ch]).wake ≤ s.now then
    (s.modCtx ch fun x => { x with wake := noTime }).cause ch .wake
  else s
def execWakeTimeReached (ch : Fin 512) (s : State) : Result := .next (wakeReached ch s)

/-- CHANNEL_ENABLE (R148). A channel that still completes a routine goes on with it and stays enabled; log entry 37. -/
def channelEnable (ch : Fin 512) (s : State) : State :=
  if s.flag (TLR_CH_CTL.en ch) then s
  else
    let s := (s.raise (TLR_CH_CTL.en ch)).clear (TLR_CH_STAT.fault ch)
    let s := if s.get (TLR_CH_STAT.state ch) = chDisabled then s.set (TLR_CH_STAT.state ch) chIdle else s
    (s.cause ch .start).settle ch
def execChannelEnable (ch : Fin 512) (s : State) : Result := .next (channelEnable ch s)

/-- CHANNEL_DISABLE (R148). -/
def channelDisable (ch : Fin 512) (s : State) : State :=
  let s := s.clear (TLR_CH_CTL.en ch)
  let st := s.get (TLR_CH_STAT.state ch)
  if st = chRunning ∨ st = chPreempted ∨ st = chCommitting ∨ st = chReplay then s else s.set (TLR_CH_STAT.state ch) chDisabled
def execChannelDisable (ch : Fin 512) (s : State) : Result := .next (channelDisable ch s)

/-- CLR_PEND (R145). -/
def clrPend (ch : Fin 512) (s : State) : State := (s.wr (TLR_CH_PEND ch) 0).settle ch
def execClrPend (ch : Fin 512) (s : State) : Result := .next (clrPend ch s)

/-- HOST_CAUSE (R144). -/
def execHostCause (ch : Fin 512) (s : State) : Result := .next (s.cause ch .host)

/-- A write of TLR_CH_CTL: clear first, then enable or disable (R145). -/
def chCtlWrite (ch : Fin 512) (v : Word) (s : State) : State :=
  let s := if fieldOf v (TLR_CH_CTL.clr_pend ch) = 1 then clrPend ch s else s
  if fieldOf v (TLR_CH_CTL.en ch) = 1 then channelEnable ch s else channelDisable ch s

/-- A write of TLR_CH_PEND. -/
def chPendWrite (ch : Fin 512) (v : Word) (s : State) : State :=
  if fieldOf v (TLR_CH_PEND.host ch) = 1 then s.cause ch .host else s

/-- A write of TLR_CH_CAUSE_EN. -/
def causeEnWrite (ch : Fin 512) (v : Word) (s : State) : State := (s.plainWrite (TLR_CH_CAUSE_EN ch) v).settle ch

/-- TELLER_RUN (R437): a 1 is ignored before the vendor microcode is loaded. -/
def tellerRun (run : Bool) (s : State) : State :=
  if run && !s.flag FLT_BOOT.ucode then s else s.setBool TLR_CTRL.run run
def execTellerRun (run : Bool) (s : State) : Result := .next (tellerRun run s)

/-- CLR_PEAK (R31). -/
def execClrPeak (s : State) : Result := .next (s.clear TLR_LOAD.peak)

/-- A write of TLR_CTRL. -/
def tlrCtrlWrite (v : Word) (s : State) : State :=
  let s := s.setBool TLR_CTRL.preempt_en (fieldOf v TLR_CTRL.preempt_en = 1)
  let s := if fieldOf v TLR_CTRL.clr_peak = 1 then s.clear TLR_LOAD.peak else s
  tellerRun (fieldOf v TLR_CTRL.run = 1) s

/-! ### Aborts (R148, R154) -/

/-- The channel is aborted on engine `e`: causes set again, code recorded. -/
def faultChannel (ch : Fin 512) (e : Fin 17) (code : Nat) (cause : BitVec 19) (s : State) : State :=
  let s := (s.causes ch cause).set (TLR_CH_STAT.fault ch) code
  let s := s.set (TLR_CH_STAT.state ch) (if s.flag (TLR_CH_CTL.en ch) then chFaulted else chDisabled)
  (s.wr TLR_FAULT (BitVec.ofNat 32 (2 ^ 31 + e.val * 2 ^ 16 + code * 2 ^ 12 + ch.val))).fault .chFault

/-- The running routine of an engine is aborted (R154): its staged effects and its context are discarded. -/
def abortTop (e : Fin 17) (code : Nat) (s : State) : State :=
  match s.routine e with
  | none => s
  | some r =>
    let s := faultChannel r.ch e code r.cause (s.dropTop e)
    if code = 1 then s.raise TLR_STAT.budget else if code = 2 then s.raise TLR_STAT.stage_ovf else s

/-- The count of the engine cycle in progress is past the budget of routine `r` (R153): the count runs on from that of the cycle in which
its instruction issued. -/
def State.overBudget (s : State) (r : Routine) : Bool := decide (r.budget + r.issueAt < r.count + s.engCycle)

/-- BUDGET_ABORT (R153): at the end of the cycle whose count equals the budget. -/
def budgetAbort (e : Fin 17) (s : State) : State :=
  match s.routine e with
  | none => s
  | some r => if s.overBudget r then abortTop e 1 s else s
def execBudgetAbort (e : Fin 17) (s : State) : Result := .next (budgetAbort e s)

/-! ### Dispatch (R149–R151) -/

/-- The channel has been chosen for a preemption that is on its way (R155). -/
def State.selected (s : State) (ch : Fin 512) : Bool := (List.finRange 17).any fun e => ((s.tlr.eng[e]).sel.map (·.1)) == some ch

/-- The enabled causes that a dispatch takes: those that came before this cycle (R145). -/
def State.takes (s : State) (ch : Fin 512) : Word :=
  s.rd (TLR_CH_PEND ch) &&& s.rd (TLR_CH_CAUSE_EN ch) &&& ~~~s.justSet (TLR_CH_PEND ch)

def State.replaying (s : State) (ch : Fin 512) : Bool := s.get (TLR_CH_STAT.state ch) == chReplay
def State.ready (s : State) (ch : Fin 512) : Bool := s.get (TLR_CH_STAT.state ch) == chReady && s.takes ch != 0

/-- Place of a channel in the replay order: the cycle of its fence, then `n` and `k` (R149). -/
def replayKey (cyc n k : Nat) : Nat := (cyc * 512 + n) * 2 + k

/-- A channel in REPLAY that the Teller considers: from the engine cycle after its fence on (R423). -/
def State.replayWaits (s : State) (ch : Fin 512) : Bool :=
  s.replaying ch && !s.selected ch && decide (engCycleAt ((s.tlr.chan[ch]).replaySeq / 1024) < s.engCycle)

/-- The channel in REPLAY that comes first (R149, R165). -/
def State.firstReplay (s : State) : Option (Fin 512) :=
  ((List.finRange 512).filter s.replayWaits).foldl (fun best ch =>
    match best with
    | none => some ch
    | some b => if (s.tlr.chan[ch]).replaySeq < (s.tlr.chan[b]).replaySeq then some ch else some b) none

/-- The ready channel of a class found first after the class's last dispatch (R149). -/
def State.firstOfClass (s : State) (c : Fin 4) : Option (Fin 512) :=
  let last := s.tlr.rr[c]
  ((List.range 512).map fun k => Fin.ofNat 512 (last + 1 + k)).find? fun ch =>
    s.ready ch && (s.tlr.ctx[ch]).cls.toNat == c.val && !s.selected ch

/-- The channel the Teller selects (R149). -/
def State.pick (s : State) : Option (Fin 512) :=
  match s.firstReplay with
  | some ch => some ch
  | none => ([3, 2, 1, 0] : List (Fin 4)).findSome? s.firstOfClass

/-- The Teller dispatches: run = 1 and Park is not being entered (TLR_CTRL, R343). -/
def State.dispatching (s : State) : Bool := s.flag TLR_CTRL.run && !s.tlr.drainStop

/-- The lowest-numbered idle active engine of a quad. -/
def State.idleEngine (s : State) (q : Fin 4) : Option (Fin 17) :=
  (List.finRange 17).find? fun e => s.engActive e && s.engQuad e == q && s.engIdle e

/-- The context of the channel is uncorrectable at its dispatch (R142). -/
def contextLost (ch : Fin 512) (e : Fin 17) (s : State) : State :=
  let again := if s.replaying ch then (s.tlr.chan[ch]).replayCause else 0
  faultChannel ch e 4 again s

/-- A corrected error of the context RAM (R142, R419). -/
def ctxCorrected (s : State) : State := (s.raise TLR_STAT.ctx_corr).fault .ramCorr

/-- The routine of a channel begins: its causes are taken (R145), its context is copied (R143), and it leaves the ready
channels. -/
def beginRoutine (ch : Fin 512) (e : Fin 17) (at' : Nat) (s : State) : Routine × State :=
  let x := s.tlr.ctx[ch]
  let c := s.tlr.chan[ch]
  let replay := s.replaying ch
  let taken := s.takes ch
  let cause : BitVec 19 := if replay then c.replayCause else taken.setWidth 19
  let s := if replay then s else
    (s.wr (TLR_CH_PEND ch) ((s.rd (TLR_CH_PEND ch) &&& ~~~taken) ||| (taken &&& s.cameAgain ch))).modTlr fun t =>
      { t with rr := vmod t.rr (Fin.ofNat 4 x.cls.toNat) fun _ => ch.val }
  let s := (s.set (TLR_CH_STAT.state ch) chRunning).set (TLR_CH_STAT.engine ch) e
  ({ ch := ch, v := x.v, pc := x.pc, flags := x.flags, ctx := x, wb := x, cause := cause, count := 1,
     budget := x.cycles replay, issueAt := at', stage := [], reads := [], replay := replay, acc := none, micro := none }, s)

/-! ### The program store (R139–R141) -/

/-- Instruction word `i`. An unwritten word is 0. -/
def State.program (s : State) (i : BitVec 16) : Word := Sparse.get (fun _ => 0) s.tlr.prog i.toNat

/-- A corrected program-store error (R140). -/
def psCorrected (s : State) : State := ((s.raise TLR_STAT.ps_corr).incSat TLR_PS_STAT.corr_count).fault .ramCorr

/-- The copy that serves quad `q`. -/
def State.psServe (s : State) (q : Fin 4) : Nat := s.get TLR_PS_STAT.serve / 4 ^ q.val % 4
def State.psState (s : State) (c : Nat) : Nat := s.get TLR_PS_STAT.copy_state / 4 ^ c % 4
def setPair (w i v : Nat) : Nat := w - (w / 4 ^ i % 4) * 4 ^ i + v * 4 ^ i

/-- The routine of an engine refetches a group: its service is interrupted by at most 1 µs (R140), a free number of engine cycles, which
count in its budget (log entry 58). -/
def refetch (e : Fin 17) (s : State) : State :=
  match s.routine e with
  | none => s
  | some r =>
    let (x, s) := s.fresh 10
    let d := x.toNat % 801
    s.putTop e { r with issueAt := r.issueAt + d, count := r.count + d }

/-- PS_UNCORRECTABLE (R140): what the check of a fetched group finds. An error in one copy switches its quads to the sibling copy, from which
the group is fetched again; with both copies gone, or with the sibling out of service, the routine is aborted. -/
def psUncorrectable (e : Fin 17) (x : GroupError) (s : State) : State :=
  let c := s.psServe (s.engQuad e)
  let sib := if c % 2 = 0 then c + 1 else c - 1
  if x = .corrected then psCorrected s
  else if x = .bothCopies ∨ s.psState sib ≠ 0 then (abortTop e 3 s).fault .psFail
  else
    let s := s.set TLR_PS_STAT.copy_state (setPair (s.get TLR_PS_STAT.copy_state) c 1)
    let s := forAll 4 (fun k s =>
      if s.psServe k = c then s.set TLR_PS_STAT.serve (setPair (s.get TLR_PS_STAT.serve) k sib) else s) s
    refetch e ((s.raise TLR_STAT.ps_switch).fault .psSwitch)
def execPsUncorrectable (e : Fin 17) (x : GroupError) (s : State) : Result :=
  .next (if (s.routine e).isSome then psUncorrectable e x s else s)

/-- PS_REWRITE_DONE (R140): the rewritten copy takes back its quad if the check finds it good; otherwise it has failed. -/
def psRewriteDone (c : Fin 4) (pass : Bool) (s : State) : State :=
  if s.psState c ≠ 1 then s
  else if pass then
    (s.set TLR_PS_STAT.copy_state (setPair (s.get TLR_PS_STAT.copy_state) c 0)).set TLR_PS_STAT.serve
      (setPair (s.get TLR_PS_STAT.serve) c c)
  else s.set TLR_PS_STAT.copy_state (setPair (s.get TLR_PS_STAT.copy_state) c 2)
def execPsRewriteDone (c : Fin 4) (pass : Bool) (s : State) : Result := .next (psRewriteDone c pass s)

/-- OTP bit sign_req (R414): the host's and the DMA's way to programs and microcode is shut. -/
def State.signReq (s : State) : Bool := (Sparse.get (fun _ => 0) s.asy.otp 0xE0).getLsbD 0

/-- The page of program word `i` is protected (R410). -/
def State.psProtected (s : State) (i : BitVec 16) : Bool := (s.rd64 ASY_PS_PROT).getLsbD (i.toNat / 1024)

/-- Store an instruction word in all four copies. -/
def progPut (i : BitVec 16) (v : Word) (s : State) : State :=
  s.modTlr fun t => { t with prog := Sparse.put (fun _ => 0) t.prog i.toNat v }

/-- PROGRAM_STORE_WRITE (R141, R410, R414). -/
def programStoreWrite (i : BitVec 16) (v : Word) (s : State) : State :=
  if s.psProtected i || s.signReq then s.raise ASY_SEC_STAT.ps_wr_ignored else progPut i v s
def execProgramStoreWrite (i : BitVec 16) (v : Word) (s : State) : Result := .next (programStoreWrite i v s)

/-- A read of the program store window; a protected page reads 0 (R410). -/
def State.programRead (s : State) (i : BitVec 16) : Word := if s.psProtected i then 0 else s.program i

/-- What the fetch of the routine's first group finds. -/
def fetchCheck (e : Fin 17) (fetch : Ecc) (s : State) : State :=
  match fetch with
  | .clean => s
  | .corrected => psCorrected s
  | .uncorrectable => psUncorrectable e .oneCopy s

/-- DISPATCH (R149): at most one for a quad in an engine cycle. -/
def dispatch (q : Fin 4) (ctx fetch : Ecc) (s : State) : State :=
  if s.dispatching = false ∨ s.tlr.dispAt[q] = s.engCycle + 1 then s
  else
    match s.pick, s.idleEngine q with
    | some ch, some e =>
      let s := s.modTlr fun t => { t with dispAt := vmod t.dispAt q fun _ => s.engCycle + 1 }
      match ctx with
      | .uncorrectable => contextLost ch e s
      | _ =>
        let s := if ctx = .corrected then ctxCorrected s else s
        let (r, s) := beginRoutine ch e (s.engCycle + 2) s
        fetchCheck e fetch (s.modEng e fun x => { x with l0 := some r })
    | _, _ => s
def execDispatch (q : Fin 4) (ctx fetch : Ecc) (s : State) : Result := .next (dispatch q ctx fetch s)

/-! ### Fences and replay (R165–R167, R421–R429) -/

/-- A routine lost with its engine: its channel enters REPLAY, or FAULTED with code 6 when it was a replay already. -/
def replayRoutine (r : Routine) (e : Fin 17) (key : Nat) (s : State) : State :=
  if r.replay then (faultChannel r.ch e 6 r.cause s).raise TLR_STAT.replay_fail |>.fault .replayFail
  else
    let s := s.modCh r.ch fun c => { c with replayCause := r.cause, replaySeq := key }
    (s.raise (TLR_CH_STAT.replayed r.ch)).set (TLR_CH_STAT.state r.ch) chReplay

/-- The routines of an engine that had not reached their commit points (R165): the channels that enter REPLAY in one cycle go in
ascending number, a level-1 channel before its victim (R149). -/
def loseRoutines (e : Fin 17) (s : State) : State :=
  let x := s.tlr.eng[e]
  let key (n k : Nat) : Nat := replayKey s.tb.cyc n k
  let s' := s.modEng e fun _ => Engine.reset
  match x.l1, x.l0 with
  | some a, some b =>
    let base := min a.ch.val b.ch.val
    replayRoutine b e (key base 1) (replayRoutine a e (key base 0) s')
  | some a, none => replayRoutine a e (key a.ch 0) s'
  | none, some b => replayRoutine b e (key b.ch 0) s'
  | none, none => s'

/-- An engine is fenced (R165, R423): the free reserve is to take the place of an active engine in its quad, in the engine cycle after. -/
def fence (e : Fin 17) (cause : FenceCause) (s : State) : State :=
  if s.engRole e = 2 then s
  else
    let active := s.engActive e
    let q := s.engQuad e
    let s := loseRoutines e s
    let s := ((s.set (ENG_STAT.role e) 2).set (ENG_STAT.fence_cause e) cause.code).raise TLR_STAT.fence
    let s := ((s.set FLT_ENG.healthy (s.get FLT_ENG.healthy - 1)).incSat FLT_ENG.fences).fault .fence
    let c := s.engCycle
    s.modTlr fun t =>
      { t with attach := match t.attach with
          | some x => if x.1 = e then none else some x
          | none => if active then s.reserve.map fun k => (k, q, c) else none }
def execEngineFence (e : Fin 17) (cause : FenceCause) (s : State) : Result := .next (fence e cause s)

/-- The engine cycle after a fence: the reserve attaches (R423). -/
def attachReserve (s : State) : State :=
  match s.tlr.attach with
  | some (k, q, c) =>
    if s.engCycle ≤ c then s
    else
      let s := s.modTlr fun t => { t with attach := none }
      (s.set (ENG_STAT.role k) 0).set (ENG_STAT.quad k) q
  | none => s

/-- HOST_FENCE (R428): ignored when it would leave no active engine. -/
def hostFence (e : Fin 17) (s : State) : State :=
  if s.engActive e && s.engines == 1 && s.reserve.isNone then s else fence e .host s
def execHostFence (e : Fin 17) (s : State) : Result := .next (hostFence e s)

/-- REINTEGRATE (R429): starts on a fenced engine only. -/
def reintegrate (e : Fin 17) (s : State) : State :=
  if s.engRole e ≠ 2 ∨ s.tlr.reint.contains e then s
  else (s.modTlr fun t => { t with reint := t.reint ++ [e] }).raise FLT_ENG.reint_busy
def execReintegrate (e : Fin 17) (s : State) : Result := .next (reintegrate e s)

/-- The lowest quad with fewer than four active engines. -/
def State.openQuad (s : State) : Option (Fin 4) :=
  (List.finRange 4).find? fun q =>
    let comes := match s.tlr.attach with | some x => x.2.1 == q | none => false
    decide (((List.finRange 17).filter fun e => s.engActive e && s.engQuad e == q).length + comes.toNat < 4)

/-- REINTEGRATION_COMPLETE (R429). -/
def reintegrationComplete (e : Fin 17) (pass : Bool) (s : State) : State :=
  if s.tlr.reint.contains e = false then s
  else
    let s := s.modTlr fun t => { t with reint := t.reint.filter (· != e) }
    let s := s.setBool FLT_ENG.reint_busy (!s.tlr.reint.isEmpty)
    if pass = false then (s.raise FLT_ENG.reint_fail).fault .reintFail
    else
      let s := (s.set FLT_ENG.healthy (s.get FLT_ENG.healthy + 1)).clear (ENG_STAT.fence_cause e)
      match s.openQuad with
      | some q => (s.set (ENG_STAT.role e) 0).set (ENG_STAT.quad e) q
      | none => s.set (ENG_STAT.role e) 1
def execReintegrationComplete (e : Fin 17) (pass : Bool) (s : State) : Result := .next (reintegrationComplete e pass s)

/-- A write of ENG_CMD. -/
def engCmdWrite (e : Fin 17) (v : Word) (s : State) : State :=
  let s := if fieldOf v (ENG_CMD.fence e) = 1 then hostFence e s else s
  if fieldOf v (ENG_CMD.reintegrate e) = 1 then reintegrate e s else s

/-! ### Commit (R161–R163) -/

/-- The command in which a step-1 effect lands (R162). -/
def Effect.lands (ch : Fin 512) : Effect → Option Instr
  | .sched n x => some (.armedEntryArrival n x)
  | .cancel n tag => some (.facetCancel n tag)
  | .flush n => some (.facetFlush n)
  | .safe n => some (.facetSafe n)
  | .release n => some (.facetRelease n)
  | .cmpWrite n k v => some (.compareWrite n k v)
  | .cmpDisarm n k => some (.compareDisarm n k)
  | .draftWrite d i x => some (.draftArrival d i x)
  | .draftCancel d i => some (.draftCancelArrival d i ch)
  | .draftFree d i => some (.draftFreeArrival d i ch)
  | .conv g t tag => some (.channelTrigger g t tag)
  | .convu c i a => some (.urgentRequestArrival c i a ch)
  | .rwin c r a b => some (.windowSubmit c r a b)
  | .store _ _ | .atomic _ _ _ | .note _ _ _ _ _ | .seal _ _ | .post _ | .rpost _ _ | .revt _ _ | .trig _ => none

/-- A Vault write of step 2, with a store of two lines cut into its lines (R185). -/
def Effect.vaultParts : Effect → List Effect
  | .store a bs => (lineParts a bs.length).map fun p => .store p.1 ((bs.drop (p.1 - a)).take p.2)
  | .atomic a sw v => [.atomic a sw v]
  | _ => []

/-- Log notes and seals. -/
def Effect.isLog : Effect → Bool
  | .note _ _ _ _ _ | .seal _ _ => true
  | _ => false

/-- Posts, remote posts and TRIG. -/
def Effect.isPost : Effect → Bool
  | .post _ | .rpost _ _ | .revt _ _ | .trig _ => true
  | _ => false

/-- The commit point (R161): the staging buffer and the write-back pass to the commit unit. A context error found then aborts the routine
instead (R142, R154). -/
def commitPoint (e : Fin 17) (r : Routine) (x : Ending) (ctx : Ecc) (s : State) : State :=
  if ctx = .uncorrectable then abortTop e 4 s
  else
    let s := (if ctx = .corrected then ctxCorrected s else s).dropTop e
    let c : Commit :=
      { ch := r.ch, back := some (r, x), vault := (r.stage.map Effect.vaultParts).flatten,
        step3 := r.stage.filter Effect.isLog ++ r.stage.filter Effect.isPost, time := s.now, again := x.again, posted := [] }
    (s.modTlr fun t => { t with commits := t.commits ++ [c] }).set (TLR_CH_STAT.state r.ch) chCommitting

/-- Step 1 of a commit, in the cycle after its commit point (R162): the context write-back, with the subscription that counts pulses after
the cycle in which it takes effect (R190; log entry 18), and the effects that are sent. Only WAIT with t = 1 writes a wake time (R146). -/
def writeBack (r : Routine) (x : Ending) (s : State) : State :=
  let s := s.modCtx r.ch fun c =>
    { r.wb with v := r.v, flags := r.flags, pc := x.pc, cls := c.cls, wake := x.wake.getD c.wake }
  let s := match x.sub with
    | none => s
    | some n => s.modCh r.ch fun c => { c with sub := n.map fun n => (n, s.tb.cyc + 1) }
  let s := r.stage.foldl (fun s f => match f.lands r.ch with | some c => s.post s.tb.cyc c | none => s) s
  r.reads.foldl (fun s p => s.post s.tb.cyc (.captureRemoval p.1 p.2)) s

/-- The commits whose commit points were in the cycle before take their first step, in commit order (R162, R163). -/
def commitStep1 (s : State) : State :=
  s.tlr.commits.foldl (fun s c => match c.back with | some (r, x) => writeBack r x s | none => s)
    (s.modTlr fun t => { t with commits := t.commits.map fun c => { c with back := none } })

/-- One Vault write of a commit, in an engine slot. A posted atomic that meets poison is not applied (R265). -/
def vaultEffect (ecc : LineEcc) (f : Effect) (s : State) : State :=
  match f with
  | .store a bs => bankWrite 0 a (bs.map some) ecc (countSlot 0 s)
  | .atomic a sw v =>
    let (old, s) := bankAtomic 0 (a / 8) sw v ecc (countSlot 0 s)
    s.raiseIf old.isNone VLT_STAT.poison_atom
  | _ => s

/-- The next Vault write of the oldest commit, once its step 1 is done (R162, R163). -/
def commitVaultWrite (ecc : LineEcc) (s : State) : State :=
  match s.tlr.commits with
  | [] => s
  | c :: rest =>
    match c.back, c.vault with
    | none, f :: more => vaultEffect ecc f (s.modTlr fun t => { t with commits := { c with vault := more } :: rest })
    | _, _ => s

/-- A POST of a commit: its first to a channel pulses the channel's interrupt source (R333). -/
def commitPost (n : Fin 512) (c : Commit) (s : State) : Commit × State :=
  if c.posted.contains n then (c, s.cause n .post) else ({ c with posted := n :: c.posted }, s.postTo n .post)

/-- Issue the step-3 effects of a commit in order, up to a TRIG that must wait for the next cycle (R193): the commit with what is left. -/
def step3 : List Effect → Commit → State → Commit × State
  | [], c, s => ({ c with step3 := [] }, s)
  | f :: r, c, s =>
    match f with
    | .note m ty t a b => step3 r c (logNote m ty c.ch t a b s)
    | .seal m t => step3 r c (sealStream 1 m (t.getD c.time) s)
    | .post n => let (c, s) := commitPost n c s; step3 r c s
    | .rpost n k => step3 r c (sendRpost n k c.ch c.time s)
    | .revt n m => step3 r c (sendRevt n m s)
    | .trig t =>
      if s.tlr.trigDone then ({ c with step3 := f :: r }, s)
      else step3 r c (pulse (96 + t.toNat) (s.modTlr fun x => { x with trigDone := true }))
    | _ => step3 r c s

/-- The channel leaves COMMITTING (R148, R162), with the causes of a YIELD raised again (R191). -/
def leaveCommit (c : Commit) (s : State) : State :=
  let s := s.set (TLR_CH_STAT.state c.ch) (if s.flag (TLR_CH_CTL.en c.ch) then chIdle else chDisabled)
  (s.causes c.ch c.again).settle c.ch

/-- COMMIT_STEP3 (R162): once the write-back of the oldest commit has gone and its Vault writes are applied. -/
def commitStep3 (s : State) : State :=
  match s.tlr.commits with
  | [] => s
  | c :: rest =>
    if c.back.isSome ∨ c.vault ≠ [] then s
    else
      let (c, s) := step3 c.step3 c s
      match c.step3 with
      | [] => leaveCommit c (s.modTlr fun t => { t with commits := rest })
      | _ => s.modTlr fun t => { t with commits := c :: rest }
def execCommitStep3 (s : State) : Result := .next (commitStep3 s)

end Sys2Proof.Machine
end

