-- ==== Sys2Proof/Machine/Power.lean ====
section
/-!
DEFINITION. The power states (spec/14, R341–R348).
-/
namespace Sys2Proof.Machine
open Sys2Proof

/-- PWR_STAT.state (R341–R346). -/
def State.power (s : State) : Nat := s.get PWR_STAT.state
def pwRun : Nat := 0
def pwDoze : Nat := 1
def pwEntering : Nat := 2
def pwPark : Nat := 3
def pwLeaving : Nat := 4
def pwDeepEntry : Nat := 5
def pwDeepExit : Nat := 6

/-! ### Park (R343, R344) -/

/-- Steps 1 and 2 of R343: dispatch stops and the DMA channels drain. -/
def beginPark (s : State) : State :=
  let s := ((s.set PWR_STAT.state pwEntering).modTlr fun t => { t with drainStop := true }).modIc fun x => { x with woke := false }
  forAll 32 (fun n s => if s.dmaState n = dmaRunning then startDrain n (s.modChan n fun c => { c with parked := true }) else s) s

/-- Routines have completed, commits are applied and the DMA channels have drained (R343). -/
def State.parkReady (s : State) : Bool :=
  (List.finRange 17).all s.engIdle && s.tlr.commits.isEmpty &&
    (List.finRange 32).all fun n => s.dmaState n != dmaRunning && s.dmaState n != dmaDraining

/-- Steps 3 and 4 of R343: the Park hold begins, the MACs' links go down. -/
def finishPark (s : State) : State :=
  let was := (List.finRange 256).map s.held
  let s := s.set PWR_STAT.state (if s.get PWR_CTRL.target = 3 then pwDeepEntry else pwPark)
  let s := (s.clear PWR_STAT.dp_step)
  let s := forAll 256 (fun n s => if was.getD n false then s else beginHold n s) s
  forAll 2 (fun m s => linkChange m false s) s

/-- PARK_ENTRY (R343): it begins in Run or Doze, and ends once all that must stop has stopped. -/
def parkEntry (s : State) : State :=
  if s.power = pwRun ∨ s.power = pwDoze then beginPark (if s.get PWR_CTRL.target = 3 then s else s.set PWR_CTRL.target 2)
  else if s.power = pwEntering ∧ s.parkReady = true then finishPark s
  else s
def execParkEntry (s : State) : Result := .next (parkEntry s)

/-- WAKE is at its active level and enabled (R347). -/
def State.pinWake (s : State) : Bool := s.flag PWR_WAKE_EN.pin_en && s.wakePin == s.flag PWR_WAKE_EN.pin_pol

/-- What wakes the device from Park: pin, host or source (R347). -/
def State.parkWakeCause (s : State) : Option Nat :=
  if s.pinWake then some 0
  else if s.get PWR_CTRL.target < 2 then some 1
  else if s.flag PWR_WAKE_EN.ic_en && (s.ic.woke || s.ic.queue.any fun (n : Fin 1024) => s.flag (IC_SRC.wake n)) then some 2
  else none

/-- The exit from Park begins: the first wake is recorded (R347). -/
def beginWake (s : State) : State :=
  match s.parkWakeCause with
  | none => s
  | some c =>
    let s := (s.set PWR_STAT.state pwLeaving).set PWR_STAT.wake_cause c
    if 2 ≤ s.get PWR_CTRL.target then s.clear PWR_CTRL.target else s

/-- The units are back: DMA channels that Park drained resume, the Park hold ends, dispatch resumes (R344). A target of Park or Deep Park
written meanwhile takes effect now (R342). -/
def finishWake (s : State) : State :=
  let t := s.get PWR_CTRL.target
  let s := s.set PWR_STAT.state (if t = 1 then pwDoze else pwRun)
  let s := forAll 32 (fun n s =>
    if (s.dma.chan[n]).parked = false then s
    else if s.flag (DMA_CTL.pause n) then s.modChan n fun c => { c with parked := false } else endDrain n s) s
  let s := forAll 256 endHold s
  let s := s.modTlr fun x => { x with drainStop := false }
  if 2 ≤ t then beginPark s else s

/-- PARK_WAKE (R344, R347). -/
def parkWake (s : State) : State :=
  if s.power = pwPark then beginWake s else if s.power = pwLeaving then finishWake s else s
def execParkWake (s : State) : Result := .next (parkWake s)

/-! ### Deep Park (R345, R346) -/

/-- Blocks whose registers Deep Park keeps: global, timebase, interrupt controller, power, fault summary, by offset ÷ 64 KiB. -/
def deepKept (off : Nat) : Bool :=
  let b := off / 0x10000
  b == 0 || b == 1 || b == 0x17 || b == 0x1A || (b == 0x1B && off != FLT_BOOT && off != FLT_ENG)

/-- What Deep Park and RESET_N leave of an input pin: the level outside. -/
def keepPins (s : State) : Vector Facet 256 × Vector Wheel 8 :=
  (s.fct.map fun f => { Facet.reset with ext := f.ext, latched := f.latched }, s.whl.map fun w => { Wheel.reset with ext := w.ext })

/-- What the OTP and the NOR hold (R412, R435). -/
def Asy.kept (a : Asy) : Asy :=
  { Asy.reset with otp := a.otp, slots := a.slots, ledger := a.ledger, place := a.place, seq := a.seq, boots := a.boots }

/-- Why the core boots at a wake from Deep Park: R405 gives that no code. -/
def bootDeep : Nat := 7

/-- Offsets whose words step 2 of R345 copies: the interrupt controller's and PWR_. -/
def deepCopied (off : Nat) : Bool := off / 0x10000 == 0x17 || off / 0x10000 == 0x1A

/-- Step 2 of R345. -/
def retain (s : State) : Retained := { regs := s.regs.filter (fun x => deepCopied x.1), ic := s.ic, pcie := s.host.pcie }

/-- Step 4 of R345: the clocks stop, and every unit without retention loses its state (R341, R59, R75, R267, R287, R310, R331, R377). What
retention holds is what step 2 copied. -/
def loseUnits (s : State) : State :=
  let (f, w) := keepPins s
  let kept := s.retained.getD (retain s)
  let live := s.regs.filter fun x => deepKept x.1 && !deepCopied x.1
  let r := { State.reset with
    regs := kept.regs.foldl (fun (m : Sparse Word) (x : Nat × Word) => Sparse.put resetWord m x.1 x.2) live, tb := s.tb, fct := f, whl := w, safeN := s.safeN, ic := kept.ic,
    host := { s.host with qspi := [], pcie := kept.pcie }, asy := { s.asy.kept with bootCode := bootDeep }, wakePin := s.wakePin, resetLow := s.resetLow, free := s.free,
    out := s.out, read := s.read, pending := s.pending }
  let r := (r.set PWR_STAT.state pwDeepEntry).set PWR_STAT.dp_step 3
  let r := if s.flag GBL_HOST.dl_up then (r.raise GBL_HOST.link_down).fault .hostLink else r
  let r := (((r.clear GBL_HOST.ready).clear GBL_HOST.dl_up).clear GBL_HOST.width).clear GBL_HOST.speed
  let r := if s.safeN then r else r.clear FCT_GSAFE.safe_n
  let r := (r.setBool MNT_CTRL.lock (s.flag MNT_CTRL.lock)).setBool MNT_CTRL.hide (s.flag MNT_CTRL.hide)
  (r.raise FCT_GSAFE.io_hold).clear TB_STAT.pll_lock

/-- DEEP_PARK_ENTRY (R345): from Run it goes through Park; then one step of R345 at a time. -/
def deepParkEntry (s : State) : State :=
  if s.power = pwRun ∨ s.power = pwDoze then parkEntry (s.set PWR_CTRL.target 3)
  else if s.power = pwPark ∧ s.get PWR_CTRL.target = 3 then (s.set PWR_STAT.state pwDeepEntry).clear PWR_STAT.dp_step
  else if s.power ≠ pwDeepEntry ∨ s.flag TB_STAT.pll_lock = false then s
  else
    match s.get PWR_STAT.dp_step with
    | 0 => ((s.wr64 TB_PARK_GTB s.now).modTb fun b => { b with aon := 0 }).set PWR_STAT.dp_step 1
    | 1 => { s with retained := some (retain s) }.set PWR_STAT.dp_step 2
    | 2 =>
      let g := s
      let s := { s with fct := Vector.ofFn fun n => { s.fct[n] with latched := g.safeLatch n } }
      (s.raise FCT_GSAFE.io_hold).set PWR_STAT.dp_step 3
    | _ => loseUnits s
def execDeepParkEntry (s : State) : Result := .next (deepParkEntry s)

/-- The clocks are stopped in Deep Park. -/
def State.deepParked (s : State) : Bool := s.power == pwDeepEntry && !s.flag TB_STAT.pll_lock

/-- PWR_ALARM AON cycles have passed since the entry (R347). -/
def State.alarmWake (s : State) : Bool := s.flag PWR_WAKE_EN.alarm_en && decide ((s.rd PWR_ALARM).toNat ≤ s.tb.aon.toNat)

/-- DEEP_PARK_WAKE (R40, R346): the PLLs relock and GTB resumes; the Assayer boots again. -/
def deepParkWake (s : State) : State :=
  if s.deepParked && (s.pinWake || s.alarmWake) then
    let s := ((s.raise TB_STAT.pll_lock).raise FLT_BOOT.pll).set PWR_STAT.wake_cause (if s.pinWake then 0 else 3)
    let s := ((s.set PWR_STAT.state pwDeepExit).clear PWR_STAT.dp_step).clear PWR_CTRL.target
    let s := { s with asy := { s.asy with boots := s.asy.boots + 1 } }
    (safeNStart (stepGtb (resumeTime (s.rd64 TB_PARK_GTB) s.tb.aon) 2 s)).modIc fun x => { x with resample := true }
  else s
def execDeepParkWake (s : State) : Result := .next (deepParkWake s)

/-- WAKE_PIN (R347): the pin's level, and the wake it starts. -/
def wakePin (level : Bool) (s : State) : State :=
  let s := { s with wakePin := level }
  if s.pinWake = false then s
  else if s.power = pwPark then beginWake s else if s.deepParked then deepParkWake s else s
def execWakePin (level : Bool) (s : State) : Result := .next (wakePin level s)

/-- AON_ALARM (R347). -/
def execAonAlarm (s : State) : Result := .next (if s.alarmWake then deepParkWake s else s)

/-- DAYBOOK_TRAINED ends the wake from Deep Park (R346); the target reads 0 since the wake unless one has been written meanwhile, which takes
effect now (R342). -/
def endDeepExit (s : State) : State :=
  if s.power = pwDeepExit then
    let t := s.get PWR_CTRL.target
    let s := (s.set PWR_STAT.state (if t = 1 then pwDoze else pwRun)).raise PWR_STAT.dp_resumed
    if 2 ≤ t then beginPark s else s
  else s

/-! ### PWR_CTRL (R342) -/

/-- A write of PWR_CTRL: recorded during a transition, otherwise it takes effect. -/
def pwrCtrlWrite (v : Word) (s : State) : State :=
  let s := s.plainWrite PWR_CTRL v
  let t := s.get PWR_CTRL.target
  if s.power = pwRun ∨ s.power = pwDoze then (if t < 2 then s.set PWR_STAT.state t else beginPark s)
  else if s.power = pwPark then (if t < 2 then beginWake s else if t = 3 then deepParkEntry s else s)
  else s

/-- RUN_DOZE_SELECT (R342). -/
def execRunDozeSelect (doze : Bool) (s : State) : Result := .next (pwrCtrlWrite (BitVec.ofNat 32 doze.toNat) s)

end Sys2Proof.Machine
end

