-- ==== Sys2Proof/Machine/Ledger.lean ====
section
/-!
DEFINITION. The Assayer's Ledger and sensors (spec/17, R400–R406).
-/
namespace Sys2Proof.Machine
open Sys2Proof

def State.modAsy (s : State) (f : Asy → Asy) : State := { s with asy := f s.asy }

/-- The Assayer's firmware or ROM runs (ASY_STAT.ready). -/
def State.asyReady (s : State) : Bool := s.flag ASY_STAT.ready && !s.resetLow

/-! ### CRC-32 (R404) -/

/-- One bit of the reflected IEEE 802.3 polynomial. -/
def crcBit (c : Word) : Word := if c.getLsbD 0 then (c >>> 1) ^^^ 0xEDB88320 else c >>> 1
def crcByte (c : Word) (b : Byte) : Word :=
  let x := c ^^^ b.setWidth 32
  crcBit (crcBit (crcBit (crcBit (crcBit (crcBit (crcBit (crcBit x)))))))
/-- CRC-32, IEEE 802.3 polynomial. -/
def crc32 (bs : List Byte) : Word := ~~~(bs.foldl crcByte 0xFFFFFFFF)

/-- An entry as 32 bytes (R404). -/
def LedgerEntry.bytes (x : LedgerEntry) : List Byte :=
  let b := leBytes 4 x.seq.toNat ++ leBytes 2 x.boot.toNat ++ [x.edge.cls, x.sev] ++ leBytes 8 x.edge.time.toNat ++
    leBytes 2 x.edge.code.toNat ++ leBytes 2 x.edge.source.toNat ++ leBytes 8 x.edge.data.toNat
  b ++ leBytes 4 (crc32 b).toNat

/-! ### The queue (R403, R406) -/

/-- Append an entry to the queue: its number, and a severity that the spec does not tie to the class. -/
def ledgerPush (x : AsyEdge) (s : State) : State :=
  let (v, s) := s.fresh 2
  s.modAsy fun a => { a with queue := a.queue ++ [⟨a.seq, a.boots, v.setWidth 8, x⟩], seq := a.seq + 1 }

/-- Queue an entry; one that finds 64 waiting is lost (R403). -/
def ledgerQueue (x : AsyEdge) (s : State) : State :=
  if s.asy.queue.length < 64 then ledgerPush x s else s.modAsy fun a => { a with lost := a.lost + 1 }

/-- An entry of the Assayer's own. -/
def ledgerNote (cls : BitVec 8) (code source : Nat) (data : Dword) (s : State) : State :=
  ledgerQueue ⟨cls, BitVec.ofNat 16 code, BitVec.ofNat 16 source, data, s.eventTime⟩ s

/-- FAULT_EDGE (R403): the oldest edge of a fault or a sensor becomes a Ledger entry. -/
def faultEdge (s : State) : State :=
  if s.asyReady = false then s
  else
    match s.asyEdges with
    | [] => s
    | x :: r => ledgerQueue x { s with asyEdges := r }
def execFaultEdge (s : State) : Result := .next (faultEdge s)

/-- When room returns, one class-6 entry records the number lost (R403). -/
def ledgerLoss (s : State) : State :=
  if s.asy.lost = 0 ∨ 64 ≤ s.asy.queue.length then s
  else
    let n := s.asy.lost
    (ledgerPush ⟨6, 0, 0, BitVec.ofNat 64 n, s.eventTime⟩ (s.modAsy fun a => { a with lost := 0 })).raise ASY_STAT.ledger_lost

/-- Places of the Ledger: 33 sectors of 128 (R406). -/
def ledgerPlaces : Nat := 33 * 128

/-- LEDGER_WRITE (R403, R406): the oldest queued entry goes to the NOR; a sector is erased before it is written into; a failure goes on at
the next sector. -/
def ledgerWrite (ok : Bool) (s : State) : State :=
  if s.asyReady = false then s
  else
    match s.asy.queue with
    | [] => s
    | x :: r =>
      let p := s.asy.place
      let held := if p % 128 = 0 then s.asy.ledger.filter fun y => y.1 / 128 != p / 128 else s.asy.ledger
      if ok then
        ledgerLoss (s.modAsy fun a =>
          { a with queue := r, ledger := held.filter (fun y => y.1 != p) ++ [(p, x)], place := (p + 1) % ledgerPlaces })
      else (s.modAsy fun a => { a with ledger := held, place := (p / 128 + 1) % 33 * 128 }).raise ASY_STAT.nor_err
def execLedgerWrite (ok : Bool) (s : State) : Result := .next (ledgerWrite ok s)

/-! ### Sensors (R400–R402) -/

/-- A sensor report: the flag, and on its assertion the edge to the Ledger (R403). -/
def sensorReport (f : Fld) (code source : Nat) (reading : Int) (s : State) : State :=
  let rising := !s.flag f
  let s := s.raise f
  if rising then
    { s with asyEdges := s.asyEdges ++ [⟨1, BitVec.ofNat 16 code, BitVec.ofNat 16 source, dwordOfInt reading, s.eventTime⟩] }
  else s

/-- One limit of a temperature: reported again only after a fall of 4 °C (R401). -/
def tempLimit (k : Fin 18) (t : Int) (limit : Nat) (f : Fld) (code source : Nat) (s : State) : State :=
  let l : Int := 16 * limit
  let hot := (s.asy.hot)[k]
  if l ≤ t then
    if hot then s else sensorReport f code source t (s.modAsy fun a => { a with hot := a.hot.set k true })
  else if t ≤ l - 64 then s.modAsy fun a => { a with hot := a.hot.set k false } else s

/-- A temperature reading (R400, R401). -/
def tempSample (i : Fin 9) (t : BitVec 16) (s : State) : State :=
  let s := s.set (ASY_TEMP.temp i) t.toNat
  let w := if i = 8 then s.get ASY_TLIM.dram_warn else s.get ASY_TLIM.die_warn
  let c := if i = 8 then s.get ASY_TLIM.dram_crit else s.get ASY_TLIM.die_crit
  tempLimit ⟨9 + i.val, by omega⟩ t.toInt c ASY_STAT.temp_crit 1 i (tempLimit ⟨i.val, by omega⟩ t.toInt w ASY_STAT.temp_warn 0 i s)

/-- A supply reading (R401). -/
def supplySample (j : Fin 10) (v : BitVec 16) (s : State) : State :=
  let s := s.set (ASY_SUP.mv j) v.toNat
  if v.toNat < s.get (ASY_SUP_LIM.lo j) then sensorReport ASY_STAT.sup_out 2 (16 + j.val) v.toNat s
  else if s.get (ASY_SUP_LIM.hi j) < v.toNat then sensorReport ASY_STAT.sup_out 3 (16 + j.val) v.toNat s
  else s

/-- A bank's I/O voltage against the level that vsel names, 1.8 V or 3.3 V, within 10 % (R89, R401). -/
def vioSample (b : Fin 8) (v : BitVec 16) (s : State) : State :=
  let s := s.set (ASY_VIO.mv b) v.toNat
  let level := if s.flag (FCT_BANK.vsel b) then 3300 else 1800
  let off := decide (v.toNat * 10 < level * 9) || decide (level * 11 < v.toNat * 10)
  let s := s.setBool (FCT_BANK.vmis b) off
  if off then sensorReport ASY_STAT.sup_out 5 (32 + b.val) v.toNat s else s

/-- SENSOR_SAMPLE (R400–R402): the readings of one round; the Daybook throttle follows the DRAM die (R312). -/
def sensorSample (temps : Vector (BitVec 16) 9) (sups : Vector (BitVec 16) 10) (vio : List (Fin 8 × BitVec 16)) (ref : Word) (s : State) : State :=
  let s := s.modAsy fun a => { a with stopped := false }
  let s := forAll 9 (fun i s => tempSample i temps[i] s) s
  let s := forAll 10 (fun j s => supplySample j sups[j] s) s
  let s := vio.foldl (fun s x => vioSample x.1 x.2 s) s
  let s := s.wr ASY_REF ref
  let s := if 3000 < ref.toInt.natAbs then sensorReport ASY_STAT.ref_out 4 48 ref.toInt s else s
  setThrottle (throttleLevel temps[8].toInt) s
def execSensorSample (temps : Vector (BitVec 16) 9) (sups : Vector (BitVec 16) 10) (vio : List (Fin 8 × BitVec 16)) (ref : Word) (s : State) :
    Result := .next (sensorSample temps sups vio ref s)

/-- ASY_CLOCK_STOP (R402): throttle level 2 until readings resume. -/
def execAsyClockStop (s : State) : Result := .next (setThrottle 2 (s.modAsy fun a => { a with stopped := true }))

/-- The limits written at boot (R401), by grade: nominal values from spec/19, with no window on the two VIO monitors (log entry 41). -/
def supplyNominal : List Nat := [800, 800, 800, 1800, 1100, 600, 850, 1800]
def bootLimits (s : State) : State :=
  let (w, c) := if Config.grade = 1 then (120, 130) else (100, 110)
  let s := (((s.set ASY_TLIM.die_warn w).set ASY_TLIM.die_crit c).set ASY_TLIM.dram_warn 85).set ASY_TLIM.dram_crit 95
  forAll 10 (fun j s =>
    match supplyNominal[j.val]? with
    | some v => (s.set (ASY_SUP_LIM.lo j) (v * 95 / 100)).set (ASY_SUP_LIM.hi j) (v * 105 / 100)
    | none =>
      let (x, s) := s.fresh 32
      s.wr (ASY_SUP_LIM j) x) s

end Sys2Proof.Machine
end

