-- ==== Sys2Proof/Machine/Flags.lean ====
section
/-!
DEFINITION. The six flags of a channel (R170) and every flag computation of the channel instructions (R179, R180, R202–R216),
over one ALU that the channel instructions and the Mint's nano-words share (R234).
-/
namespace Sys2Proof.Machine
open Sys2Proof

/-! ### Flag bits (R142) -/

def flagZ : Nat := 0
def flagN : Nat := 1
def flagC : Nat := 2
def flagV : Nat := 3
def flagL : Nat := 4
def flagQ : Nat := 5

/-- The flags with bit `k` set to `b`. -/
def setFlag (f : BitVec 6) (k : Nat) (b : Bool) : BitVec 6 :=
  if b then f ||| BitVec.twoPow 6 k else f &&& ~~~BitVec.twoPow 6 k

/-- Z and N of a result. -/
def setZN (f : BitVec 6) (x : Dword) : BitVec 6 := setFlag (setFlag f flagZ (x == 0)) flagN x.msb

/-! ### The ALU -/

/-- ALU operations, with the numbers of R234; the divisions are those of the channel instructions alone. -/
inductive AluOp where
  | pass | add | sub | and | or | xor | shl | shr | sar | mul | mulhu | mulsh | minu | maxu | mins | maxs | ext | ins
  | divu | remu
  deriving DecidableEq, Repr

/-- The shifts write C and keep V; every other operation writes both C and V, as computed or 0 (R179). The divisions are
read with the operations marked ZN, whose C is cleared; log entry 33. -/
def AluOp.isShift : AluOp → Bool
  | .shl | .shr | .sar => true
  | _ => false

/-- Width of an ext or ins field: 0 means 64 (R180). -/
def fieldLen (n : Nat) : Nat := if n % 64 = 0 then 64 else n % 64

/-- The result of an operation, with the C and the V it computes (0 where R179 gives none). `x` is the base of ins. -/
def alu (op : AluOp) (a b x : Dword) : Dword × Bool × Bool :=
  let n := b.toNat % 64
  let pos := b.toNat % 64
  let len := fieldLen (b.toNat / 64)
  match op with
  | .pass => (a, false, false)
  | .add => (a + b, decide (2 ^ 64 ≤ a.toNat + b.toNat), a.msb == b.msb && (a + b).msb != a.msb)
  | .sub => (a - b, decide (a.toNat < b.toNat), a.msb != b.msb && (a - b).msb != a.msb)
  | .and => (a &&& b, false, false)
  | .or => (a ||| b, false, false)
  | .xor => (a ^^^ b, false, false)
  | .shl => (a <<< n, decide (0 < n) && a.getLsbD (64 - n), false)
  | .shr => (a >>> n, decide (0 < n) && a.getLsbD (n - 1), false)
  | .sar => (a.sshiftRight n, decide (0 < n) && a.getLsbD (n - 1), false)
  | .mul => (a * b, decide (2 ^ 64 ≤ a.toNat * b.toNat), decide ((a * b).toInt ≠ a.toInt * b.toInt))
  | .mulhu => (BitVec.ofNat 64 (a.toNat * b.toNat / 2 ^ 64), false, false)
  | .mulsh => (BitVec.ofInt 64 (a.toInt * b.toInt / 2 ^ 64), false, false)
  | .minu => (if a.toNat ≤ b.toNat then a else b, false, false)
  | .maxu => (if a.toNat ≤ b.toNat then b else a, false, false)
  | .mins => (if a.toInt ≤ b.toInt then a else b, false, false)
  | .maxs => (if a.toInt ≤ b.toInt then b else a, false, false)
  | .ext => (BitVec.ofNat 64 (a.toNat / 2 ^ pos % 2 ^ len), false, false)
  | .ins =>
    let mask : Dword := BitVec.ofNat 64 ((2 ^ len - 1) * 2 ^ pos)
    ((x &&& ~~~mask) ||| (BitVec.ofNat 64 (a.toNat % 2 ^ len * 2 ^ pos) &&& mask), false, false)
  | .divu => if b = 0 then (BitVec.allOnes 64, false, true) else (a / b, false, false)
  | .remu => if b = 0 then (a, false, true) else (a % b, false, false)

/-- The flags after a channel instruction of the operation (R179). -/
def aluFlags (op : AluOp) (f : BitVec 6) (r : Dword × Bool × Bool) : BitVec 6 :=
  let f := setFlag (setZN f r.1) flagC r.2.1
  if op.isShift then f else setFlag f flagV r.2.2

/-- Engine cycles of an operation (R179). -/
def AluOp.cost : AluOp → Nat
  | .mul | .mulhu | .mulsh => 3
  | .divu | .remu => 36
  | _ => 1

/-! ### Branch conditions (R181) -/

inductive Cond where
  | eq | ne | lt | ge | gt | le | lo | hs | hi | ls | mi | pl | vs | vc | late | nlate | qe | nqe
  deriving DecidableEq, Repr

/-- Whether a conditional branch is taken. -/
def Cond.holds (c : Cond) (f : BitVec 6) : Bool :=
  let z := f.getLsbD flagZ
  let n := f.getLsbD flagN
  let c' := f.getLsbD flagC
  let v := f.getLsbD flagV
  match c with
  | .eq => z
  | .ne => !z
  | .lt => n != v
  | .ge => n == v
  | .gt => !z && n == v
  | .le => z || n != v
  | .lo => c'
  | .hs => !c'
  | .hi => !c' && !z
  | .ls => c' || z
  | .mi => n
  | .pl => !n
  | .vs => v
  | .vc => !v
  | .late => f.getLsbD flagL
  | .nlate => !f.getLsbD flagL
  | .qe => f.getLsbD flagQ
  | .nqe => !f.getLsbD flagQ

end Sys2Proof.Machine
end

