-- ==== Sys2Proof/Machine/Operands.lean ====
section
/-!
DEFINITION. What the channel instructions share (spec/07, spec/08): issue on an engine, operand forms, staging, and access to the
Vault from a routine.
-/
namespace Sys2Proof.Machine
open Sys2Proof

/-! ### Issue (R153, R177, R178) -/

/-- The routine can issue an instruction: the one before it has completed (R178), and the cycle lies within the budget. -/
def Routine.canIssue (r : Routine) : Bool := decide (r.count ≤ r.budget) && r.acc.isNone && r.micro.isNone

/-- The routine begins with the cycle of its first instruction: its channel no longer waits (R31, R431). -/
def begins (r : Routine) (s : State) : State :=
  if r.count = 1 then s.modTlr fun t => { t with waiting := t.waiting.filter (· != r.ch) } else s

/-- An instruction issues on the routine that runs on engine `e`. -/
def runOn (e : Fin 17) (f : Routine → State → State) (s : State) : State :=
  match s.routine e with
  | none => s
  | some r => if r.canIssue then f r (begins r s) else s

/-- The routine after `cost` engine cycles, at instruction address `pc`. -/
def Routine.spend (r : Routine) (s : State) (cost : Nat) (pc : BitVec 16) : Routine :=
  { r with pc := pc, count := r.count + cost, issueAt := max r.issueAt s.engCycle + cost }

/-- The instruction completes and the next one follows (R177). -/
def finish (e : Fin 17) (r : Routine) (cost : Nat) (s : State) : State := s.putTop e (r.spend s cost (r.pc + 1))

/-- A taken branch (R178, R181). -/
def jump (e : Fin 17) (r : Routine) (target : BitVec 16) (s : State) : State := s.putTop e (r.spend s 4 target)

/-- Stage an effect; a 33rd entry aborts the routine (R159). -/
def stageThen (e : Fin 17) (r : Routine) (cost : Nat) (x : Effect) (s : State) : State :=
  if 32 ≤ r.stage.length then abortTop e 2 s else finish e { r with stage := r.stage ++ [x] } cost s

/-- An illegal instruction (R176). -/
def illegal (e : Fin 17) (s : State) : State := abortTop e 3 s

/-- Replace a general register (R169). -/
def Routine.setV (r : Routine) (d : Fin 16) (x : Dword) : Routine := { r with v := r.v.set d x }

/-- Bits of a function field. -/
def bits (w : BitVec 12) (hi lo : Nat) : Nat := w.toNat / 2 ^ lo % 2 ^ (hi - lo + 1)

/-- Bits of a 64-bit operand. -/
def dbits (w : Dword) (hi lo : Nat) : Nat := w.toNat / 2 ^ lo % 2 ^ (hi - lo + 1)

/-! ### ALU forms (R179) -/

/-- An ALU instruction that writes D. -/
def aluTo (op : AluOp) (e : Fin 17) (d a : Fin 16) (b : Routine → Dword) (s : State) : State :=
  runOn e (fun r s =>
    let x := alu op r.v[a] (b r) r.v[d]
    finish e ({ r with flags := aluFlags op r.flags x }.setV d x.1) op.cost s) s

/-- A compare or test: flags, no result. -/
def aluTest (op : AluOp) (e : Fin 17) (a : Fin 16) (b : Routine → Dword) (s : State) : State :=
  runOn e (fun r s => finish e { r with flags := aluFlags op r.flags (alu op r.v[a] (b r) 0) } op.cost s) s

/-- A move: no flags. -/
def moveTo' (e : Fin 17) (d : Fin 16) (x : Routine → Dword) (s : State) : State :=
  runOn e (fun r s => finish e (r.setV d (x r)) 1 s) s

/-- The srcB operand. -/
def opB (b : Fin 16) (r : Routine) : Dword := r.v[b]
/-- A sign-extended immediate. -/
def opS (imm : BitVec 16) (_ : Routine) : Dword := imm.signExtend 64
/-- A zero-extended immediate. -/
def opZ (imm : BitVec 16) (_ : Routine) : Dword := imm.setWidth 64
/-- The function field as an operand (ext and ins). -/
def opF (func : BitVec 12) (_ : Routine) : Dword := func.setWidth 64

/-- A conditional branch (R181). -/
def branchIf (c : Cond) (e : Fin 17) (off : BitVec 24) (s : State) : State :=
  runOn e (fun r s => if c.holds r.flags then jump e r (r.pc + off.setWidth 16) s else finish e r 1 s) s

/-! ### Vault access from a routine (R160, R183–R187) -/

/-- The address of a Vault instruction, if it lies in the Vault and is aligned to `size` (R183). -/
def vaultAddr (base disp : Dword) (size : Nat) : Option Nat :=
  let a := (base + disp).toNat
  if a < vaultSize ∧ a % size = 0 then some a else none

/-- Each byte from the youngest staged plain store that covers it, else as given (R160). -/
def forwardStores (stage : List Effect) (a : Nat) (bs : List Byte) : List Byte :=
  (List.range bs.length).map fun k =>
    stage.foldl (fun b x => match x with
      | .store a' bs' => if a' ≤ a + k ∧ a + k < a' + bs'.length then bs'.getD (a + k - a') b else b
      | _ => b) (bs.getD k 0)

/-- An immediate access issues: the engine waits for its first slot (R185, R258); `pc` follows the instruction. -/
def issueAccess (e : Fin 17) (r : Routine) (a n : Nat) (atomic : Option (Bool × Dword)) (into : LoadTo) (cost : Nat) (pc : BitVec 16)
    (s : State) : State :=
  s.putTop e { r with issueAt := max r.issueAt s.engCycle,
                      acc := some { addr := a, size := n, atomic := atomic, got := [], into := into, cost := cost, pc := pc, time := s.now } }

/-- A load of `n` bytes into D, or into `n ÷ 8` registers from `v8` (R184). -/
def loadTo (e : Fin 17) (into : LoadTo) (a : Fin 16) (imm : BitVec 16) (n cost : Nat) (s : State) : State :=
  runOn e (fun r s =>
    match vaultAddr r.v[a] (imm.signExtend 64) n with
    | none => illegal e s
    | some x => issueAccess e r x n none into cost (r.pc + 1) s) s

/-- A staged store of `n` bytes (R184, R185): from the dst register, or from v8 on. -/
def storeFrom (e : Fin 17) (src : Option (Fin 16)) (a : Fin 16) (imm : BitVec 16) (n : Nat) (s : State) : State :=
  runOn e (fun r s =>
    match vaultAddr r.v[a] (imm.signExtend 64) n with
    | none => illegal e s
    | some x =>
      let bs := match src with
        | some d => leBytes n r.v[d].toNat
        | none => ((List.range (n / 8)).map fun k => leBytes 8 (r.v[(Fin.ofNat 16 (8 + k))]).toNat).flatten
      stageThen e r 1 (.store x bs) s) s

/-- A fetch-and-op atomic, applied at the bank in its slot (R186). -/
def fetchOp (swap : Bool) (e : Fin 17) (d a b : Fin 16) (func : BitVec 12) (s : State) : State :=
  runOn e (fun r s =>
    match vaultAddr r.v[a] (func.signExtend 64) 8 with
    | none => illegal e s
    | some x => issueAccess e r x 8 (some (swap, r.v[b])) (.reg d) 8 (r.pc + 1) s) s

/-- Doubleword `k` of loaded bytes. -/
def loadWord (bs : List Byte) (k : Nat) : Dword := BitVec.ofNat 64 (leValue ((bs.drop (8 * k)).take 8))

/-- The registers after the bytes of an access have come (R184). -/
def Routine.take (r : Routine) (into : LoadTo) (bs : List Byte) : Routine :=
  match into with
  | .reg d => r.setV d (loadWord bs 0)
  | .line => (List.range (bs.length / 8)).foldl (fun r k => r.setV (Fin.ofNat 16 (8 + k)) (loadWord bs k)) r
  | .vd => r

/-- A posted atomic (R186). -/
def postedOp (swap : Bool) (e : Fin 17) (a b : Fin 16) (func : BitVec 12) (s : State) : State :=
  runOn e (fun r s =>
    match vaultAddr r.v[a] (func.signExtend 64) 8 with
    | none => illegal e s
    | some x => stageThen e r 1 (.atomic x swap r.v[b]) s) s

/-! ### Operands of the I/O instructions (R198, R199, R209) -/

/-- The facet an instruction addresses; the bound form needs bind_valid (R198). -/
def facetOf (r : Routine) : FacetSel → Option (Fin 256)
  | .reg b => some (Fin.ofNat 256 r.v[b].toNat)
  | .bound => if r.ctx.bind.getLsbD 8 then some (Fin.ofNat 256 r.ctx.bind.toNat) else none

/-- A facet instruction. -/
def onFacet (e : Fin 17) (fs : FacetSel) (f : Fin 256 → Routine → State → State) (s : State) : State :=
  runOn e (fun r s => match facetOf r fs with | none => illegal e s | some n => f n r s) s

/-- The domain of an angle instruction (R199). -/
def domainOf (r : Routine) (func : BitVec 12) : Fin 8 :=
  if func.getLsbD 11 then Fin.ofNat 8 (bits func 10 8) else Fin.ofNat 8 r.ctx.adom.toNat

/-- The entry number of a draft instruction (R209). -/
def entryOf (func : BitVec 12) (base : Nat) : Fin 256 := Fin.ofNat 256 (bits func 7 0 + base)

/-- The entry an armed-queue instruction places (R202). -/
def armSpec (time : Option Time) (func : BitVec 12) : ArmSpec :=
  { time := time, act := BitVec.ofNat 2 (bits func 1 0), drop := func.getLsbD 2, tag := BitVec.ofNat 8 (bits func 11 4),
    notify := func.getLsbD 3, origin := none }

/-- Mark the entry at a position as read for removal: one more than the highest position read (R205). -/
def markRead (q : CapQueue) (pos : Nat) (l : List (CapQueue × Nat)) : List (CapQueue × Nat) :=
  match l with
  | [] => [(q, pos + 1)]
  | (p, n) :: r => if p = q then (p, max n (pos + 1)) :: r else (p, n) :: markRead q pos r

/-- An immediate read that sets only Q. -/
def readQ (e : Fin 17) (d : Fin 16) (x : Dword) (q : Bool) (cost : Nat) (r : Routine) (s : State) : State :=
  finish e ({ r with flags := setFlag r.flags flagQ q }.setV d x) cost s

end Sys2Proof.Machine
end

