-- ==== Sys2Proof/Machine/IsaCore.lean ====
section
/-!
DEFINITION. The core channel instructions (spec/07): ALU and moves, branches, Vault access, routine endings, posts, triggers and special
registers.
-/
namespace Sys2Proof.Machine
open Sys2Proof

/-! ### Illegal instructions (R176) -/

/-- ILLEGAL_INSTRUCTION: a reserved opcode or encoding issues. -/
def execIllegalInstruction (e : Fin 17) (s : State) : Result := .next (runOn e (fun _ s => illegal e s) s)

/-! ### ALU and move (R179, R180) -/

/-- NOP. -/
def execNop (e : Fin 17) (s : State) : Result := .next (runOn e (fun r s => finish e r 1 s) s)
/-- MOV. -/
def execMov (e : Fin 17) (d a : Fin 16) (s : State) : Result := .next (moveTo' e d (fun r => r.v[a]) s)
/-- ADD. -/
def execAdd (e : Fin 17) (d a b : Fin 16) (s : State) : Result := .next (aluTo .add e d a (opB b) s)
/-- SUB. -/
def execSub (e : Fin 17) (d a b : Fin 16) (s : State) : Result := .next (aluTo .sub e d a (opB b) s)
/-- AND. -/
def execAnd (e : Fin 17) (d a b : Fin 16) (s : State) : Result := .next (aluTo .and e d a (opB b) s)
/-- OR. -/
def execOr (e : Fin 17) (d a b : Fin 16) (s : State) : Result := .next (aluTo .or e d a (opB b) s)
/-- XOR. -/
def execXor (e : Fin 17) (d a b : Fin 16) (s : State) : Result := .next (aluTo .xor e d a (opB b) s)
/-- SHL. -/
def execShl (e : Fin 17) (d a b : Fin 16) (s : State) : Result := .next (aluTo .shl e d a (opB b) s)
/-- SHR. -/
def execShr (e : Fin 17) (d a b : Fin 16) (s : State) : Result := .next (aluTo .shr e d a (opB b) s)
/-- SAR. -/
def execSar (e : Fin 17) (d a b : Fin 16) (s : State) : Result := .next (aluTo .sar e d a (opB b) s)
/-- MUL. -/
def execMul (e : Fin 17) (d a b : Fin 16) (s : State) : Result := .next (aluTo .mul e d a (opB b) s)
/-- MULHU. -/
def execMulhu (e : Fin 17) (d a b : Fin 16) (s : State) : Result := .next (aluTo .mulhu e d a (opB b) s)
/-- MULSH. -/
def execMulsh (e : Fin 17) (d a b : Fin 16) (s : State) : Result := .next (aluTo .mulsh e d a (opB b) s)
/-- DIVU. -/
def execDivu (e : Fin 17) (d a b : Fin 16) (s : State) : Result := .next (aluTo .divu e d a (opB b) s)
/-- REMU. -/
def execRemu (e : Fin 17) (d a b : Fin 16) (s : State) : Result := .next (aluTo .remu e d a (opB b) s)
/-- MINU. -/
def execMinu (e : Fin 17) (d a b : Fin 16) (s : State) : Result := .next (aluTo .minu e d a (opB b) s)
/-- MAXU. -/
def execMaxu (e : Fin 17) (d a b : Fin 16) (s : State) : Result := .next (aluTo .maxu e d a (opB b) s)
/-- MINS. -/
def execMins (e : Fin 17) (d a b : Fin 16) (s : State) : Result := .next (aluTo .mins e d a (opB b) s)
/-- MAXS. -/
def execMaxs (e : Fin 17) (d a b : Fin 16) (s : State) : Result := .next (aluTo .maxs e d a (opB b) s)
/-- CMP. -/
def execCmp (e : Fin 17) (a b : Fin 16) (s : State) : Result := .next (aluTest .sub e a (opB b) s)
/-- TST. -/
def execTst (e : Fin 17) (a b : Fin 16) (s : State) : Result := .next (aluTest .and e a (opB b) s)
/-- EXT (R180). -/
def execExt (e : Fin 17) (d a : Fin 16) (func : BitVec 12) (s : State) : Result :=
  .next (aluTo .ext e d a (opF func) s)
/-- INS (R180). -/
def execIns (e : Fin 17) (d a : Fin 16) (func : BitVec 12) (s : State) : Result :=
  .next (aluTo .ins e d a (opF func) s)
/-- ADDI. -/
def execAddi (e : Fin 17) (d a : Fin 16) (imm : BitVec 16) (s : State) : Result :=
  .next (aluTo .add e d a (opS imm) s)
/-- ANDI. -/
def execAndi (e : Fin 17) (d a : Fin 16) (imm : BitVec 16) (s : State) : Result :=
  .next (aluTo .and e d a (opZ imm) s)
/-- ORI. -/
def execOri (e : Fin 17) (d a : Fin 16) (imm : BitVec 16) (s : State) : Result :=
  .next (aluTo .or e d a (opZ imm) s)
/-- XORI. -/
def execXori (e : Fin 17) (d a : Fin 16) (imm : BitVec 16) (s : State) : Result :=
  .next (aluTo .xor e d a (opZ imm) s)
/-- SHLI. -/
def execShli (e : Fin 17) (d a : Fin 16) (imm : BitVec 16) (s : State) : Result :=
  .next (aluTo .shl e d a (opZ imm) s)
/-- SHRI. -/
def execShri (e : Fin 17) (d a : Fin 16) (imm : BitVec 16) (s : State) : Result :=
  .next (aluTo .shr e d a (opZ imm) s)
/-- SARI. -/
def execSari (e : Fin 17) (d a : Fin 16) (imm : BitVec 16) (s : State) : Result :=
  .next (aluTo .sar e d a (opZ imm) s)
/-- MULI. -/
def execMuli (e : Fin 17) (d a : Fin 16) (imm : BitVec 16) (s : State) : Result :=
  .next (aluTo .mul e d a (opS imm) s)
/-- CMPI. -/
def execCmpi (e : Fin 17) (a : Fin 16) (imm : BitVec 16) (s : State) : Result := .next (aluTest .sub e a (opS imm) s)
/-- CMPUI. -/
def execCmpui (e : Fin 17) (a : Fin 16) (imm : BitVec 16) (s : State) : Result := .next (aluTest .sub e a (opZ imm) s)
/-- LDI. -/
def execLdi (e : Fin 17) (d : Fin 16) (imm : BitVec 16) (s : State) : Result := .next (moveTo' e d (opS imm) s)
/-- MOVK: lane k is bits 1:0 of the src field. -/
def execMovk (e : Fin 17) (d : Fin 16) (k : BitVec 4) (imm : BitVec 16) (s : State) : Result :=
  let lane := 16 * (k.toNat % 4)
  .next (moveTo' e d (fun r => (r.v[d] &&& ~~~((0xFFFF : Dword) <<< lane)) ||| (imm.setWidth 64 <<< lane)) s)

/-! ### Branch and control (R181, R182) -/

/-- B. -/
def execB (e : Fin 17) (off : BitVec 24) (s : State) : Result :=
  .next (runOn e (fun r s => jump e r (r.pc + off.setWidth 16) s) s)
/-- CALL: v15 takes the address after it. -/
def execCall (e : Fin 17) (off : BitVec 24) (s : State) : Result :=
  .next (runOn e (fun r s => jump e (r.setV 15 ((r.pc + 1).setWidth 64)) (r.pc + off.setWidth 16) s) s)
/-- JR. -/
def execJr (e : Fin 17) (a : Fin 16) (s : State) : Result :=
  .next (runOn e (fun r s => jump e r ((r.v[a]).setWidth 16) s) s)
/-- BEQ. -/
def execBeq (e : Fin 17) (off : BitVec 24) (s : State) : Result := .next (branchIf .eq e off s)
/-- BNE. -/
def execBne (e : Fin 17) (off : BitVec 24) (s : State) : Result := .next (branchIf .ne e off s)
/-- BLT. -/
def execBlt (e : Fin 17) (off : BitVec 24) (s : State) : Result := .next (branchIf .lt e off s)
/-- BGE. -/
def execBge (e : Fin 17) (off : BitVec 24) (s : State) : Result := .next (branchIf .ge e off s)
/-- BGT. -/
def execBgt (e : Fin 17) (off : BitVec 24) (s : State) : Result := .next (branchIf .gt e off s)
/-- BLE. -/
def execBle (e : Fin 17) (off : BitVec 24) (s : State) : Result := .next (branchIf .le e off s)
/-- BLO. -/
def execBlo (e : Fin 17) (off : BitVec 24) (s : State) : Result := .next (branchIf .lo e off s)
/-- BHS. -/
def execBhs (e : Fin 17) (off : BitVec 24) (s : State) : Result := .next (branchIf .hs e off s)
/-- BHI. -/
def execBhi (e : Fin 17) (off : BitVec 24) (s : State) : Result := .next (branchIf .hi e off s)
/-- BLS. -/
def execBls (e : Fin 17) (off : BitVec 24) (s : State) : Result := .next (branchIf .ls e off s)
/-- BMI. -/
def execBmi (e : Fin 17) (off : BitVec 24) (s : State) : Result := .next (branchIf .mi e off s)
/-- BPL. -/
def execBpl (e : Fin 17) (off : BitVec 24) (s : State) : Result := .next (branchIf .pl e off s)
/-- BVS. -/
def execBvs (e : Fin 17) (off : BitVec 24) (s : State) : Result := .next (branchIf .vs e off s)
/-- BVC. -/
def execBvc (e : Fin 17) (off : BitVec 24) (s : State) : Result := .next (branchIf .vc e off s)
/-- BLATE. -/
def execBlate (e : Fin 17) (off : BitVec 24) (s : State) : Result := .next (branchIf .late e off s)
/-- BNLATE. -/
def execBnlate (e : Fin 17) (off : BitVec 24) (s : State) : Result := .next (branchIf .nlate e off s)
/-- BQE. -/
def execBqe (e : Fin 17) (off : BitVec 24) (s : State) : Result := .next (branchIf .qe e off s)
/-- BNQE. -/
def execBnqe (e : Fin 17) (off : BitVec 24) (s : State) : Result := .next (branchIf .nqe e off s)

/-! ### Vault access (R183–R187) -/

/-- LDW. -/
def execLdw (e : Fin 17) (d a : Fin 16) (imm : BitVec 16) (s : State) : Result :=
  .next (loadTo e (.reg d) a imm 4 6 s)
/-- LDD. -/
def execLdd (e : Fin 17) (d a : Fin 16) (imm : BitVec 16) (s : State) : Result :=
  .next (loadTo e (.reg d) a imm 8 6 s)
/-- LDH: v8–v11. -/
def execLdh (e : Fin 17) (a : Fin 16) (imm : BitVec 16) (s : State) : Result :=
  .next (loadTo e .line a imm 32 7 s)
/-- LDL: v8–v15, two slots in ascending address order. -/
def execLdl (e : Fin 17) (a : Fin 16) (imm : BitVec 16) (s : State) : Result :=
  .next (loadTo e .line a imm 64 8 s)
/-- STW. -/
def execStw (e : Fin 17) (d a : Fin 16) (imm : BitVec 16) (s : State) : Result := .next (storeFrom e (some d) a imm 4 s)
/-- STD. -/
def execStd (e : Fin 17) (d a : Fin 16) (imm : BitVec 16) (s : State) : Result := .next (storeFrom e (some d) a imm 8 s)
/-- STH. -/
def execSth (e : Fin 17) (a : Fin 16) (imm : BitVec 16) (s : State) : Result := .next (storeFrom e none a imm 32 s)
/-- STL. -/
def execStl (e : Fin 17) (a : Fin 16) (imm : BitVec 16) (s : State) : Result := .next (storeFrom e none a imm 64 s)
/-- FADD. -/
def execFadd (e : Fin 17) (d a b : Fin 16) (func : BitVec 12) (s : State) : Result :=
  .next (fetchOp false e d a b func s)
/-- FSWP. -/
def execFswp (e : Fin 17) (d a b : Fin 16) (func : BitVec 12) (s : State) : Result :=
  .next (fetchOp true e d a b func s)
/-- PADD. -/
def execPadd (e : Fin 17) (a b : Fin 16) (func : BitVec 12) (s : State) : Result := .next (postedOp false e a b func s)
/-- PSWP. -/
def execPswp (e : Fin 17) (a b : Fin 16) (func : BitVec 12) (s : State) : Result := .next (postedOp true e a b func s)

/-! ### Ending a routine, posts and triggers (R161, R188–R193) -/

/-- END. -/
def execEndR (e : Fin 17) (imm : BitVec 16) (ctx : Ecc) (s : State) : Result :=
  .next (runOn e (fun r s => commitPoint e r { pc := imm, wake := none, sub := none, again := 0 } ctx s) s)
/-- WAIT (R189): bits 9:8 of func are reserved. -/
def execWait (e : Fin 17) (a : Fin 16) (func : BitVec 12) (ctx : Ecc) (s : State) : Result :=
  .next (runOn e (fun r s =>
    if bits func 9 8 ≠ 0 then illegal e s
    else
      commitPoint e r { pc := r.pc + 1, wake := if func.getLsbD 11 then some r.v[a] else none,
                        sub := some (if func.getLsbD 10 then some (BitVec.ofNat 8 (bits func 7 0)) else none), again := 0 } ctx s) s)
/-- YIELD (R191). -/
def execYieldR (e : Fin 17) (ctx : Ecc) (s : State) : Result :=
  .next (runOn e (fun r s => commitPoint e r { pc := r.pc + 1, wake := none, sub := none, again := r.cause } ctx s) s)
/-- POST (R192). -/
def execPost (e : Fin 17) (a : Fin 16) (func : BitVec 12) (s : State) : Result :=
  .next (runOn e (fun r s =>
    stageThen e r 1 (.post (chanOf (if func.getLsbD 11 then bits func 8 0 else dbits r.v[a] 8 0))) s) s)
/-- TRIG (R193). -/
def execTrig (e : Fin 17) (func : BitVec 12) (s : State) : Result :=
  .next (runOn e (fun r s => stageThen e r 1 (.trig (BitVec.ofNat 5 (bits func 4 0))) s) s)

/-! ### Special registers (R171, R172) -/

/-- The value of a special register, if the number is assigned. -/
def specialRead (r : Routine) (n : Nat) (s : State) : Option Dword :=
  match n with
  | 0 => some (r.cause.setWidth 64)
  | 1 => some s.now
  | 2 => some (r.ctx.bind.setWidth 64)
  | 3 => some (BitVec.ofNat 64 (r.budget - r.count))
  | 4 => some (BitVec.ofNat 64 (s.get SLO_STAT.node_id * 512 + r.ch.val))
  | 5 => some (BitVec.ofNat 64 r.ctx.persona.toNat)
  | 6 => some (r.ctx.adom.setWidth 64)
  | _ => none

/-- MFS. -/
def execMfs (e : Fin 17) (d : Fin 16) (func : BitVec 12) (s : State) : Result :=
  .next (runOn e (fun r s =>
    match specialRead r func.toNat s with
    | none => illegal e s
    | some x => finish e (r.setV d x) (if func = 1 then 2 else 1) s) s)

/-- The context an MTS writes back (R172), if the number may be written. -/
def specialWrite (x : Context) (n : Nat) (v : Dword) : Option Context :=
  match n with
  | 2 => some { x with bind := v.setWidth 9 }
  | 3 => some { x with budget := v.setWidth 11 }
  | 5 => some { x with persona := v.getLsbD 0 }
  | 6 => some { x with adom := v.setWidth 3 }
  | _ => none

/-- MTS. -/
def execMts (e : Fin 17) (a : Fin 16) (func : BitVec 12) (s : State) : Result :=
  .next (runOn e (fun r s =>
    match specialWrite r.wb func.toNat r.v[a] with
    | none => illegal e s
    | some x => finish e { r with wb := x } 1 s) s)

end Sys2Proof.Machine
end

