-- ==== Sys2Proof/Machine/Mint.lean ====
section
/-!
DEFINITION. Microcode and the Mint (spec/09): the micro-engine that runs a customer opcode under the Mint contract, parity repair, loading and
protection of the control stores.
-/
namespace Sys2Proof.Machine
open Sys2Proof

/-! ### Control stores (R227–R230) -/

def Mint.uword (m : Mint) (u : BitVec 13) : BitVec 24 := Sparse.get (fun _ => 0) m.micro u.toNat
def Mint.nword (m : Mint) (n : BitVec 11) : BitVec 128 := Sparse.get (fun _ => 0) m.nano n.toNat
def Mint.uput (m : Mint) (u : BitVec 13) (w : BitVec 24) : Mint := { m with micro := Sparse.put (fun _ => 0) m.micro u.toNat w }
def Mint.nput (m : Mint) (n : BitVec 11) (w : BitVec 128) : Mint := { m with nano := Sparse.put (fun _ => 0) m.nano n.toNat w }

def State.modMnt (s : State) (f : Mint → Mint) : State := { s with mnt := f s.mnt }

/-- A micro address in the Mint (R227). -/
def inMint (u : Nat) : Bool := decide (0x1800 ≤ u) && decide (u ≤ 0x1FFF)

/-- A field of a nano-word (R232). -/
def nf (w : BitVec 128) (hi lo : Nat) : Nat := w.toNat / 2 ^ lo % 2 ^ (hi - lo + 1)

/-! ### The micro-engine -/

/-- What one micro-word comes to: the instruction ends (R238), with cycles that its end adds; a Mint fault with its cause (R246); or the
micro-state in which the next word begins. The routine is the one after the word, with its count not yet charged. -/
inductive MicroEnd where
  | done (r : Routine) (extra : Nat)
  | mintFault (cause : Nat)
  | next (r : Routine) (m : Micro)

/-- The register an instruction field names (R174). -/
def regField (w : Word) (lo : Nat) : Fin 16 := Fin.ofNat 16 (w.toNat / 2 ^ lo)

/-- Value of an operand source (R233); `now` is the GTB of the cycle in which the word issues. -/
def source (r : Routine) (m : Micro) (n : BitVec 128) (now : Time) (sel tsel : Nat) (s : State) : Dword :=
  let k32 := BitVec.ofNat 32 (nf n 31 0)
  let imm16 : BitVec 16 := m.w.setWidth 16
  let imm12 : BitVec 12 := m.w.setWidth 12
  if sel < 16 then r.v[(Fin.ofNat 16 sel)]
  else match sel with
    | 16 => r.v[(regField m.w 20)]
    | 17 => r.v[(regField m.w 16)]
    | 18 => r.v[(regField m.w 12)]
    | 19 => m.t[(Fin.ofNat 8 tsel)]
    | 20 => k32.setWidth 64
    | 21 => k32.signExtend 64
    | 22 => imm16.signExtend 64
    | 23 => imm16.setWidth 64
    | 24 => imm12.signExtend 64
    | 25 => imm12.setWidth 64
    | 26 => m.vd
    | 27 => if nf n 66 64 = 1 then now else (specialRead r (nf n 66 64) s).getD 0
    | 29 => r.flags.setWidth 64
    | 30 => m.w.setWidth 64
    | _ => 0

/-- ALU operation of a nano-word (R234). -/
def nanoAlu : Nat → AluOp
  | 0 => .pass | 1 => .add | 2 => .sub | 3 => .and | 4 => .or | 5 => .xor | 6 => .shl | 7 => .shr | 8 => .sar | 9 => .mul
  | 10 => .mulhu | 11 => .mulsh | 12 => .minu | 13 => .maxu | 14 => .mins | 15 => .maxs | 16 => .ext | _ => .ins

/-- The target of a micro-word (R230). -/
def target (u : BitVec 13) (w : BitVec 24) (n : BitVec 128) : Nat :=
  (if nf n 60 60 = 1 then nf n 59 57 else u.toNat / 1024) * 1024 + w.toNat % 1024

/-- The cause with which a word breaks the Mint contract by what it holds (R245, R246), or none. -/
def contractCause (u : BitVec 13) (w : BitVec 24) (n : BitVec 128) : Option Nat :=
  let seq := w.toNat / 1024 % 8
  let a := nf n 127 123
  let b := nf n 119 115
  let x := nf n 111 107
  let op := nf n 103 99
  let d := nf n 95 93
  let vop := nf n 73 71
  let sop := nf n 70 67
  let spr := nf n 66 64
  if seq = 7 then some 2
  else if (seq = 1 ∨ seq = 2 ∨ seq = 4 ∨ seq = 5) ∧ inMint (target u w n) = false then some 1
  else if nf n 56 32 ≠ 0 then some 3
  else if a = 31 ∨ b = 31 ∨ x = 31 ∨ 18 ≤ op ∨ 6 ≤ d ∨ 13 ≤ nf n 79 76 ∨ vop = 7 ∨ 10 ≤ sop ∨ (vop ≠ 0 ∧ sop ≠ 0) ∨
      (9 ≤ op ∧ op ≤ 11 ∧ nf n 98 97 ≠ 2) ∨ (d = 4 ∧ nf n 85 80 ≠ 0) ∨ nf n 96 96 = 1 ∨ spr = 7 then some 4
  else if d = 5 ∧ (spr = 0 ∨ spr = 1 ∨ spr = 4) then some 6
  else none

/-- The word reads a source. -/
def nanoReads (n : BitVec 128) (sel : Nat) : Bool := nf n 127 123 == sel || nf n 119 115 == sel || nf n 111 107 == sel

/-- The flags a word writes (R235). -/
def nanoFlags (flg : Nat) (f : BitVec 6) (res : Dword × Bool × Bool) : BitVec 6 :=
  let put (k : Nat) (b : Bool) (f : BitVec 6) : BitVec 6 := if flg / 2 ^ k % 2 = 1 then setFlag f k b else f
  put flagQ (res.1.getLsbD 1) (put flagL (res.1.getLsbD 0) (put flagV res.2.2 (put flagC res.2.1
    (put flagN res.1.msb (put flagZ (res.1 == 0) f)))))

/-- A condition (R236), after the word's writes. -/
def nanoCond (c : Nat) (r : Routine) (m : Micro) (res a b : Dword) : Bool :=
  match c with
  | 6 => res == 0
  | 7 => res.msb
  | 8 => res.getLsbD 0
  | 9 => m.lc != 0
  | 10 => decide (a < b)
  | 11 => decide (a.toInt < b.toInt)
  | 12 => true
  | k => r.flags.getLsbD k

/-- Size of a Vault operation (R237). -/
def nanoSize : Nat → Nat
  | 1 => 4 | 3 => 32 | 4 => 64 | _ => 8

/-- What a word computes (R233, R234): its operands and its result. -/
structure WordVals where
  a : Dword
  b : Dword
  x : Dword
  res : Dword × Bool × Bool

def wordVals (r : Routine) (m : Micro) (n : BitVec 128) (now : Time) (s : State) : WordVals :=
  let src (hi tlo : Nat) : Dword := source r m n now (nf n hi (hi - 4)) (nf n (tlo + 2) tlo) s
  let a := src 127 120
  let b := src 119 112
  let x := src 111 104
  ⟨a, b, x, alu (nanoAlu (nf n 103 99)) a b x⟩

/-- The writes of a word other than its Vault operation to the engine's copy of the context: result and flags (R232, R235). -/
def nanoRoutine (n : BitVec 128) (w : Word) (res : Dword × Bool × Bool) (r : Routine) : Routine :=
  let r := { r with flags := nanoFlags (nf n 85 80) r.flags res }
  match nf n 95 93 with
  | 1 => r.setV (regField w 20) res.1
  | 2 => r.setV (Fin.ofNat 16 (nf n 92 89)) res.1
  | 4 => { r with flags := res.1.setWidth 6 }
  | 5 => { r with wb := (specialWrite r.wb (nf n 66 64) res.1).getD r.wb }
  | _ => r

/-- The writes of a word to the micro-state: a temporary and the loop counter (R232, R235). -/
def nanoMicro (n : BitVec 128) (lit : Nat) (res : Dword) (m : Micro) : Micro :=
  { m with
    t := if nf n 95 93 = 3 then m.t.set (Fin.ofNat 8 (nf n 88 86)) res else m.t
    lc := match nf n 75 74 with
      | 1 => BitVec.ofNat 8 lit
      | 2 => if m.lc = 0 then 0 else m.lc - 1
      | 3 => res.setWidth 8
      | _ => m.lc }

/-- The staged effect of a word, by its sop (R237). -/
def nanoStage (sop : Nat) (r : Routine) (v : WordVals) (s : State) : Option Effect :=
  let a := v.res.1.toNat
  let line (k : Nat) : List Byte := ((List.range k).map fun i => leBytes 8 (r.v[(Fin.ofNat 16 (8 + i))]).toNat).flatten
  match sop with
  | 1 => some (.store a (leBytes 4 v.x.toNat))
  | 2 => some (.store a (leBytes 8 v.x.toNat))
  | 3 => some (.store a (line 4))
  | 4 => some (.store a (line 8))
  | 5 => some (.atomic a false v.x)
  | 6 => some (.atomic a true v.x)
  | 7 => some (.post (chanOf (dbits v.x 8 0)))
  | 8 => some (.trig (BitVec.ofNat 5 (dbits v.x 4 0)))
  | 9 => some (.note (Fin.ofNat 16 (dbits v.res.1 3 0)) (BitVec.ofNat 8 (dbits v.res.1 11 4)) s.now v.x v.b)
  | _ => none

/-- Where the sequencing of a word leads, with the stack after it; none on overflow or underflow (R229, R240). -/
def nanoSeq (u : BitVec 13) (w : BitVec 24) (n : BitVec 128) (cond : Bool) (stack : List (BitVec 13)) :
    Option (Nat × List (BitVec 13)) :=
  let on := u.toNat + 1
  let tgt := target u w n
  match w.toNat / 1024 % 8 with
  | 1 => some (tgt, stack)
  | 2 => if stack.length < 4 then some (tgt, BitVec.ofNat 13 on :: stack) else none
  | 3 => match stack with | [] => none | t :: r => some (t.toNat, r)
  | 4 => some (if cond then tgt else on, stack)
  | 5 => some (if cond then on else tgt, stack)
  | _ => some (on, stack)

/-- What follows a word whose writes are done: its pc change, the end of the instruction (R238), or the next word. -/
def nanoNext (w : BitVec 24) (n : BitVec 128) (v : WordVals) (r : Routine) (m : Micro) : MicroEnd :=
  let cond := nanoCond (nf n 79 76) r m v.res.1 v.a v.b
  let rel : BitVec 16 := r.pc + v.res.1.setWidth 16
  let m := { m with pend := match nf n 63 62 with
    | 1 => some rel
    | 2 => some (v.res.1.setWidth 16)
    | 3 => if cond then some rel else m.pend
    | _ => m.pend }
  if w.toNat / 1024 % 8 = 6 then
    match m.pend with
    | some p => .done { r with pc := p, micro := none } 3
    | none => .done { r with pc := r.pc + 1, micro := none } 0
  else
    match nanoSeq m.u w n cond m.stack with
    | none => .mintFault 5
    | some (t, st) => if inMint t then .next r { m with u := BitVec.ofNat 13 t, stack := st } else .mintFault 1

/-- The micro-word and the nano-word at a micro address. -/
def Mint.wordAt (x : Mint) (u : BitVec 13) : BitVec 24 × BitVec 128 :=
  let w := x.uword u
  (w, x.nword (BitVec.ofNat 11 (w.toNat / 2 ^ 13)))

/-- Engine cycles of a word beside its waits (R231): 1 + stall, and one more for a read of NOW (R233). -/
def wordCost (n : BitVec 128) : Nat := 1 + nf n 98 97 + (if nanoReads n 27 && nf n 66 64 == 1 then 1 else 0)

/-- The writes of a word, its staged effect and what follows it. -/
def wordEnd (r : Routine) (m : Micro) (now : Time) (s : State) : MicroEnd :=
  let (w, n) := s.mnt.wordAt m.u
  let v := wordVals r m n now s
  let staged := nanoStage (nf n 70 67) r v s
  let r := nanoRoutine n m.w v.res { r with stage := r.stage ++ staged.toList }
  nanoNext w n v r (nanoMicro n w.toNat v.res.1 m)

/-- A Mint fault (R246): the routine is aborted with code 3, and the first fault is recorded. -/
def mintFault (e : Fin 17) (cause : Nat) (u : BitVec 13) (s : State) : State :=
  let s := abortTop e 3 s
  let s := if s.flag MNT_FAULT.valid then s
    else (s.wr MNT_FAULT (BitVec.ofNat 32 (e.val * 2 ^ 24 + cause * 2 ^ 16 + u.toNat))).raise MNT_FAULT.valid
  (s.raise MNT_STAT.mint_fault).fault .mintFault

/-- What a word has come to takes effect on engine `e`, after `cost` engine cycles; `u` is the word's address. -/
def microDone (e : Fin 17) (u : BitVec 13) (cost : Nat) (x : MicroEnd) (s : State) : State :=
  match x with
  | .done r more => s.putTop e (r.spend s (cost + more) r.pc)
  | .next r m => s.putTop e { r.spend s cost r.pc with micro := some m }
  | .mintFault c => mintFault e c u s

/-- The engine cycle from which the next word finds what it reads: one that reads VD waits until its data are valid (R231). -/
def State.vdReady (s : State) (m : Micro) : Nat := if nanoReads (s.mnt.wordAt m.u).2 26 then m.vdAt else 0

/-- One micro-word issues (R231–R238). A word that reads VD waits until its data are valid, which its budget counts. A word with a Vault
operation waits for its slot, and its other writes come with the grant. -/
def microWord (e : Fin 17) (r : Routine) (m : Micro) (s : State) : State :=
  let (w, n) := s.mnt.wordAt m.u
  match (contractCause m.u w n).or (if (nanoSeq m.u w n false m.stack).isNone then some 5 else none) with
  | some c => mintFault e c m.u s
  | none =>
    let wait := s.vdReady m - max r.issueAt s.engCycle
    let r := { r with count := r.count + (s.vdReady m - r.issueAt - wait) }
    let v := wordVals r m n s.now s
    let vop := nf n 73 71
    let sop := nf n 70 67
    let needs := vop != 0 || (1 ≤ sop && sop ≤ 6)
    let size := nanoSize (if vop = 0 then sop else vop)
    if r.budget < r.count + wait then s.putTop e { r with micro := some m }
    else if needs && (decide (vaultSize ≤ v.res.1.toNat) || v.res.1.toNat % size != 0) then mintFault e 7 m.u s
    else if 32 ≤ r.stage.length ∧ sop ≠ 0 then abortTop e 2 s
    else if vop = 0 then microDone e m.u (wait + wordCost n) (wordEnd r m s.now s) s
    else
      issueAccess e { r with micro := some m } v.res.1.toNat size (if 5 ≤ vop then some (vop == 6, v.x) else none)
        (if 32 ≤ size then .line else .vd) (wait + wordCost n) r.pc s

/-- MINT_INSTRUCTION (R239, R245): with no Mint instruction in progress, word `w` issues, and the first word of its micro-routine is
executed; else the next word of the one in progress. The temporaries, lc and VD begin undefined. -/
def mintInstruction (e : Fin 17) (w : Word) (s : State) : State :=
  match s.routine e with
  | none => s
  | some r =>
    if r.budget < r.count ∨ r.acc.isSome then s
    else
      match r.micro with
      | some m => microWord e r m s
      | none =>
        let s := begins r s
        let op := w.toNat / 2 ^ 24
        if op < 0xE0 ∨ s.flag (MNT_DISP.valid op) = false then illegal e s
        else
          let (l, s) := freeWords 9 s
          let (lc, s) := s.fresh 8
          microWord e r
            { w := w, u := BitVec.ofNat 13 (s.get (MNT_DISP.uaddr op)), t := Vector.ofFn fun k : Fin 8 => l.getD k 0, lc := lc,
              vd := l.getD 8 0, vdAt := 0, stack := [], pend := none } s
def execMintInstruction (e : Fin 17) (w : Word) (s : State) : Result := .next (mintInstruction e w s)

/-! ### Grants of an engine's accesses (R185–R187, R237, R258) -/

/-- An access has all its bytes: the instruction or word completes, after its cost and the whole engine cycles from the one after its issue
up to that of its last grant (R178, R258). -/
def accessDone (e : Fin 17) (r : Routine) (x : Access) (bs : List Byte) (s : State) : State :=
  s.putTop e { r.take x.into bs with pc := x.pc, count := r.count + x.cost + (s.engCycle - r.issueAt),
                                     issueAt := max r.issueAt s.engCycle + x.cost, acc := none }

/-- The first slot of a Mint word's access is granted: the word's other writes take effect, and `vd` is valid in VD from the fifth cycle
after the grant (R237). The access goes on as the word ends. -/
def wordGrant (r : Routine) (m : Micro) (x : Access) (vd : Dword) (s : State) : Except Nat (Routine × Access) :=
  match wordEnd r m x.time s with
  | .next r m => .ok ({ r with micro := some { m with vd := vd, vdAt := s.engCycle + 5 } }, { x with pc := r.pc })
  | .done r k => .ok (r, { x with pc := r.pc, cost := x.cost + k })
  | .mintFault c => .error c

/-- The next line of the access, or its atomic, has brought `bs`. -/
def accessBytes (e : Fin 17) (r : Routine) (x : Access) (bs : List Byte) (s : State) : State :=
  let got := x.got ++ bs
  let seen := if x.atomic.isSome then got else forwardStores r.stage x.addr got
  let close (r : Routine) (x : Access) : State :=
    if x.size ≤ got.length then accessDone e r x seen s else s.putTop e { r with acc := some { x with got := got } }
  match r.micro, x.got with
  | some m, [] =>
    match wordGrant r m x (loadWord seen 0) s with
    | .ok (r, x) => close r x
    | .error c => mintFault e c m.u s
  | _, _ => close r x

/-- The slot of engine `e` is granted: the next line of its access is read, or its atomic applied (R185, R186). A poisoned word aborts the
routine with code 5 (R265). -/
def accessGrant (e : Fin 17) (ecc : LineEcc) (s : State) : State :=
  match s.routine e with
  | none => s
  | some r =>
    match r.acc with
    | none => s
    | some x =>
      match x.atomic with
      | some (swap, v) =>
        match bankAtomic 0 (x.addr / 8) swap v ecc (countSlot 0 s) with
        | (none, s) => abortTop e 5 s
        | (some old, s) => accessBytes e r x (leBytes 8 old.toNat) s
      | none =>
        let p := x.addr + x.got.length
        match bankRead 0 p (min (x.size - x.got.length) (32 - p % 32)) ecc s with
        | (_, true, s) => abortTop e 5 s
        | (bs, false, s) => accessBytes e r x bs s

/-! ### The trap save area -/

/-- A word of MNT_TSAVE. -/
def State.tsaveWord (s : State) (e : Fin 17) (j : Fin 32) : Word :=
  if s.engRole e ≠ 2 ∨ s.flag MNT_CTRL.hide then 0
  else
    let x := (s.mnt.tsave[e])[j.val / 2]'(by omega)
    if j.val % 2 = 0 then loWord x else hiWord x

/-! ### Loading and protection (R249–R251) -/

/-- A write of a control store is ignored. -/
def loadIgnored (s : State) : State := s.raise MNT_STAT.load_ignored

/-- The host may not write the Mint at all: locked, or OTP sign_req (R249, R414). -/
def State.mintShut (s : State) : Bool := s.flag MNT_CTRL.lock || s.signReq

def State.naddr (s : State) : BitVec 11 := BitVec.ofNat 11 (s.get MNT_NADDR.index)
def State.uaddr (s : State) : BitVec 13 := BitVec.ofNat 13 (s.get MNT_UADDR.index)

/-- A nano-word as it reads: the vendor area and a hidden Mint read 0. -/
def State.nanoRead (s : State) (n : BitVec 11) : BitVec 128 :=
  if n.toNat < 0x600 ∨ s.flag MNT_CTRL.hide then 0 else s.mnt.nword n

/-- NANO_ADDR_WRITE, and every advance: latch the addressed word. -/
def nanoAddr (v : Nat) (s : State) : State :=
  let s := s.set MNT_NADDR.index v
  s.modMnt fun m => { m with ndata := s.nanoRead s.naddr }
def execNanoAddrWrite (v : Word) (s : State) : Result := .next (nanoAddr v.toNat s)

/-- A write of MNT_NDATA0–2 is held. -/
def nanoHold (k : Fin 3) (v : Word) (s : State) : State := s.modMnt fun m => { m with nhold := m.nhold.set k v }

/-- NANO_WORD_LOAD: a write of MNT_NDATA3. -/
def nanoLoad (v : Word) (s : State) : State :=
  let n := s.naddr
  let h := s.mnt.nhold
  let s :=
    if n.toNat < 0x600 || s.mintShut || Sparse.get (fun _ => false) s.mnt.encNano n.toNat then loadIgnored s
    else s.modMnt fun m => m.nput n (v ++ h[2] ++ h[1] ++ h[0])
  nanoAddr (n.toNat + 1) s
def execNanoWordLoad (v : Word) (s : State) : Result := .next (nanoLoad v s)

/-- A word of MNT_NDATA as it reads. -/
def State.ndataRead (s : State) (k : Nat) : Word :=
  if s.flag MNT_CTRL.hide then 0 else (s.mnt.ndata >>> (32 * k)).setWidth 32

/-- MICRO_WORD_ACCESS: a read or write of MNT_UDATA at MNT_UADDR, which then advances. -/
def microAccess (w : Option Word) (s : State) : State :=
  let u := s.uaddr
  let s := match w with
    | none => { s with read := [if u.toNat < 0x1800 ∨ s.flag MNT_CTRL.hide then 0 else (s.mnt.uword u).setWidth 32] }
    | some v =>
      if u.toNat < 0x1800 || s.mintShut || Sparse.get (fun _ => false) s.mnt.encMicro u.toNat then loadIgnored s
      else s.modMnt fun m => m.uput u (v.setWidth 24)
  s.set MNT_UADDR.index (u.toNat + 1)
def execMicroWordAccess (w : Option Word) (s : State) : Result := .next (microAccess w s)

/-- DISPATCH_ENTRY_WRITE (R250): vendor entries are read-only. -/
def dispWrite (k : Fin 256) (v : Word) (s : State) : State :=
  if k.val < 0xE0 ∨ s.flag MNT_CTRL.lock then s
  else if s.signReq then loadIgnored s
  else if fieldOf v (MNT_DISP.valid k) = 1 ∧ inMint (fieldOf v (MNT_DISP.uaddr k)) = false then s.raise MNT_STAT.disp_reject
  else s.plainWrite (MNT_DISP k) v
def execDispatchEntryWrite (k : Fin 256) (v : Word) (s : State) : Result := .next (dispWrite k v s)

/-- MINT_LOCK (R251). -/
def mintLock (s : State) : State := (s.raise MNT_CTRL.lock).raise MNT_STAT.locked
def execMintLock (s : State) : Result := .next (mintLock s)
/-- MINT_HIDE (R251). -/
def mintHide (s : State) : State := (s.raise MNT_CTRL.hide).raise MNT_STAT.hidden
def execMintHide (s : State) : Result := .next (mintHide s)

/-- A write of MNT_CTRL. -/
def mntCtrlWrite (v : Word) (s : State) : State :=
  let s := if fieldOf v MNT_CTRL.lock = 1 then mintLock s else s
  if fieldOf v MNT_CTRL.hide = 1 then mintHide s else s

end Sys2Proof.Machine
end

