-- ==== Sys2Proof/Machine/Assayer.lean ====
section
/-!
DEFINITION. The Assayer's mailbox, images, OTP and debug access (spec/17, R397–R399, R407–R417), and its start (R408, R436).
-/
namespace Sys2Proof.Machine
open Sys2Proof

/-! ### OTP (R412–R414) -/

def State.otp (s : State) (a : Nat) : Byte := Sparse.get zeroByte s.asy.otp a
def State.otpBytes (s : State) (a n : Nat) : List Byte := (List.range n).map fun k => s.otp (a + k)

/-- Program OTP bytes: a blown bit stays blown. -/
def otpBlow (a : Nat) : List Byte → State → State
  | [], s => s
  | b :: r, s => otpBlow (a + 1) r (s.modAsy fun x => { x with otp := Sparse.put zeroByte x.otp a (Sparse.get zeroByte x.otp a ||| b) })

/-- Configuration bits 31:0 (R414). -/
def State.otpCfg (s : State) : Word := BitVec.ofNat 32 (leValue (s.otpBytes 0xE0 4))
def State.otpBit (s : State) (b : Nat) : Bool := s.otpCfg.getLsbD b

/-- Bits blown in a list of bytes. -/
def bitsBlown (bs : List Byte) : Nat := (bs.map fun b => ((List.range 8).filter b.getLsbD).length).sum

/-- An anti-rollback counter: bits blown of a 64-bit thermometer code (R411, R412). -/
def State.counter (s : State) (c : Nat) : Nat := bitsBlown (s.otpBytes (0xC0 + 8 * c) 8)

/-- Raise a counter; none ever decreases (R411). -/
def raiseCounter (c v : Nat) (s : State) : State :=
  if s.counter c < v then otpBlow (0xC0 + 8 * c) (leBytes 8 (2 ^ v - 1)) s else s

/-- A key slot is present: not all zeros, and not revoked (R413). Kind 0: public-key hash; kind 1: AES key. -/
def keyAt (kind slot : Nat) : Nat := 0x40 + 0x40 * kind + 0x20 * slot
def State.keyPresent (s : State) (kind slot : Nat) : Bool :=
  (s.otpBytes (keyAt kind slot) 32).any (fun b => b != 0) && !s.otpBit (4 + 2 * kind + slot)

/-! ### Security entries (R405, R414, R417) -/

/-- A class-2 entry: security version, status, image type. -/
def updateEntry (op sver status type : Nat) (s : State) : State :=
  ledgerNote 2 op op (BitVec.ofNat 64 (sver % 2 ^ 32 + status * 2 ^ 32 + type * 2 ^ 40)) s

/-- A class-3 entry: key slot and debug level; sec_event is set (R414, R417). -/
def securityEntry (code op slot level : Nat) (s : State) : State :=
  (ledgerNote 3 code op (BitVec.ofNat 64 (slot + level * 256)) s).raise ASY_STAT.sec_event

/-- A successful OTP write: a class-2 entry whose security version and image type the spec leaves open, and sec_event (R414). -/
def otpEntry (op : Nat) (s : State) : State :=
  let (v, s) := s.fresh 32
  let (t, s) := s.fresh 8
  (updateEntry op v.toNat 0 t.toNat s).raise ASY_STAT.sec_event

/-! ### Mailbox (R398, R399) -/

/-- Commands that load an image. -/
def imageOp (op : Nat) : Bool := op == 0x10 || op == 0x12 || op == 0x13 || op == 0x14 || op == 0x15

/-- Opcodes of R399. -/
def mboxOps : List Nat := [0x01, 0x02, 0x03, 0x10, 0x11, 0x12, 0x13, 0x14, 0x15, 0x20, 0x21, 0x22, 0x30, 0x31]

/-- Argument word k. -/
def State.arg (s : State) (k : Nat) : Word := s.rd (ASY_MBOX_DATA k)

/-- The bytes of the Vault that a command reads, if its arguments name a range in it: an image of at least a header (R407), or the key of
OTP_KEY (R413). -/
def State.cmdBytes (s : State) (op : Nat) : Option (Nat × Nat) :=
  let a := (s.arg 0).toNat
  let n := (s.arg 1).toNat
  let k := (s.arg 2).toNat
  if imageOp op then (if vaultSize < a + n ∨ n < 128 then none else some (a, n))
  else if op = 0x20 ∧ k + 32 ≤ vaultSize then some (k, 32) else none

/-- The command that begins reads its bytes through the Assayer's slots; one that its state or its length refuses reads none (R398, R408). -/
def beginFetch (op len : Nat) (s : State) : State :=
  if (s.flag ASY_STAT.rom_mode && op != 0x15) || decide (len < 2) then s
  else match s.cmdBytes op with
    | some (a, n) => asyPush (readReq a n [] 0 .image) s
    | none => s

/-- A go (R398): ignored while busy or not ready. -/
def mboxCmdWrite (v : Word) (s : State) : State :=
  if fieldOf v ASY_MBOX_CMD.go = 0 then s.plainWrite ASY_MBOX_CMD v
  else if s.flag ASY_MBOX_RSP.busy || !s.asyReady then s.raise ASY_STAT.mbox_rej
  else
    let s := s.plainWrite ASY_MBOX_CMD v
    let op := fieldOf v ASY_MBOX_CMD.opcode
    let s := (s.raise ASY_MBOX_RSP.busy).clear ASY_MBOX_RSP.done'
    let s := s.modAsy fun a =>
      { a with cmd := some ⟨BitVec.ofNat 8 op, BitVec.ofNat 8 (fieldOf v ASY_MBOX_CMD.tag), fieldOf v ASY_MBOX_CMD.len⟩, result := none,
               fetch := none }
    beginFetch op (fieldOf v ASY_MBOX_CMD.len) (s.raiseIf (imageOp op) ASY_SEC_STAT.loading)

/-- Writes of the data area are ignored while busy (R398). -/
def mboxDataWrite (k : Nat) (v : Word) (s : State) : State := if s.flag ASY_MBOX_RSP.busy then s else s.wr (ASY_MBOX_DATA k) v

/-- The running command has its status and result words. -/
def finishCmd (status : Nat) (words : List Word) (s : State) : State := s.modAsy fun a => { a with result := some (status, words) }

/-- Run the command in the mailbox if it is the one named: in ROM mode only INFO, LEDGER_READ and FW_BOOT are accepted (R408), and too few
argument words are a bad argument. -/
def runCmd (op args : Nat) (f : State → State) (s : State) : State :=
  match s.asy.cmd with
  | none => s
  | some c =>
    if c.op.toNat ≠ op ∨ s.asy.result.isSome ∨ s.asyReady = false then s
    else if s.flag ASY_STAT.rom_mode && !(op == 0x01 || op == 0x02 || op == 0x15) then finishCmd 8 [] s
    else if c.len < args then finishCmd 3 [] s
    else f s

/-- A command that has not yet the bytes it reads comes again in the next cycle. -/
def withBytes (op : Nat) (again : Instr) (f : List Byte → State → State) (s : State) : State :=
  match s.cmdBytes op, s.asy.fetch with
  | none, _ => f [] s
  | some _, some b => f b s
  | some _, none => s.post (s.tb.cyc + 1) again

/-- MAILBOX_INFO. -/
def mailboxInfo : State → State := runCmd 0x01 0 fun s =>
  finishCmd 0 [s.asy.version, s.rd MNT_VER,
    BitVec.ofNat 32 (s.counter 0 + s.counter 1 * 2 ^ 8 + s.counter 2 * 2 ^ 16 + s.counter 3 * 2 ^ 24), s.otpCfg,
    s.asy.boots.setWidth 32, s.asy.seq] s
def execMailboxInfo (s : State) : Result := .next (mailboxInfo s)

/-- Insert an entry by sequence number. -/
def insertEntry (x : LedgerEntry) : List LedgerEntry → List LedgerEntry
  | [] => [x]
  | y :: r => if x.seq.toNat < y.seq.toNat then x :: y :: r else y :: insertEntry x r

/-- LEDGER_READ (R399, R406): entries held in the NOR, in ascending sequence, to the Vault. -/
def ledgerRead : State → State := runCmd 0x02 3 fun s =>
  let count := (s.arg 1).toNat
  let a := (s.arg 2).toNat
  if count < 1 ∨ 256 < count ∨ a % 32 ≠ 0 ∨ vaultSize < a + 32 * count then finishCmd 3 [] s
  else
    let sorted := (s.asy.ledger.map (·.2)).foldl (fun l x => insertEntry x l) []
    let from' := if s.arg 0 = 0xFFFFFFFF then sorted else sorted.filter fun x => decide ((s.arg 0).toNat ≤ x.seq.toNat)
    let l := from'.take count
    let (none', s) := s.fresh 32
    let s := asyPush (writeReq a ((l.flatMap LedgerEntry.bytes).map some) []) s
    finishCmd 0 [BitVec.ofNat 32 l.length, match l with | x :: _ => x.seq | [] => none'] s
def execLedgerRead (s : State) : Result := .next (ledgerRead s)

/-- LEDGER_NOTE: an entry of class 5. -/
def ledgerNoteCmd : State → State := runCmd 0x03 3 fun s =>
  let q := s.asy.seq
  finishCmd 0 [q] (ledgerNote 5 ((s.arg 0).toNat % 2 ^ 16) 0x03 (joinWords (s.arg 2) (s.arg 1)) s)
def execLedgerNote (s : State) : Result := .next (ledgerNoteCmd s)

/-- An opcode that R399 does not list. -/
def mailboxUnknown (s : State) : State :=
  match s.asy.cmd with
  | some c => if mboxOps.contains c.op.toNat ∨ s.asy.result.isSome ∨ s.asyReady = false then s else finishCmd 2 [] s
  | none => s
def execMailboxUnknownOpcode (s : State) : Result := .next (mailboxUnknown s)

/-- MAILBOX_RESPONSE (R398): results, status, tag, length; busy clears and done sets. While accesses of the Assayer wait for their slots it
comes again in the next cycle. -/
def mailboxResponse (s : State) : State :=
  match s.asy.cmd, s.asy.result with
  | some c, some (st, ws) =>
    if s.asyReady = false then s
    else if s.vlt.asy.isEmpty = false then s.post (s.tb.cyc + 1) .mailboxResponse
    else
      let s := (ws.foldl (fun (acc : State × Nat) w => (acc.1.wr (ASY_MBOX_DATA acc.2) w, acc.2 + 1)) (s, 0)).1
      let s := ((s.set ASY_MBOX_RSP.status st).set ASY_MBOX_RSP.tag c.tag.toNat).set ASY_MBOX_RSP.len ws.length
      let s := ((s.clear ASY_MBOX_RSP.busy).raise ASY_MBOX_RSP.done').clear ASY_SEC_STAT.loading
      s.modAsy fun a => { a with cmd := none, result := none }
  | _, _ => s
def execMailboxResponse (s : State) : Result := .next (mailboxResponse s)

/-! ### Images (R407, R408) -/

/-- An image as it lies in the Vault: header, payload, key block. -/
structure Image where
  header : List Byte
  payload : List Byte
  keyBlock : List Byte

def Image.le (x : Image) (a n : Nat) : Nat := leValue ((x.header.drop a).take n)
def Image.type (x : Image) : Nat := x.le 4 1
def Image.flags (x : Image) : Nat := x.le 5 1
def Image.encrypted (x : Image) : Bool := x.flags % 2 == 1
def Image.slot (x : Image) : Nat := x.flags / 2 % 2
def Image.advance (x : Image) : Bool := x.flags / 4 % 2 == 1
def Image.aes (x : Image) : Nat := x.flags / 8 % 2
def Image.sver (x : Image) : Nat := x.le 12 4
def Image.addr (x : Image) : Nat := x.le 16 4

/-- The bytes of an image of a type, cut into its parts. -/
def imageOf (bs : List Byte) (type : Nat) : Image :=
  let key := if type = 3 ∨ type = 4 then 64 else 0
  ⟨bs.take 128, (bs.drop 128).take (bs.length - 128 - key), bs.drop (bs.length - key)⟩

/-- The header is well formed (R407). -/
def Image.headerOk (x : Image) (len type : Nat) : Bool :=
  let key := if type = 3 ∨ type = 4 then 64 else 0
  x.le 0 4 == 0x4941474A && x.type == type && x.flags / 16 == 0 && x.le 6 2 == 1 && x.le 8 4 % 4 == 0 && len == 128 + x.le 8 4 + key &&
    (type == 3 || x.addr == 0) && (x.header.drop 48).take 16 == List.replicate 16 0

/-- What the signature covers (R407). -/
def Image.signed (x : Image) : List Byte := x.header.take 64 ++ x.payload ++ x.keyBlock

/-- The first pass over the bytes of an image of `type` (R408, R413): a refusal with its status, or the image with its plain payload. Both
passes see the bytes of one reading, since the lines are guarded meanwhile (log entry 40). -/
def firstPass (type : Nat) (bs : List Byte) (s : State) : Except Nat (Image × List Byte) :=
  if bs.length < 128 then .error 3
  else
    let len := bs.length
    let x := imageOf bs type
    let customer := type == 3 || type == 4
    if x.headerOk len type = false then .error 3
    else if customer && s.otpBit 1 && !x.encrypted then .error 3
    else if (customer && (!s.keyPresent 0 x.slot || Config.sha256 x.keyBlock != s.otpBytes (keyAt 0 x.slot) 32)) ||
        (x.encrypted && !s.keyPresent 1 x.aes) then .error 6
    else if Config.ecdsaVerify (if customer then x.keyBlock else Config.vendorKey) (Config.sha256 x.signed) (x.header.drop 64) = false then .error 4
    else
      let plain := if x.encrypted then
          Config.gcmOpen (s.otpBytes (keyAt 1 x.aes) 32) ((x.header.drop 20).take 12) (x.header.take 20) x.payload ((x.header.drop 32).take 16)
        else some x.payload
      match plain with
      | none => .error 7
      | some p => if x.sver < s.counter (type - 1) ∨ 64 < x.sver then .error 5 else .ok (x, p)

/-- A refused image (R408, R414): statuses 4–7 are logged. -/
def refuseImage (op status slot : Nat) (s : State) : State :=
  finishCmd status [] (if 4 ≤ status ∧ status ≤ 7 then securityEntry status op slot 0 s else s)

/-- A load succeeded: the counter of its type (counter 0 waits for the boot, R411), and the class-2 entry. -/
def loadDone (op : Nat) (x : Image) (words : List Word) (s : State) : State :=
  let s := if x.advance && x.type != 1 && decide (s.counter (x.type - 1) < x.sver) then (raiseCounter (x.type - 1) x.sver s).raise ASY_STAT.sec_event else s
  finishCmd 0 words (updateEntry op x.sver 0 x.type s)

/-- Run an image command: the first pass, then `f`. -/
def loadImage (op type : Nat) (again : Instr) (f : Image → List Byte → State → State) : State → State :=
  runCmd op 2 (withBytes op again fun bs s =>
    match firstPass type bs s with
    | .error st => refuseImage op st (imageOf bs type).slot s
    | .ok (x, p) => f x p s)

/-- FW_UPDATE (R408): the image goes to the slot that is not running. -/
def fwUpdate (ok : Bool) : State → State := loadImage 0x10 1 (.fwUpdate ok) fun x p s =>
  if ok = false then finishCmd 9 [] s
  else
    let other : Fin 2 := 1 - s.asy.running
    let order := (match s.asy.slots[s.asy.running] with | some y => y.order | none => 0) + 1
    loadDone 0x10 x [] (s.modAsy fun a => { a with slots := a.slots.set other (some ⟨x.sver, order, x.advance, Config.fwVersion p⟩) })
def execFwUpdate (ok : Bool) (s : State) : Result := .next (fwUpdate ok s)

/-- A restart of the Assayer core and its RAM (R397): the command that runs is abandoned; what waits in the queue is lost. -/
def restartCore (code : Nat) (s : State) : State :=
  let s := ((s.clear ASY_STAT.ready).clear ASY_STAT.rom_mode).fault .asyRestart
  let image : BusReq → Bool := fun q => match q with | .read _ _ _ _ _ _ .image => true | _ => false
  let s := s.modVlt fun x => { x with asy := x.asy.filter fun q => !image q }
  s.modAsy fun a => { a with queue := [], lost := 0, challenge := none, bootCode := code, fetch := none,
                             result := if a.cmd.isSome then some (11, []) else none }

/-- FW_RESTART (R408): its own response follows the restart. -/
def fwRestart : State → State := runCmd 0x11 0 fun s => finishCmd 0 [] (restartCore 2 s)
def execFwRestart (s : State) : Result := .next (fwRestart s)

/-- WATCHDOG_RESTART (R397). -/
def execWatchdogRestart (s : State) : Result := .next (restartCore 1 (s.raise ASY_STAT.fw_fault))

/-! ### Microcode and Mint images (R407, R409) -/

/-- A record of a microcode image: kind, first address, items. -/
structure UcodeRecord where
  kind : Nat
  first : Nat
  items : List Nat

/-- The records of a payload; none if it is malformed. -/
def parseRecords : Nat → List Byte → Option (List UcodeRecord)
  | 0, _ => none
  | fuel + 1, bs =>
    if bs.isEmpty then some []
    else
      let h := bs.take 8
      let b (k : Nat) : Nat := (h.getD k 0).toNat
      let kind := b 0
      let size := if kind = 0 then 16 else 4
      let count := b 2 + 256 * b 3
      if h.length < 8 ∨ 2 < kind ∨ b 1 ≠ 0 ∨ b 6 ≠ 0 ∨ b 7 ≠ 0 ∨ (bs.drop 8).length < size * count then none
      else
        (parseRecords fuel (bs.drop (8 + size * count))).map fun r =>
          ⟨kind, b 4 + 256 * b 5, (List.range count).map fun i => leValue ((bs.drop (8 + size * i)).take size)⟩ :: r

/-- The addresses of a record lie where its image type may write (R407, R227): type 2 in the vendor areas, with the legacy table at
dispatch addresses 256–511; type 4 in the Mint. -/
def UcodeRecord.inArea (r : UcodeRecord) (type : Nat) : Bool :=
  let last := r.first + r.items.length
  match type, r.kind with
  | 2, 0 => decide (last ≤ 0x600)
  | 2, 1 => decide (last ≤ 0x1800)
  | 2, _ => decide (last ≤ 0xE0) || (decide (0x100 ≤ r.first) && decide (last ≤ 0x200))
  | _, 0 => decide (0x600 ≤ r.first) && decide (last ≤ 0x800)
  | _, 1 => decide (0x1800 ≤ r.first) && decide (last ≤ 0x2000)
  | _, _ => decide (0xE0 ≤ r.first) && decide (last ≤ 0x100)

/-- A dispatch entry from an image: a customer's must name a micro-word of the Mint (R250). -/
def putDisp (type k v : Nat) (s : State) : State :=
  if 0x100 ≤ k then s.modMnt fun m => { m with legacy := Sparse.put (fun _ => 0) m.legacy (k - 0x100) (BitVec.ofNat 32 v) }
  else
    let w : Word := BitVec.ofNat 32 v
    if type = 4 ∧ fieldOf w (MNT_DISP.valid k) = 1 ∧ inMint (fieldOf w (MNT_DISP.uaddr k)) = false then s.raise MNT_STAT.disp_reject
    else s.wr (MNT_DISP k) w

/-- One item of a record, in every copy and the master image (R228). -/
def putItem (type : Nat) (enc : Bool) (kind a v : Nat) (s : State) : State :=
  match kind with
  | 0 => s.modMnt fun m => { m.nput (BitVec.ofNat 11 a) (BitVec.ofNat 128 v) with encNano := Sparse.put noPoison m.encNano a enc }
  | 1 => s.modMnt fun m => { m.uput (BitVec.ofNat 13 a) (BitVec.ofNat 24 v) with encMicro := Sparse.put noPoison m.encMicro a enc }
  | _ => putDisp type a v s

/-- The second pass: nano records, then micro records, then dispatch records (R409). -/
def putRecords (type : Nat) (enc : Bool) (rs : List UcodeRecord) (s : State) : State :=
  [0, 1, 2].foldl (fun s k =>
    (rs.filter fun r => r.kind == k).foldl (fun s r =>
      (r.items.foldl (fun (acc : State × Nat) v => (putItem type enc k acc.2 v acc.1, acc.2 + 1)) (s, r.first)).1) s) s

/-- The records of an image of the given type, if every one is in order. -/
def goodRecords (type : Nat) (p : List Byte) : Option (List UcodeRecord) :=
  match parseRecords (p.length + 1) p with
  | some rs => if rs.all (fun r => r.inArea type) then some rs else none
  | none => none

/-- No engine runs and run = 0 (R409). -/
def State.enginesOff (s : State) : Bool := !s.flag TLR_CTRL.run && (List.finRange 17).all s.engIdle

/-- UCODE_LOAD (R409). -/
def ucodeLoad : State → State := loadImage 0x12 2 .ucodeLoad fun x p s =>
  if s.enginesOff = false then finishCmd 8 [] s
  else match goodRecords 2 p with
    | none => finishCmd 3 [] s
    | some rs => loadDone 0x12 x [] ((putRecords 2 x.encrypted rs s).wr MNT_VER (Config.ucodeVersion p))
def execUcodeLoad (s : State) : Result := .next (ucodeLoad s)

/-- MINT_LOAD (R252, R409). -/
def mintLoad : State → State := loadImage 0x14 4 .mintLoad fun x p s =>
  if s.flag MNT_CTRL.lock then finishCmd 8 [] s
  else match goodRecords 4 p with
    | none => finishCmd 3 [] s
    | some rs =>
      let s := (putRecords 4 x.encrypted rs s).set MNT_STAT.img_src (if x.encrypted then 2 else 1)
      loadDone 0x14 x [] (if x.encrypted then mintHide (mintLock s) else s)
def execMintLoad (s : State) : Result := .next (mintLoad s)

/-- Words of program store from a payload. -/
def putProgram (a : Nat) : List Word → State → State
  | [], s => s
  | w :: r, s => putProgram (a + 1) r (progPut (BitVec.ofNat 16 a) w s)

/-- PROG_LOAD (R410): an encrypted image protects every page that it touches. -/
def progLoad : State → State := loadImage 0x13 3 .progLoad fun x p s =>
  let n := p.length / 4
  if 65536 < x.addr + n then finishCmd 3 [] s
  else
    let s := putProgram x.addr (bytesToWords p) s
    let pages := (List.range 64).filter fun g => decide (0 < n) && decide (x.addr / 1024 ≤ g) && decide (g ≤ (x.addr + n - 1) / 1024)
    let s := if x.encrypted then s.wr64 ASY_PS_PROT (pages.foldl (fun m g => m ||| BitVec.twoPow 64 g) (s.rd64 ASY_PS_PROT)) else s
    loadDone 0x13 x [s.rd ASY_PS_PROT, s.rd (ASY_PS_PROT + 4)] s
def execProgLoad (s : State) : Result := .next (progLoad s)

/-! ### Keys, configuration, counters (R411–R414) -/

/-- Free bytes, for an OTP area whose write failed. -/
def freeBytes (n : Nat) (s : State) : List Byte × State :=
  let (v, s) := s.fresh (8 * n)
  (leBytes n v.toNat, s)

/-- OTP_KEY (R413). -/
def otpKey (ok : Bool) : State → State := runCmd 0x20 3 (withBytes 0x20 (.otpKey ok) fun bs s =>
  let slot := (s.arg 0).toNat
  let kind := (s.arg 1).toNat
  let a := (s.arg 2).toNat
  if 1 < slot ∨ 1 < kind ∨ vaultSize < a + 32 then finishCmd 3 [] s
  else if s.otpBit 8 ∨ (s.otpBytes (keyAt kind slot) 32).any (fun b => b != 0) then finishCmd 10 [] s
  else if ok then
    let s := otpBlow (keyAt kind slot) bs s
    finishCmd 0 [] (otpEntry 0x20 (asyPush (writeReq a (List.replicate 32 (some 0)) []) s))
  else
    let (b, s) := freeBytes 32 s
    finishCmd 10 [] ((otpBlow (keyAt kind slot) b s).raise ASY_SEC_STAT.otp_err))
def execOtpKey (ok : Bool) (s : State) : Result := .next (otpKey ok s)

/-- OTP_CFG (R414). -/
def otpCfg (ok : Bool) : State → State := runCmd 0x21 1 fun s =>
  let w := s.arg 0
  if w &&& 0xFFFFFE00 ≠ 0 then finishCmd 3 [] s
  else if s.otpBit 8 ∧ w &&& 0xFFFFFF07 ≠ 0 then finishCmd 10 [] s
  else if ok then
    let s := otpBlow 0xE0 (leBytes 4 w.toNat) s
    finishCmd 0 [s.otpCfg] (otpEntry 0x21 s)
  else
    let (x, s) := s.fresh 32
    finishCmd 10 [] ((otpBlow 0xE0 (leBytes 4 (w &&& x).toNat) s).raise ASY_SEC_STAT.otp_err)
def execOtpCfg (ok : Bool) (s : State) : Result := .next (otpCfg ok s)

/-- ROLLBACK (R411). -/
def rollback (ok : Bool) : State → State := runCmd 0x22 2 fun s =>
  let c := (s.arg 0).toNat
  let v := (s.arg 1).toNat
  if 3 < c ∨ v < s.counter c ∨ 64 < v then finishCmd 3 [] s
  else if ok then
    let s := raiseCounter c v s
    finishCmd 0 [BitVec.ofNat 32 (s.counter c)] (otpEntry 0x22 s)
  else
    let (x, s) := s.fresh 64
    finishCmd 10 [] ((otpBlow (0xC0 + 8 * c) (leBytes 8 ((BitVec.ofNat 64 (2 ^ v - 1)) &&& x).toNat) s).raise ASY_SEC_STAT.otp_err)
def execRollback (ok : Bool) (s : State) : Result := .next (rollback ok s)

/-! ### Debug unlock (R416, R417) -/

/-- dbg_lock = 1 and dbg_perm = 0. -/
def State.unlockable (s : State) : Bool := s.otpBit 2 && !s.otpBit 3

/-- DBG_CHAL: a challenge from the random source. -/
def dbgChal : State → State := runCmd 0x30 0 fun s =>
  if s.unlockable = false then finishCmd 8 [] s
  else
    let (x, s) := s.fresh 256
    finishCmd 0 ((List.range 8).map fun k => (x >>> (32 * k)).setWidth 32) (s.modAsy fun a => { a with challenge := some x })
def execDbgChal (s : State) : Result := .next (dbgChal s)

/-- DBG_RESP: the signature over the challenge, the UID and a level byte. -/
def dbgResp : State → State := runCmd 0x31 18 fun s =>
  match s.asy.challenge with
  | none => finishCmd 8 [] s
  | some x =>
    let s := s.modAsy fun a => { a with challenge := none }
    let level := (s.arg 0).toNat
    let slot := (s.arg 1).toNat
    if s.unlockable = false then finishCmd 8 [] s
    else if level < 1 ∨ 2 < level ∨ (level = 1 ∧ 1 < slot) then finishCmd 3 [] s
    else if level = 1 ∧ s.keyPresent 0 slot = false then finishCmd 6 [] (securityEntry 6 0x31 slot level s)
    else
      let key := if level = 2 then Config.vendorKey else Config.customerKey (s.otpBytes (keyAt 0 slot) 32)
      let msg := leBytes 32 x.toNat ++ leBytes 8 Config.deviceUid.toNat ++ [BitVec.ofNat 8 level]
      let sig := (List.range 16).flatMap fun k => leBytes 4 (s.arg (2 + k)).toNat
      let slot := if level = 2 then 0 else slot
      if Config.ecdsaVerify key (Config.sha256 msg) sig then
        finishCmd 0 [] (securityEntry 0x30 0x31 slot level (s.set ASY_DBG.level level))
      else finishCmd 4 [] (securityEntry 4 0x31 slot level s)
def execDbgResp (s : State) : Result := .next (dbgResp s)

/-- DEBUG_CLOSE. -/
def execDebugClose (s : State) : Result := .next (s.clear ASY_DBG.level)

/-! ### Start of the firmware (R408, R411, R436) -/

/-- Why the core boots when a JTAG halt has restarted it: R405 gives that no code. -/
def bootJtag : Nat := 6

/-- The code of a boot entry (R405); free after a JTAG halt or Deep Park. -/
def bootEntryCode (s : State) : Nat × State :=
  if s.asy.bootCode = bootJtag ∨ s.asy.bootCode = bootDeep then
    let (v, s) := s.fresh 16
    (v.toNat, s)
  else (s.asy.bootCode, s)

/-- The firmware runs in slot `k`, with the boot entries of its start. -/
def runFirmware (k : Fin 2) (x : FwSlot) (fallback : Bool) (s : State) : State :=
  let first := s.asy.bootCode == 0 || s.asy.bootCode == 2
  let s := s.modAsy fun a => { a with running := k, version := x.version }
  let s := ((s.raise ASY_STAT.ready).clear ASY_STAT.rom_mode).raise FLT_BOOT.fw
  let s := s.setBool FLT_BOOT.fallback fallback
  let (code, s) := bootEntryCode s
  let s := ledgerNote 4 code 0 (x.version.setWidth 64) s
  let s := if fallback then ledgerNote 4 4 0 (x.version.setWidth 64) s else s
  if x.advance && first && decide (s.counter 0 < x.sver) then otpEntry 0x11 (raiseCounter 0 x.sver s) else s

/-- The ROM waits for FW_BOOT. -/
def romMode (s : State) : State :=
  let s := (s.raise ASY_STAT.ready).raise ASY_STAT.rom_mode
  ledgerNote 4 5 0 (s.asy.version.setWidth 64) s

/-- FIRMWARE_READY (R408): the valid slot with the higher sver, the later written on a tie; the other if it fails verification; else ROM
mode. -/
def firmwareReady (bad0 bad1 : Bool) (s : State) : State :=
  if s.flag ASY_STAT.ready ∨ s.resetLow ∨ s.flag GBL_HOST.ready = false then s
  else
    let s := if 2 ≤ s.get GBL_STRAP.hostsel ∧ s.asy.bootCode = 0 then ledgerNote 4 3 0 (s.asy.version.setWidth 64) s else s
    if s.flag GBL_STRAP.boot_src then romMode s
    else
      let c := s.counter 0
      let good (x : Option FwSlot) : Option FwSlot := match x with | some y => if y.sver < c ∨ 64 < y.sver then none else some y | none => none
      let a := good s.asy.slots[0]
      let b := good s.asy.slots[1]
      let better : Bool := match a, b with
        | some x, some y => decide (x.sver < y.sver) || (x.sver == y.sver && decide (x.order < y.order))
        | none, some _ => true
        | _, _ => false
      let (p, q, pk, qk, pbad, qbad) := if better then (b, a, (1 : Fin 2), (0 : Fin 2), bad1, bad0) else (a, b, (0 : Fin 2), (1 : Fin 2), bad0, bad1)
      match p, q with
      | some x, y =>
        if pbad = false then runFirmware pk x false s
        else match y with
          | some y => if qbad = false then runFirmware qk y true s else romMode s
          | none => romMode s
      | none, _ => romMode s
def execFirmwareReady (bad0 bad1 : Bool) (s : State) : Result := .next (firmwareReady bad0 bad1 s)

/-- FW_BOOT (R408): in ROM mode, a type-1 image runs from RAM without a write of the NOR. -/
def fwBoot : State → State := loadImage 0x15 1 .fwBoot fun x p s =>
  if s.flag ASY_STAT.rom_mode = false then finishCmd 8 [] s
  else
    let s := s.modAsy fun a => { a with version := Config.fwVersion p }
    loadDone 0x15 x [] ((s.clear ASY_STAT.rom_mode).raise FLT_BOOT.fw)
def execFwBoot (s : State) : Result := .next (fwBoot s)

/-- UCODE_LOADED (R436): the vendor microcode of the boot, with the dispatch entries it sets: those of the native table and those of the legacy table
(R227, R407). -/
def ucodeLoaded (version : Word) (ms : BitVec 16) (disp legacy : List Word) (s : State) : State :=
  if s.flag FLT_BOOT.fw = false ∨ s.flag FLT_BOOT.ucode then s
  else
    let s := ((s.wr MNT_VER version).raise FLT_BOOT.ucode).set FLT_BOOT.ucode_ms ms.toNat
    let s := (List.range 0xE0).foldl (fun s k => s.wr (MNT_DISP k) (disp.getD k 0)) s
    (List.range 0x100).foldl (fun s k => putDisp 2 (0x100 + k) (legacy.getD k 0).toNat s) s
def execUcodeLoaded (version : Word) (ms : BitVec 16) (disp legacy : List Word) (s : State) : Result := .next (ucodeLoaded version ms disp legacy s)

/-- DAYBOOK_TRAINED (R346, R436). -/
def daybookTrained (s : State) : State :=
  if s.flag FLT_BOOT.fw = false ∨ s.flag FLT_BOOT.daybook then s
  else endDeepExit ((s.raise DBK_GSTAT.trained).raise FLT_BOOT.daybook)
def execDaybookTrained (s : State) : Result := .next (daybookTrained s)

end Sys2Proof.Machine
end

