-- ==== Sys2Proof/Machine/BezelDrafts.lean ====
section
/-!
DEFINITION. Drafts (R121–R134): arrival, projection, arming, cancel, free and withdrawal, and the host's draft window.
-/
namespace Sys2Proof.Machine
open Sys2Proof

/-- Write-in of a draft by the host window: fields of BZL_DFT_W0–W3 (R121). -/
def hostSpec (s : State) (d : Fin 8) : DraftSpec :=
  { angle := BitVec.ofNat 21 (s.get (BZL_DFT_W0.angle d)), act := BitVec.ofNat 2 (s.get (BZL_DFT_W1.act d)),
    facet := Fin.ofNat 256 (s.get (BZL_DFT_W1.facet d)), lead := BitVec.ofNat 2 (s.get (BZL_DFT_W1.lead d)),
    drop := s.flag (BZL_DFT_W1.policy d), tag := BitVec.ofNat 8 (s.get (BZL_DFT_W1.tag d)),
    notify := s.flag (BZL_DFT_W1.notify d), autoFree := s.flag (BZL_DFT_W1.auto_free d), limp := s.flag (BZL_DFT_W1.limp d),
    owner := chanOf (s.get (BZL_DFT_W2.owner d)), hostOwn := s.flag (BZL_DFT_W2.host_own d),
    pairEn := s.flag (BZL_DFT_W2.pair_en d), pair := Fin.ofNat 256 (s.get (BZL_DFT_W2.pair d)), dur := s.rd (BZL_DFT_W3 d) }

/-- A DRAFT entry is to be armed at the current edge: Θ_t ≤ H_lead (R126). -/
def Domain.armable (x : Domain) (e : Draft) : Bool :=
  match x.pred, x.ahead[e.spec.lead.toNat]? with
  | some _, some h => e.status == .draft && decide (e.target ≤ h)
  | _, _ => false

/-- The armed time of an entry (R126), bounded by t_o + dur for a pair (R131). -/
def Domain.armTime (x : Domain) (e : Draft) : Time :=
  let t := x.timeOf e.target
  match e.tO with
  | some o => if e.spec.pairEn && e.spec.dur != 0 then (let u := o + e.spec.dur.zeroExtend 64; if u < t then u else t) else t
  | none => t

/-- Arm entry `i` at time `t`: it becomes ARMED, closing edges that name it record its time, and the armed entry sets out
for its facet, which it reaches in the next cycle (R126, R128, R131; log entry 15). -/
def armEntry (d : Fin 8) (i : Fin 256) (t : Time) (reason : BitVec 4) (s : State) : State :=
  let e := (s.draft d i).spec
  let s := s.modDraft d i fun x => { x with status := .armed, time := t, reason := reason }
  let s := recordOpening d i t s
  let s := if e.notify then s.draftCause e else s
  s.post (s.tb.cyc + 1)
    (.armedEntryArrival e.facet { time := some t, act := e.act, drop := e.drop, tag := e.tag, notify := e.notify, origin := some (d, i) })

/-- Insert an entry in ascending order of its target. -/
def insertTarget (a : Nat × Fin 256) : List (Nat × Fin 256) → List (Nat × Fin 256)
  | [] => [a]
  | b :: r => if a.1 < b.1 then a :: b :: r else b :: insertTarget a r

/-- Entries that satisfy `p`, in ascending Θ_t. -/
def State.draftsBy (s : State) (d : Fin 8) (p : Draft → Bool) : List (Fin 256) :=
  ((List.finRange 256).foldl (fun l i => if p (s.draft d i) then insertTarget ((s.draft d i).target, i) l else l) []).map (·.2)

/-- Arm entries due at the last edge in ascending Θ_t, as many as the eight of this cycle leave (R126); `arming` stays while more are due. -/
def armDue (d : Fin 8) (s : State) : State :=
  let x := s.bzl[d]
  let due := s.draftsBy d x.armable
  let now := due.take (8 - x.armed)
  let s := now.foldl (fun s i => armEntry d i ((s.bzl[d]).armTime (s.draft d i)) 0 s) s
  s.modDom d fun y => { y with armed := y.armed + now.length, arming := decide (now.length < due.length) }

/-- Entries that still wait for their arming cycle are armed after the decisions of this one (R126, R134). -/
def armWaiting (s : State) : State := forAll 8 (fun d s => if (s.bzl[d]).arming && decide ((s.bzl[d]).armed < 8) then armDue d s else s) s

/-- Project every DRAFT entry anew (R125). -/
def reproject (d : Fin 8) (s : State) : State :=
  s.modDom d fun x => { x with drafts := x.drafts.map fun e =>
    if e.status = .draft then { e with time := x.timeOf e.target } else e }

/-- Count one withdrawn entry (R133). -/
def countWithdrawn (d : Fin 8) (s : State) : State := s.incSat (BZL_DFT_STAT.withdrawn d)

/-- A transition that withdraws drafts (R133): closing edges of a pulse already begun are armed at t_o + dur with the reason
(R131), the rest become WITHDRAWN; `keepLimp` keeps limp drafts (T12). -/
def withdraw (d : Fin 8) (reason : BitVec 4) (keepLimp : Bool) (s : State) : State :=
  let goes (e : Draft) : Bool := e.status == .draft && !(keepLimp && e.spec.limp)
  let pulse (e : Draft) : Bool := goes e && e.spec.pairEn && e.spec.dur != 0 && e.tO.isSome
  let s := (s.draftsBy d pulse).foldl (fun s i =>
    armEntry d i ((s.draft d i).tO.getD 0 + (s.draft d i).spec.dur.zeroExtend 64) reason s) s
  (s.draftsBy d goes).foldl (fun s i =>
    if goes (s.draft d i) then countWithdrawn d (draftEnd 256 d i .withdrawn reason s) else s) s

/-- An accepted arrival (R123, R124, R127): the fields replace the entry's; outside SYNC and LIMP_CAM, or in LIMP_CAM
without limp, the entry is withdrawn at once. Every DRAFT entry is projected anew (R125). -/
def acceptDraft (d : Fin 8) (i : Fin 256) (y : DraftSpec) (s : State) : State :=
  let x := s.bzl[d]
  let tgt := targetOf (s.cycle16 d) x.thetaK y.angle.toNat
  let s := s.modDraft d i fun _ =>
    { spec := y, status := .draft, reason := 0, target := tgt, time := x.timeOf tgt, tO := none }
  let s := if s.tracking d then reproject d s else s
  if s.tracking d = false then countWithdrawn d (draftEnd 256 d i .withdrawn 14 s)
  else if s.dState d = stLimp ∧ y.limp = false then
    countWithdrawn d (draftEnd 256 d i .withdrawn 6 s)
  else if (s.bzl[d]).armable (s.draft d i) then armEntry d i ((s.bzl[d]).armTime (s.draft d i)) 0 s
  else s

/-- DRAFT_ARRIVAL (R123, R215): a channel's arrival is refused on an ARMED entry and on an entry in use by another owner;
the refusal raises DRAFT for the writer. -/
def draftArrival (d : Fin 8) (i : Fin 256) (y : DraftSpec) (s : State) : State :=
  let e := s.draft d i
  if e.status = .armed ∨ (e.status ≠ .free ∧ (e.spec.hostOwn = true ∨ e.spec.owner ≠ y.owner)) then s.cause y.owner .draft
  else acceptDraft d i y s
def execDraftArrival (d : Fin 8) (i : Fin 256) (y : DraftSpec) (s : State) : Result := .next (draftArrival d i y s)

/-- Take an armed entry of a draft out of its facet's queue unless it acts in this cycle (R69, R132). -/
def pullArmed (d : Fin 8) (i : Fin 256) (s : State) : State :=
  let n := (s.draft d i).spec.facet
  let mine (a : Armed) : Bool := a.origin == some (d, i)
  let waits := (s.fct[n]).lateNext.any mine
  let s := s.modFct n fun f => { f with lateNext := f.lateNext.filter fun a => !mine a }
  if waits then draftOutcome (some (d, i)) .cancelled 0 s else removeEntries n mine .cancelled 0 s

/-- A cancel of entry `i` (R132): by its status; an armed entry that has not reached its facet is withheld. -/
def cancelDraft (d : Fin 8) (i : Fin 256) (s : State) : State :=
  match (s.draft d i).status with
  | .draft => draftEnd 256 d i .cancelled 0 s
  | .armed =>
    let mine (c : Nat × Instr) : Bool := match c.2 with | .armedEntryArrival _ x => x.origin == some (d, i) | _ => false
    if s.inflight.any mine then
      draftOutcome (some (d, i)) .cancelled 0 { s with inflight := s.inflight.filter fun c => !mine c }
    else pullArmed d i s
  | _ => s

/-- A free of entry `i` (R132); the second result says that it was refused. -/
def freeDraft (d : Fin 8) (i : Fin 256) (s : State) : State × Bool :=
  if (s.draft d i).status = .armed then (s, true)
  else (s.modDraft d i fun e => { e with status := .free, reason := 0 }, false)

/-- A channel's entry (R132, R215). -/
def State.ownsDraft (s : State) (d : Fin 8) (i : Fin 256) (ch : Fin 512) : Bool :=
  !(s.draft d i).spec.hostOwn && (s.draft d i).spec.owner == ch

/-- DRAFT_CANCEL_ARRIVAL (R132, R215). -/
def execDraftCancelArrival (d : Fin 8) (i : Fin 256) (ch : Fin 512) (s : State) : Result :=
  .next (if s.ownsDraft d i ch then cancelDraft d i s else s)
/-- DRAFT_FREE_ARRIVAL (R132, R215). -/
def execDraftFreeArrival (d : Fin 8) (i : Fin 256) (ch : Fin 512) (s : State) : Result :=
  .next (if s.ownsDraft d i ch then (freeDraft d i s).1 else s)

/-! ### The host's draft window -/

/-- The entry that BZL_DFT_CMD addresses. -/
def State.dftIdx (s : State) (d : Fin 8) : Fin 256 := Fin.ofNat 256 (s.get (BZL_DFT_IDX.index d))

/-- HOST_DRAFT_WRITE (R123). -/
def hostDraftWrite (d : Fin 8) (s : State) : State :=
  let y := hostSpec s d
  let i := s.dftIdx d
  if (s.draft d i).status = .armed ∨ s.cycleAu d ≤ y.angle.toNat then s.raise (BZL_DFT_CMD.refused d)
  else acceptDraft d i y (s.clear (BZL_DFT_CMD.refused d))
def execHostDraftWrite (d : Fin 8) (s : State) : Result := .next (hostDraftWrite d s)

/-- HOST_DRAFT_CANCEL (R132). -/
def execHostDraftCancel (d : Fin 8) (s : State) : Result := .next (cancelDraft d (s.dftIdx d) s)

/-- HOST_DRAFT_FREE (R132). -/
def hostDraftFree (d : Fin 8) (s : State) : State :=
  let (s, refused) := freeDraft d (s.dftIdx d) s
  s.setBool (BZL_DFT_CMD.refused d) refused
def execHostDraftFree (d : Fin 8) (s : State) : Result := .next (hostDraftFree d s)

/-- BZL_DFT_TIME of an entry: the projection of a DRAFT entry, the armed time of one that was armed, otherwise all ones. -/
def draftTime (e : Draft) : Time := if e.status = .free then noTime else e.time

/-- DRAFT_READ (R132). -/
def draftRead (d : Fin 8) (s : State) : State :=
  let e := s.draft d (s.dftIdx d)
  let y := e.spec
  let s := s.wr (BZL_DFT_W0 d) (BitVec.ofNat 32 y.angle.toNat)
  let s := ((((((((s.wr (BZL_DFT_W1 d) 0).set (BZL_DFT_W1.tag d) y.tag.toNat).set (BZL_DFT_W1.facet d) y.facet).setBool
    (BZL_DFT_W1.policy d) y.drop).setBool (BZL_DFT_W1.notify d) y.notify).setBool (BZL_DFT_W1.auto_free d) y.autoFree).setBool
    (BZL_DFT_W1.limp d) y.limp).set (BZL_DFT_W1.lead d) y.lead.toNat).set (BZL_DFT_W1.act d) y.act.toNat
  let s := ((((s.wr (BZL_DFT_W2 d) 0).setBool (BZL_DFT_W2.host_own d) y.hostOwn).set (BZL_DFT_W2.owner d) y.owner).setBool
    (BZL_DFT_W2.pair_en d) y.pairEn).set (BZL_DFT_W2.pair d) y.pair
  let s := s.wr (BZL_DFT_W3 d) y.dur
  let s := (s.set (BZL_DFT_STATUS.status d) e.status.code).set (BZL_DFT_STATUS.reason d) e.reason.toNat
  s.wr64 (BZL_DFT_TIME d) (draftTime e)
def execDraftRead (d : Fin 8) (s : State) : Result := .next (draftRead d s)

/-- DRAFT_CLR_COUNT (R133). -/
def execDraftClrCount (d : Fin 8) (s : State) : Result := .next (s.clear (BZL_DFT_STAT.withdrawn d))

/-- A write of BZL_DFT_CMD: read, write, cancel, free, clr_count in this order (R132). -/
def dftCmdWrite (d : Fin 8) (v : Word) (s : State) : State :=
  let b (f : Fld) : Bool := fieldOf v f = 1
  let s := if b (BZL_DFT_CMD.read d) then draftRead d s else s
  let s := if b (BZL_DFT_CMD.write d) then hostDraftWrite d s else s
  let s := if b (BZL_DFT_CMD.cancel d) then cancelDraft d (s.dftIdx d) s else s
  let s := if b (BZL_DFT_CMD.free d) then hostDraftFree d s else s
  if b (BZL_DFT_CMD.clr_count d) then s.clear (BZL_DFT_STAT.withdrawn d) else s

/-- BZL_DFT_STAT as read: entries in DRAFT or ARMED. -/
def dftStatRead (d : Fin 8) (s : State) : Word :=
  withField (s.rd (BZL_DFT_STAT d)) (BZL_DFT_STAT.live d)
    ((List.finRange 256).filter fun i => let st := (s.draft d i).status; st == .draft || st == .armed).length

/-- BZL_DFT_SUMw as read (R130). -/
def dftSumRead (d : Fin 8) (w : Nat) (s : State) : Word :=
  BitVec.ofNat 32 ((List.range 32).foldl (fun a k =>
    if (s.draft d (Fin.ofNat 256 (32 * w + k))).status.terminal then a + 2 ^ k else a) 0)

end Sys2Proof.Machine
end

