-- ==== Sys2Proof/Machine/BezelSync.lean ====
section
/-!
DEFINITION. Synchronisation (R97–R117): windows, the state machine of R103, secondary wheels and cam phase, limp on the
cam, reverse and stall.
-/
namespace Sys2Proof.Machine
open Sys2Proof

/-- What a decision comes to: the state after it, whether it pulses event 72 + d (R100), and the withdrawal reason that a
tooth report gives (R367). -/
abbrev Decision := State × Bool × BitVec 4

/-! ### State changes -/

/-- A domain takes state `new` (R101, R103, R105), withdrawing drafts with `reason` unless it is 0. -/
def enter (d : Fin 8) (new : Nat) (reason : BitVec 4) (s : State) : State :=
  let old := s.dState d
  let s := if reason = 0 then s else withdraw d reason (reason = 6) s
  let s := if new = stSeek ∨ new = stLost ∨ (new = stGap ∧ old = stSeek) then s.clear (BZL_STATE.pos_valid d)
    else if new = stSync ∨ new = stLimp then s.raise (BZL_STATE.pos_valid d) else s
  let s := if new ≠ stSync ∧ new ≠ stLimp then s.clear (BZL_STATE.cam_track d) else s
  let s := if new ≠ stSync ∧ new ≠ stGap then learnLeave d s else s
  let s := if new = stSync ∧ old ≠ stSync ∧ old ≠ stLimp then
      s.modDom d fun x => { x with camRun := 0, camSeen := false, phases := Vector.replicate 4 [], cam0 := [] } else s
  let s := if new = stSeek then
      s.modDom d fun x => { x with search := Search.reset, syncArmed := false, watch := LimpWatch.reset } else s
  let s := if new = stGap ∨ new = stSync ∨ new = stLimp then s else s.modDom d fun x => { x with pred := none }
  let s := s.set (BZL_STATE.state d) new
  let s := if (old = stSync ∨ old = stLimp) ∧ new ≠ stSync ∧ new ≠ stLimp then adcLeave d s else s
  if new = old then s
  else bezelCause d (BZL_BIND.sync_en d) .sync (pulse (80 + d) (s.raise (BZL_FLAGS.state_chg d)))

/-- Event 72 + d and TOOTH (R100, R117), and the angle sources of the sample groups (R274). -/
def toothPulse (d : Fin 8) (s : State) : State :=
  bezelCause d (BZL_BIND.tooth_en d) .tooth (pulse (72 + d) (adcEdge d s))

/-- The tooth report of a decision (R367): `t` is the edge time or the GTB of the decision cycle. -/
def toothCell (d : Fin 8) (t : Time) (reason : BitVec 4) (trans : Bool) (s : State) : ToothCell :=
  let x := s.bzl[d]
  let g (k : Nat) : BitVec 25 :=
    BitVec.ofNat 25 ((x.ahead.getD k 0) - (if k = 0 then x.thetaK else x.ahead.getD (k - 1) 0))
  { time := t.truncate 40, pos := BitVec.ofNat 25 (x.thetaK % s.cycle16 d), e := Vector.ofFn fun k => g k.val,
    slot := BitVec.ofNat 10 (s.get (BZL_STATE.slot d)), state := BitVec.ofNat 3 (s.dState d), reason := reason,
    dom := BitVec.ofNat 2 d, trans := trans, cycle := s.flag (BZL_CFG.cycle d), seq := 0 }

/-- End of a decision of a local domain: its pulse, its tooth records (R314), and the report to the subscribers of a domain
(R367). -/
def conclude (d : Fin 8) (old : Nat) (t : Time) (r : Decision) : State :=
  let (s, tooth, reason) := r
  let s := if tooth then toothPulse d s else s
  let trans := s.dState d != old
  let s := if tooth || trans then logTooth d trans s else s
  if (tooth || trans) && decide (d.val < 4) then sendTooth d (toothCell d t reason trans s) s else s

/-! ### Positions -/

/-- BZL_POS from a position in 1/16 au. -/
def setPos (d : Fin 8) (p16 : Nat) (s : State) : State := s.wr (BZL_POS d) (BitVec.ofNat 32 (p16 / 16))

/-- Slot and revolution of the last accepted primary edge. -/
def setSlot (d : Fin 8) (i : Nat) (r : Bool) (s : State) : State :=
  (s.set (BZL_STATE.slot d) i).setBool (BZL_STATE.rev d) r

/-- BZL_EDGE_TIME and, where the edge measures an interval, BZL_PERIOD. -/
def setEdge (d : Fin 8) (t : Time) (T : Option Nat) (s : State) : State :=
  let s := s.wr64 (BZL_EDGE_TIME d) t
  match T with
  | some n => s.wr (BZL_PERIOD d) (BitVec.ofNat 32 (min n (2 ^ 32 - 1)))
  | none => s

/-- An accepted primary edge is remembered for the next interval, for keep and for the limp start. -/
def notePrimary (d : Fin 8) (t : Time) (s : State) : State :=
  s.modDom d fun x => { x with lastPri := some t, stuckSeen := false, watch := LimpWatch.reset }

/-- Nominal angle from slot `i` to slot `j`, going forward, in au (R97). -/
def State.spanNom (s : State) (d : Fin 8) (i j : Nat) : Nat := gap16 rev1 (s.nom d i) (s.nom d j)

/-- The test of R97 with P = num ÷ den, exactly. -/
def inRatio (w : Nat × Nat) (T num den : Nat) : Bool := decide (w.1 * num ≤ 4096 * T * den) && decide (4096 * T * den ≤ w.2 * num)

/-- The test of R97 for a primary edge, which R98 bounds as well. -/
def inWindow (w : Nat × Nat) (T num den : Nat) : Bool := decide (3200 ≤ T) && inRatio w T num den

/-- T fits the reference gap after an interval of `prev` (T2). -/
def State.fitsGap (s : State) (d : Fin 8) (T prev : Nat) : Bool :=
  let sr := s.sRef d * prev
  decide (3200 ≤ T) && decide ((s.windowGap d).1 * sr ≤ 4096 * 4096 * T) && decide (4096 * 4096 * T ≤ (s.windowGap d).2 * sr)

/-- The forward wrap of a position (R94, R105, R115). -/
def cycleWrap (d : Fin 8) (s : State) : State :=
  let s := s.wr (BZL_CYCLES d) (s.rd (BZL_CYCLES d) + 1)
  let s := forAll 4 (fun w s =>
    if s.secEnabled d w = false then s
    else
      let ph := (s.bzl[d]).phases[w]
      let n := ph.length
      let s := s.set (BZL_CAM_INFO.count d w) n
      if n = 0 then s.raise (BZL_CAM_INFO.stale d w)
      else
        let tot := ph.foldl (· + ·) (0 : Int)
        let q : Int := ((2 * tot.natAbs + n) / (2 * n) : Nat)
        (s.wr (BZL_CAM_AVG d w) (wordOfInt (if tot < 0 then -q else q))).clear (BZL_CAM_INFO.stale d w)) s
  let s := if (s.bzl[d]).camSeen then s else s.clear (BZL_STATE.cam_track d)
  s.modDom d fun x => { x with camSeen := false, phases := Vector.replicate 4 [] }

/-- A new accepted edge at `pos`: Θ moves forward to it, the history and the predictor follow (R118, R120), and a wrap in
SYNC or LIMP_CAM is counted. -/
def moveTo (d : Fin 8) (p16 : Nat) (t : Time) (ahead : Nat → List Nat) (s : State) : State :=
  let x := s.bzl[d]
  let c := s.cycle16 d
  let th := x.thetaK + gap16 c x.thetaK p16
  let s := s.modDom d fun y => { y with hist := (⟨th, t⟩ :: y.hist).take 3, intervals := min 2 (y.intervals + 1), ahead := ahead th }
  let s := setPos d p16 (refreshPredictor d s)
  if s.tracking d && decide (x.thetaK / c < th / c) then cycleWrap d s else s

/-- Advance to slot `j` at `t` after interval `T` (R94). -/
def advance (d : Fin 8) (t : Time) (T j : Nat) (s : State) : State :=
  let x := s.bzl[d]
  let (_, r) := s.nextTooth d (x.slot, x.rev)
  let span := s.spanNom d x.slot j
  let s := if j ≤ x.slot then closeRevolution d t s else learnEdge d j t s
  let s := s.modDom d fun y => { y with slot := j, rev := r, lastInt := some (T, span) }
  let s := setSlot d j r s
  let s := moveTo d (s.pos16 d r j) t (s.aheadSlots d 4 (j, r)) s
  setEdge d t (some T) (notePrimary d t s)

/-- Θ is set at the position `p16` of an edge at `t` (R118): a history of that edge alone. -/
def setTheta (d : Fin 8) (p16 : Nat) (t : Time) (ahead : Nat → List Nat) (s : State) : State :=
  let th := p16 + s.cycle16 d
  setPos d p16 (s.modDom d fun y => { y with hist := [⟨th, t⟩], intervals := 0, pred := none, ahead := ahead th })

/-- The revolution is assumed (R104): the one that began at the most recent slot 0 is r = 0. -/
def shiftRev (d : Fin 8) (s : State) : State :=
  let k := 16 * rev1
  let s := s.modDom d fun x => { x with rev := !x.rev, hist := x.hist.map (fun e => { e with theta := e.theta + k }),
                                        ahead := x.ahead.map (· + k) }
  setPos d ((s.bzl[d]).thetaK % s.cycle16 d) (s.setBool (BZL_STATE.rev d) (s.bzl[d]).rev)
def assumeRev (d : Fin 8) (s : State) : State :=
  let s := if (s.bzl[d]).rev then shiftRev d s else s
  (s.modDom d fun x => { x with revKnown := true }).raise (BZL_STATE.rev_assumed d)

/-- The edge at `t` is slot 0 (T2, T4, and a new slot 0 in GAP_FOUND). At T4 by the first primary edge of all there is no interval: the next edge
is judged by R98 alone and no overdue bound applies until then (DESIGN CHOICE, log entry 32). -/
def foundSlot0 (d : Fin 8) (t : Time) (T : Option Nat) (r known : Bool) (s : State) : State :=
  let s := closeRevolution d t s
  let span := s.spanNom d (s.prevSlot d 0) 0
  let s := s.modDom d fun x => { x with slot := 0, rev := r, revKnown := known, gapCross := 0, retained := false,
                                        confirm := 0, lastInt := T.map fun n => (n, span) }
  let s := setSlot d 0 r (s.clear (BZL_STATE.rev_assumed d))
  let s := setTheta d (s.pos16 d r 0) t (s.aheadSlots d 4 (0, r)) s
  let s := enter d stGap 0 (setEdge d t T (notePrimary d t s))
  let s := s.clear (BZL_STATE.pos_valid d)
  if known = false ∧ s.syncFlag d (BZL_SYNC.no_cam d) = true ∧ s.secEnabled d 0 = false then assumeRev d s else s

/-! ### SEEK -/

/-- One step of the search for the reference gap (T2, T3): the search after the edge, and whether the edge is slot 0, which T2 finds in sync_mode 0
alone. -/
def searchStep (s : State) (d : Fin 8) (x : Search) (t : Time) : Search × Bool :=
  match x.last, x.tPrev with
  | none, _ => ({ x with last := some t }, false)
  | some l, none => ({ x with last := some t, tPrev := some (t.toNat - l.toNat) }, false)
  | some l, some tp =>
    let T := t.toNat - l.toNat
    if !s.flag (BZL_CFG.sync_mode d) && decide (max 1 (s.inForce d (·.sync) (BZL_SYNC.seek_min d)) ≤ x.count) && s.fitsGap d T tp then
      ({ x with last := some t, tPrev := some T }, true)
    else ({ x with last := some t, tPrev := some T,
                   count := if inWindow (s.windowNorm d) T tp 1 then x.count + 1 else 0 }, false)

/-- The domain goes to SEEK at a primary edge, which is SEEK's first edge (R103). -/
def seekFrom (d : Fin 8) (t : Time) (reason : BitVec 4) (s : State) : State :=
  let s := enter d stSeek reason s
  setEdge d t none (notePrimary d t (s.modDom d fun x => { x with search := { Search.reset with last := some t } }))

/-- The revolution of T4: the r whose slot 0 angle is the first to follow the sync entry's angle going forward. -/
def syncRev (s : State) (d : Fin 8) : Bool :=
  let a := 16 * s.secAngle d 0 (s.syncEntry d)
  decide (gap16 (s.cycle16 d) a (s.pos16 d true 0) < gap16 (s.cycle16 d) a (s.pos16 d false 0))

/-- A primary edge in SEEK (T2, T3, T4), of either direction: these rows ask for none. -/
def seekEdge (d : Fin 8) (t : Time) (s : State) : Decision :=
  let x := s.bzl[d]
  let T := x.search.last.map fun l => t.toNat - l.toNat
  let (y, slot0) := searchStep s d x.search t
  if s.flag (BZL_CFG.sync_mode d) && x.syncArmed then (foundSlot0 d t T (syncRev s d) true s, false, 0)
  else if slot0 then (foundSlot0 d t T false (s.cycleAu d = rev1) s, false, 0)
  else (setEdge d t T (notePrimary d t (s.modDom d fun z => { z with search := y })), false, 0)

/-! ### SYNC and GAP_FOUND -/

/-- Enter SYNC (T7), arming what is due (R126). -/
def syncNow (d : Fin 8) (s : State) : State := armDue d (enter d stSync 0 s)

/-- T7 without a retained hypothesis. -/
def State.confirmed (s : State) (d : Fin 8) : Bool :=
  let x := s.bzl[d]
  s.dState d == stGap && !x.retained && x.revKnown && decide (s.inForce d (·.sync) (BZL_SYNC.confirm_teeth d) ≤ x.confirm)

/-- A forward primary edge in GAP_FOUND (T6, T7, T8). The wrap that a slot 0 edge of T7 makes is one of the candidate position and is not counted in
BZL_CYCLES (DESIGN CHOICE, log entry 32: R94 counts wraps in SYNC and leaves out those in GAP_FOUND). -/
def gapEdge (d : Fin 8) (t : Time) (s : State) : Decision :=
  let x := s.bzl[d]
  let T := t.toNat - (x.lastPri.getD t).toNat
  let j := s.nextSlot d x.slot
  let newSlot0 := match x.lastInt with
    | some (tl, _) => x.retained && j != 0 && !s.flag (BZL_CFG.sync_mode d) && s.fitsGap d T tl
    | none => false
  if newSlot0 then (foundSlot0 d t (some T) false (s.cycleAu d = rev1) s, false, 0)
  else
    let ok := match x.lastInt with
      | some (tl, span) => inWindow (s.window d j) T (tl * s.spanNom d x.slot j) span
      | none => decide (3200 ≤ T)
    if ok = false then (seekFrom d t 0 (s.raise (BZL_FLAGS.violation d)), false, 0)
    else
      let s := advance d t T j s
      if x.retained then
        if j ≤ x.slot then
          (syncNow d (learnWhole d ((s.modDom d fun y => { y with retained := false }).raise (BZL_FLAGS.resumed d))), true, 0)
        else (s, false, 0)
      else
        let s := s.modDom d fun y =>
          { y with confirm := y.confirm + 1, gapCross := if j ≤ x.slot then y.gapCross + 1 else y.gapCross }
        let s := if s.syncFlag d (BZL_SYNC.no_cam d) && !(s.bzl[d]).revKnown && decide (2 ≤ (s.bzl[d]).gapCross) then assumeRev d s else s
        if s.confirmed d then (syncNow d (if j ≤ x.slot then learnWhole d s else s), true, 0) else (s, false, 0)

/-- A forward primary edge in SYNC (T9, T10). -/
def syncEdge (d : Fin 8) (t : Time) (s : State) : Decision :=
  let x := s.bzl[d]
  let T := t.toNat - (x.lastPri.getD t).toNat
  let j := s.nextSlot d x.slot
  let p := match x.pred with | some p => p.p | none => 0
  if inWindow (s.window d j) T p 1 then
    (armDue d (reproject d (advance d t T j s)), true, 0)
  else (setEdge d t (some T) (notePrimary d t (enter d stLost 1 (s.raise (BZL_FLAGS.violation d)))), false, 1)

/-- A forward edge that leaves STALL or REVERSE (T20, T21, T25): with a kept position and resume = 1 it crosses the next
present slot of a retained hypothesis. -/
def leaveStall (d : Fin 8) (t : Time) (s : State) : Decision :=
  let x := s.bzl[d]
  let T := x.lastPri.map fun l => t.toNat - l.toNat
  if s.flag (BZL_STATE.pos_valid d) && s.syncFlag d (BZL_SYNC.resume d) then
    if (match T with | some n => decide (n < 3200) | none => false) then (s, false, 0)
    else
      let s := s.clear (BZL_STATE.dir d)
      let (j, r) := s.nextTooth d (x.slot, x.rev)
      let s := if j ≤ x.slot then installMap d s else s
      let s := s.modDom d fun y => { y with slot := j, rev := r, revKnown := true, retained := true, confirm := 0,
                                            gapCross := 0, lastInt := none }
      let s := setSlot d j r s
      let s := setTheta d (s.pos16 d r j) t (s.aheadSlots d 4 (j, r)) s
      (enter d stGap 0 (setEdge d t T (notePrimary d t s)), false, 0)
  else (seekFrom d t 0 (s.clear (BZL_STATE.dir d)), false, 0)

/-- A reverse edge in SYNC, STALL or REVERSE (R109; T13, T22, T24): it crosses the current slot. One less than 3,200 units after the edge before it is
outside every window (R98) and is discarded in each of these states; in SYNC it fits both T10 and T13, and the model takes neither (DESIGN CHOICE,
log entry 32). -/
def reverseEdge (d : Fin 8) (t : Time) (reason : BitVec 4) (s : State) : Decision :=
  let x := s.bzl[d]
  let T := x.lastPri.map fun l => t.toNat - l.toNat
  if (match T with | some n => decide (n < 3200) | none => false) then (s, false, 0)
  else
    let s := enter d stReverse reason s
    let s := s.raise (BZL_STATE.dir d)
    let ofs := signExt 16 (s.get (BZL_DIR.rev_ofs d))
    let p : Nat := (((s.pos16 d x.rev x.slot : Int) + 16 * ofs) % (s.cycle16 d : Int)).toNat
    let s := setPos d p (setSlot d x.slot x.rev s)
    let r := if x.slot = 0 ∧ s.cycleAu d = 2 * rev1 then !x.rev else x.rev
    let s := s.modDom d fun y => { y with slot := s.prevSlot d x.slot, rev := r }
    (setEdge d t T (notePrimary d t s), false, reason)

/-! ### LIMP_CAM -/

/-- The member of a residue class nearest to `a` (the signed difference of R118 for T17). -/
def nearest (c a p : Nat) : Nat :=
  let f := (p % c + c - a % c) % c
  if 2 * f < c then a + f else a + f - c

/-- Enter LIMP_CAM: the position comes from wheel-0 entry `j`; `pts` are the wheel-0 edges known, newest first, as
(entry, time); Θ is placed nearest to `near`, or at its first value. -/
def enterLimp (d : Fin 8) (pts : List (Nat × Time)) (near : Option Nat) (reason : BitVec 4) (s : State) : State :=
  let s := enter d stLimp reason s
  match pts with
  | [] => s
  | (j, t) :: r =>
    let c := s.cycle16 d
    let p := s.limpPos16 d j
    let th := match near with | some a => nearest c a p | none => p + c
    let s := s.modDom d fun x => { x with limpIdx := j, hist := [⟨th, t⟩], intervals := 0, pred := none,
                                          ahead := s.aheadCams d 4 j th, lastInt := none, back := Search.reset }
    let s := setEdge d t none (setPos d p s)
    match r with
    | [] => s
    | (i, u) :: _ =>
      let g := s.camGap d i j
      let s := s.modDom d fun x => { x with hist := [⟨th, t⟩, ⟨th - g, u⟩], lastInt := some (t.toNat - u.toNat, g) }
      refreshPredictor d s

/-- The primary wheel is lost in SYNC: T12 with limp_en and cam_track, otherwise T11. -/
def loseInSync (d : Fin 8) (s : State) : Decision :=
  if s.syncFlag d (BZL_SYNC.limp_en d) && s.flag (BZL_STATE.cam_track d) then
    let s := s.modDom d fun x => { x with phiF := (s.rd (BZL_CAM_AVG d 0)).toInt }
    let x := s.bzl[d]
    (armDue d (reproject d (enterLimp d x.cam0 (some x.thetaK) 6 s)), false, 6)
  else (enter d stStall 2 s, false, 2)

/-- The present slot at or before a position, for a STALL that keeps the position of LIMP_CAM (T19). -/
def slotAt (s : State) (d : Fin 8) (p16 : Nat) : Nat × Bool :=
  let c := s.cycle16 d
  let cand := (List.range (s.slots d)).filter (s.present d)
  let behind (x : Nat × Bool) : Nat := (p16 % c + c - s.pos16 d x.2 x.1) % c
  let all := (cand.map fun i => (i, false)) ++ (if c = 32 * rev1 then cand.map fun i => (i, true) else [])
  all.foldl (fun b x => if behind x < behind b then x else b) (0, false)

/-- T8, T11, T12 or T19, whichever fits the state: an overdue or a stuck primary input. -/
def loseEdge (d : Fin 8) (s : State) : Decision :=
  let st := s.dState d
  if st = stGap then (enter d stSeek 0 s, false, 0)
  else if st = stSync then loseInSync d s
  else (s, false, 0)

/-- T17: the primary wheel is reacquired; the last edge of the background search is edge k. Θ moves from the cam-derived position at `t` by the
difference of R118; a forward wrap since the last edge is counted (R94), nothing is armed (R126), and a slot 0 edge begins a revolution of learning
(R111). -/
def reacquire (d : Fin 8) (t : Time) (b : Search) (s : State) : Decision :=
  let x := s.bzl[d]
  let c := s.cycle16 d
  let i := b.slot.getD 0
  let placed := (x.angleAt c t).getD x.thetaK
  let off (r : Bool) : Nat :=
    let q := nearest c (placed + c) (s.pos16 d r i)
    ((q : Int) - (placed + c : Nat)).natAbs
  let r := decide (s.cycleAu d = 2 * rev1) && decide (off true < off false)
  let p := s.pos16 d r i
  let th := nearest c placed p
  let base := match b.hist with | e :: _ => e.theta | [] => 0
  let hist := b.hist.map fun e => { e with theta := th + e.theta - base }
  let last := match b.hist with
    | e :: f :: _ => some (e.time.toNat - f.time.toNat, s.spanNom d (s.prevSlot d i) i)
    | _ => none
  let s := if x.thetaK / c < th / c then cycleWrap d s else s
  let s := enter d stSync 0 s
  let s := s.modDom d fun y => { y with slot := i, rev := r, revKnown := true, retained := false, hist := hist, arming := false,
                                        intervals := min 2 (hist.length - 1), ahead := s.aheadSlots d 4 (i, r) th,
                                        lastInt := last, back := Search.reset }
  let s := if i = 0 then learnWhole d (closeRevolution d t s) else s
  let s := setPos d p (setSlot d i r (refreshPredictor d s))
  (setEdge d t (last.map (·.1)) (s.raise (BZL_FLAGS.resumed d)), true, 0)

/-- A primary edge in LIMP_CAM: the background search of R106 (T2, T3, T6, T17); once slot 0 has been found a reverse edge, like one outside its
window, starts it again (T8). -/
def limpPrimary (d : Fin 8) (t : Time) (rev : Bool) (s : State) : Decision :=
  let b := (s.bzl[d]).back
  let s := notePrimary d t s
  let done (b : Search) (s : State) : Decision :=
    if s.inForce d (·.sync) (BZL_SYNC.confirm_teeth d) ≤ b.since then reacquire d t b s
    else (s.modDom d fun y => { y with back := b }, false, 0)
  match b.slot with
  | none =>
    let (b', slot0) := searchStep s d b t
    if slot0 then
      let span := s.toothSpan d (s.prevSlot d 0) 0
      done { b' with slot := some 0, since := 0, hist := [⟨16 * rev1, t⟩, ⟨16 * rev1 - span, b.last.getD t⟩] } s
    else (s.modDom d fun y => { y with back := b' }, false, 0)
  | some i =>
    let j := s.nextSlot d i
    let T := t.toNat - (b.last.getD t).toNat
    if !rev && inWindow (s.window d j) T (b.tPrev.getD 0 * s.spanNom d i j) (s.spanNom d (s.prevSlot d i) i) then
      let th := (match b.hist with | e :: _ => e.theta | [] => 0) + s.toothSpan d i j
      done { b with last := some t, tPrev := some T, slot := some j, since := b.since + 1, hist := (⟨th, t⟩ :: b.hist).take 3 } s
    else (s.modDom d fun y => { y with back := { Search.reset with last := some t } }, false, 0)

/-- A wheel-0 edge in LIMP_CAM (T16, T18). -/
def limpEdge (d : Fin 8) (t : Time) (s : State) : Decision :=
  let x := s.bzl[d]
  let T := t.toNat - x.tK.toNat
  let j := s.nextCam d x.limpIdx
  let g := s.camGap d x.limpIdx j
  let ok := match x.lastInt with
    | some (tl, span) => inRatio (s.windowNorm d) T (tl * g) span
    | none => true
  if ok = false then
    (setEdge d t (some T) (enter d stLost 1 (s.raise (BZL_FLAGS.violation d))), false, 1)
  else
    let s := s.modDom d fun y => { y with limpIdx := j, lastInt := some (T, g) }
    let s := moveTo d (s.limpPos16 d j) t (s.aheadCams d 4 j) s
    (armDue d (reproject d (setEdge d t (some T) s)), true, 0)

/-- A wheel-0 edge during the limp watch (R107; T5). -/
def watchEdge (d : Fin 8) (t : Time) (rising : Bool) (s : State) : Decision :=
  let x := s.bzl[d]
  let w := x.watch
  let k := s.syncEntry d
  let j := s.nextCam d k
  match w.last with
  | none => (s.modDom d fun y => { y with watch := { w with last := some t } }, false, 0)
  | some l =>
    let T := t.toNat - l.toNat
    if w.cand then
      let before := (k + s.secEdges d 0 - 1) % s.secEdges d 0
      if inRatio (s.windowNorm d) T (w.interval.getD 0 * s.camGap d k j) (s.camGap d before k) then
        let s := s.modDom d fun y => { y with phiF := 0 }
        let s := enterLimp d [(j, t), (k, l)] none 0 s
        let s := s.modDom d fun y => { y with watch := LimpWatch.reset }
        (setEdge d t (some T) s, true, 0)
      else (s.modDom d fun y => { y with watch := { LimpWatch.reset with on := true, last := some t } }, false, 0)
    else
      let cand := match w.interval with
        | some v => rising == s.secRising d 0 k && decide (s.inForce d (·.limp) (BZL_LIMP.ratio d) * v ≤ 4096 * T)
        | none => false
      (s.modDom d fun y => { y with watch := { w with last := some t, interval := some T, cand := cand } }, false, 0)

/-! ### Cam phase (R114) -/

/-- The entry of wheel `w` that an edge at whole angle `th` matches, with its phase: of one polarity, within the limits,
the smallest magnitude. -/
def camMatch (s : State) (d : Fin 8) (w : Nat) (rising : Bool) (th : Nat) : Option (Nat × Int) :=
  let c : Int := 2 * rev1
  (List.range (s.secEdges d w)).foldl (fun best j =>
    let ph : Int := ((th : Int) - s.secAngle d w j + rev1) % c - rev1
    if s.secRising d w j == rising && decide ((s.rd (BZL_SEC_PMIN d w)).toInt ≤ ph) && decide (ph ≤ (s.rd (BZL_SEC_PMAX d w)).toInt) then
      match best with
      | some (_, b) => if ph.natAbs < b.natAbs then some (j, ph) else best
      | none => some (j, ph)
    else best) none

/-- The whole angle at which an edge time lies, if the predictor places it (R114). -/
def placeAu (s : State) (d : Fin 8) (t : Time) : Option Nat :=
  ((s.bzl[d]).angleAt (s.cycle16 d) t).map fun th => th / 16 % s.cycleAu d

/-- The other revolution's angle. -/
def otherRev (th : Nat) : Nat := (th + rev1) % (2 * rev1)

/-- A secondary edge in SYNC (R114, R116). -/
def camEdge (d : Fin 8) (w : Fin 4) (t : Time) (rising : Bool) (s : State) : Decision :=
  match placeAu s d t with
  | none => (s, false, 0)
  | some th =>
    match camMatch s d w rising th with
    | some (j, ph) =>
      let s := (((s.wr (BZL_CAM_LAST d w) (wordOfInt ph)).set (BZL_CAM_INFO.idx d w) j).wr64 (BZL_CAM_TIME d w) t)
      let s := s.modDom d fun x => { x with phases := vmod x.phases w (ph :: ·) }
      let s := if w = 0 then
          (s.modDom d fun x => { x with camRun := 0, camSeen := true, cam0 := ((j, t) :: x.cam0).take 2 }).raise (BZL_STATE.cam_track d)
        else s
      (bezelCause d (BZL_BIND.cam_en d) .cam s, false, 0)
    | none =>
      let s := bezelCause d (BZL_BIND.cam_en d) .cam (s.raise (BZL_FLAGS.cam_err d))
      if w = 0 then
        let s := s.raiseIf (camMatch s d 0 rising (otherRev th)).isSome (BZL_FLAGS.rev_err d)
        let s := (s.modDom d fun x => { x with camRun := x.camRun + 1 }).clear (BZL_STATE.cam_track d)
        let n := s.inForce d (·.sync) (BZL_SYNC.cam_lost_lim d)
        if n ≠ 0 ∧ n ≤ (s.bzl[d]).camRun then (enter d stLost 13 s, false, 13) else (s, false, 0)
      else (s, false, 0)

/-- A wheel-0 edge in GAP_FOUND while the revolution is unresolved (R104). -/
def resolveEdge (d : Fin 8) (t : Time) (rising : Bool) (s : State) : Decision :=
  match placeAu s d t with
  | none => (s, false, 0)
  | some th =>
    let m0 := (camMatch s d 0 rising th).isSome
    let m1 := (camMatch s d 0 rising (otherRev th)).isSome
    if m0 = m1 then (s, false, 0)
    else
      let s := if m1 then shiftRev d s else s
      let s := s.modDom d fun x => { x with revKnown := true }
      if s.confirmed d then camEdge d 0 t rising (syncNow d s) else (s, false, 0)

/-! ### Bounds (R99) -/

/-- Filter length of an edge source. -/
def State.sourceLen (s : State) : EdgeSource → Nat
  | .whl n => s.get (WHL_FILT.len n)
  | .facet n => s.get (FCT_FILT.len n)

/-- The time past which the domain is overdue, for the primary wheel or for wheel 0 in LIMP_CAM (R99). -/
def State.overdueBound (s : State) (d : Fin 8) : Option Nat :=
  let x := s.bzl[d]
  let st := s.dState d
  if 4 ≤ d.val ∨ s.flag (BZL_CTRL.en d) = false then none
  else if st = stGap then
    let j := s.nextSlot d x.slot
    x.lastInt.map fun (tl, span) => (x.lastPri.getD 0).toNat + (s.window d j).2 * (tl * s.spanNom d x.slot j) / (4096 * span)
  else if st = stSync then
    x.pred.map fun p => x.tK.toNat + (s.window d (s.nextSlot d x.slot)).2 * p.p / 4096
  else if st = stLimp then
    let j := s.nextCam d x.limpIdx
    x.lastInt.map fun (tl, span) => x.tK.toNat + (s.windowNorm d).2 * (tl * s.camGap d x.limpIdx j) / (4096 * span)
  else none

/-- The first waiting wheel-0 edge. -/
def Domain.wheel0In (x : Domain) : Option SecEdge := x.secIn.find? fun e => e.wheel == 0

/-- The overdue falls due for decision (R99): no edge at or before the bound has come, and the bound lies 3 + L cycles
back. -/
def State.overdueDue (s : State) (d : Fin 8) : Bool :=
  match s.overdueBound d with
  | none => false
  | some b =>
    let limp := s.dState d == stLimp
    let len := s.sourceLen (if limp then s.secSource d 0 else s.priSource d)
    let early := if limp then (match (s.bzl[d]).wheel0In with | some e => decide (e.time.toNat ≤ b) | none => false)
      else (match (s.bzl[d]).priIn with | e :: _ => decide (e.time.toNat ≤ b) | [] => false)
    !early && decide (b + 8 * (3 + len) < s.now.toNat)

/-- A waiting edge at `t` is held behind an overdue still to be decided (R99). -/
def State.heldBack (s : State) (d : Fin 8) (t : Time) : Bool :=
  match s.overdueBound d with | some b => decide (b < t.toNat) | none => false

/-! ### The decisions -/

/-- PRIMARY_EDGE_DECISION (R97–R103): the oldest waiting primary edge is decided, by the settings as they stand now (R96), unless its direction or
an overdue is awaited. The first forward edge clears dir (R109). -/
def primaryDecision (d : Fin 8) (s : State) : State :=
  match (s.bzl[d]).priIn with
  | [] => s
  | ⟨t, dir⟩ :: r =>
    let st := s.dState d
    match dir with
    | none => s
    | some rev =>
      if st ≠ stLimp ∧ s.heldBack d t = true then s
      else
        let s := takeSettings d (s.modDom d fun x => { x with priIn := r })
        let fast := match (s.bzl[d]).lastPri with | some l => decide (t.toNat - l.toNat < 4000) | none => false
        let s := s.raiseIf fast (BZL_FLAGS.overspeed d)
        let s := if rev ∨ st = stStall ∨ st = stReverse then s else s.clear (BZL_STATE.dir d)
        let dec : Decision :=
          if st = stSeek then seekEdge d t s
          else if st = stLimp then limpPrimary d t rev s
          else if st = stLost then
            (if s.syncFlag d (BZL_SYNC.auto_reseek d) then (seekFrom d t 0 s, false, 0) else (s, false, 0))
          else if rev then
            if st = stGap then (seekFrom d t 0 s, false, 0)
            else if st = stSync then reverseEdge d t 3 s
            else if st = stReverse ∨ s.flag (BZL_STATE.pos_valid d) = true then reverseEdge d t 0 s
            else (s, false, 0)
          else if st = stGap then gapEdge d t s
          else if st = stSync then syncEdge d t s
          else leaveStall d t s
        conclude d st t dec

/-- Count the angle counters of a domain up to running angle `th` (R42: CNT_CTRL.sel[2:0] names the domain). -/
def countTo (d : Fin 8) (th : Nat) (step : Bool) (s : State) : State :=
  forAll 32 (fun n s =>
    if s.ctlWas n (CNT_CTRL.src n) = 2 ∧ s.ctlWas n (CNT_CTRL.sel n) % 8 = d.val then countAngle n th step s else s) s

/-- Count the angle counters of a domain up to the live position. -/
def countDomain (d : Fin 8) (step : Bool) (s : State) : State := countTo d (s.liveTheta d) step s

/-- The move of the live position that a decision makes counts in its cycle; the step of T17 is no shaft motion (R44). `was`: the state
before. -/
def countMove (d : Fin 8) (was : Nat) (s : State) : State :=
  if s.tracking d then countDomain d (was == stLimp && s.dState d == stSync) s else s
def execPrimaryEdgeDecision (d : Fin 8) (s : State) : Result := .next (countMove d (s.dState d) (primaryDecision d s))

/-- The next secondary edge to decide: the waiting edges in wheel order (R100). -/
def Domain.nextSec (x : Domain) : Option SecEdge :=
  ((List.finRange 4).map fun w => x.secIn.find? fun e => e.wheel == w).findSome? id

/-- Remove the first waiting edge of a wheel. -/
def dropFirst (w : Fin 4) : List SecEdge → List SecEdge
  | [] => []
  | e :: r => if e.wheel = w then r else e :: dropFirst w r

/-- A limp start may be attempted (R107): limp_en and limp_start, both at 1. -/
def State.limpStart (s : State) (d : Fin 8) : Bool := s.syncFlag d (BZL_SYNC.limp_en d) && s.syncFlag d (BZL_SYNC.limp_start d)

/-- SECONDARY_EDGE_DECISION (R104, R107, R114, T16–T18). In LIMP_CAM a wheel-0 edge past the bound is held. -/
def secondaryDecision (d : Fin 8) (s : State) : State :=
  match (s.bzl[d]).nextSec with
  | none => s
  | some ⟨w, t, rising⟩ =>
    let st := s.dState d
    if st = stLimp ∧ w = 0 ∧ s.heldBack d t = true then s
    else
      let s := takeSettings d (s.modDom d fun x => { x with secIn := dropFirst w x.secIn })
      let dec : Decision :=
        if st = stSync then camEdge d w t rising s
        else if w ≠ 0 then (s, false, 0)
        else if st = stLimp then limpEdge d t s
        else if st = stGap then (if (s.bzl[d]).revKnown then (s, false, 0) else resolveEdge d t rising s)
        else if st = stSeek then
          let arm := s.flag (BZL_CFG.sync_mode d) && rising == s.secRising d 0 (s.syncEntry d)
          let s := if arm then s.modDom d fun x => { x with syncArmed := true } else s
          if (s.bzl[d]).watch.on = false then (s, false, 0)
          else if s.limpStart d then watchEdge d t rising s
          else (s.modDom d fun x => { x with watch := LimpWatch.reset }, false, 0)
        else (s, false, 0)
      conclude d st t dec
def execSecondaryEdgeDecision (d : Fin 8) (s : State) : Result := .next (countMove d (s.dState d) (secondaryDecision d s))

/-- OVERDUE (R99): T8, T11, T12 or T19. -/
def overdueDecision (d : Fin 8) (s : State) : State :=
  if s.overdueDue d = false then s
  else
    let st := s.dState d
    let s := s.raise (BZL_FLAGS.overdue d)
    let dec : Decision :=
      if st = stLimp then
        let s := enter d stStall 2 s
        let (i, r) := slotAt s d (16 * (s.rd (BZL_POS d)).toNat)
        (s.modDom d fun x => { x with slot := i, rev := r }, false, 2)
      else loseEdge d s
    conclude d st s.now dec
def execOverdue (d : Fin 8) (s : State) : Result := .next (countMove d (s.dState d) (overdueDecision d s))

/-- The stuck detector of a primary input has fired (R110). -/
def primaryStuck (d : Fin 8) (s : State) : State :=
  let st := s.dState d
  let s := (s.raise (BZL_FLAGS.pri_stuck d)).modDom d fun x => { x with stuckSeen := true }
  conclude d st s.now (loseEdge d s)

/-- The stuck detector of an input has fired: every enabled local domain with that primary input sees it. -/
def inputStuck (src : EdgeSource) (s : State) : State :=
  forAll 4 (fun k s =>
    let d : Fin 8 := k.castLE (by decide)
    if s.flag (BZL_CTRL.en d) && s.priSource d == src then primaryStuck d s else s) s

/-- KEEP_EXPIRY (R110, T23): a local domain's alone (R90). -/
def State.keepDue (s : State) (d : Fin 8) : Bool :=
  let st := s.dState d
  decide (d.val < 4) && (st == stStall || st == stReverse) && s.flag (BZL_STATE.pos_valid d) &&
    (match (s.bzl[d]).lastPri with
      | some t => decide (s.inForce d (·.stall) (BZL_STALL.keep d) ≤ s.tally - tallyOf t)
      | none => true)
def keepExpiry (d : Fin 8) (s : State) : State :=
  if s.keepDue d then conclude d (s.dState d) s.now ((enter d stStall 0 s).clear (BZL_STATE.pos_valid d), false, 0) else s
def execKeepExpiry (d : Fin 8) (s : State) : Result := .next (keepExpiry d s)

/-- LIMP_WATCH_START (R107). -/
def State.limpWatchDue (s : State) (d : Fin 8) : Bool :=
  let x := s.bzl[d]
  let since := match x.lastPri with | some t => tallyOf t | none => x.watchFrom
  decide (d.val < 4) && s.dState d == stSeek && s.flag (BZL_CTRL.en d) && s.limpStart d && s.secEnabled d 0 && !x.watch.on && (x.stuckSeen || decide (s.inForce d (·.limp) (BZL_LIMP.start_wait d) ≤ s.tally - since))
def limpWatchStart (d : Fin 8) (s : State) : State :=
  if s.limpWatchDue d then s.modDom d fun x => { x with watch := { LimpWatch.reset with on := true } } else s
def execLimpWatchStart (d : Fin 8) (s : State) : Result := .next (limpWatchStart d s)

/-! ### Host commands -/

/-- DOMAIN_ENABLE (R93, T1): validation, then SEEK; else tbl_err. A mirror's tables are ignored (R90), so nothing is left to validate. -/
def domainEnable (d : Fin 8) (s : State) : State :=
  if s.flag (BZL_CTRL.en d) then s
  else if d.val ≥ 4 ∨ s.tablesValid d = true then
    enter d stSeek 0 ((takeSettings d (s.raise (BZL_CTRL.en d))).modDom d fun x =>
      { x with priIn := [], secIn := [], lastPri := none, stuckSeen := false, watchFrom := s.tally })
  else s.raise (BZL_FLAGS.tbl_err d)
def execDomainEnable (d : Fin 8) (s : State) : Result := .next (domainEnable d s)

/-- DOMAIN_DISABLE (T1, R101): drafts withdrawn with reason 4; a written map that waits is applied (R113). A mirror's next cell after it is enabled
again sets Θ anew (log entry 34). -/
def domainDisable (d : Fin 8) (s : State) : State :=
  if s.flag (BZL_CTRL.en d) = false then s
  else
    let st := s.dState d
    let s := applyWrittenMap d (((enter d stSeek 4 s).clear (BZL_CTRL.en d)).clear (BZL_MIR_STAT.coasting d))
    conclude d st s.now
      (s.modDom d (fun x => { x with priIn := [], secIn := [], lastPri := none, cells := [], real := none, fresh := true, arming := false }), false, 4)
def execDomainDisable (d : Fin 8) (s : State) : Result := .next (domainDisable d s)

/-- RESEEK (T15, T26). -/
def reseek (d : Fin 8) (s : State) : State :=
  let st := s.dState d
  if s.flag (BZL_CTRL.en d) = false ∨ 4 ≤ d.val then s
  else if st = stSync ∨ st = stLimp ∨ st = stStall ∨ st = stReverse then conclude d st s.now (enter d stSeek 4 s, false, 4)
  else if st = stLost then conclude d st s.now (enter d stSeek 0 s, false, 0)
  else s
def execReseek (d : Fin 8) (s : State) : Result := .next (reseek d s)

/-- FLIP_REV (R118, T14): in SYNC of a 720° domain. -/
def flipRev (d : Fin 8) (s : State) : State :=
  if s.dState d = stSync ∧ s.cycleAu d = 2 * rev1 ∧ d.val < 4 then
    countDomain d true (shiftRev d (countDomain d false (withdraw d 5 false s)))
  else s
def execFlipRev (d : Fin 8) (s : State) : Result := .next (flipRev d s)

/-- MAP_CLEAR (R113). -/
def mapClear (d : Fin 8) (s : State) : State :=
  if 4 ≤ d.val then s
  else
    let t := s.modDom d fun x => { x with mapW := [], mapPending := some false }
    if s.flag (BZL_CTRL.en d) then t else applyWrittenMap d t
def execMapClear (d : Fin 8) (s : State) : Result := .next (mapClear d s)

/-- A write of BZL_CMD; map_clear, flip_rev, reseek in this order. -/
def bzlCmdWrite (d : Fin 8) (v : Word) (s : State) : State :=
  let b (f : Fld) : Bool := fieldOf v f = 1
  let s := if b (BZL_CMD.map_clear d) then mapClear d s else s
  let s := if b (BZL_CMD.flip_rev d) then flipRev d s else s
  if b (BZL_CMD.reseek d) then reseek d s else s

/-- A write of BZL_CTRL. -/
def bzlCtrlWrite (d : Fin 8) (v : Word) (s : State) : State :=
  if fieldOf v (BZL_CTRL.en d) = 1 then domainEnable d s else domainDisable d s

/-- The index advances after each access to BZL_TBL_DATA. -/
def tableStep (d : Fin 8) (s : State) : State := s.set (BZL_TBL_IDX.index d) (s.get (BZL_TBL_IDX.index d) + 1)

/-- The table entry that BZL_TBL_IDX names (R96, R113). -/
def tableEntry (d : Fin 8) (s : State) : Word :=
  let i := s.get (BZL_TBL_IDX.index d)
  match s.get (BZL_TBL_IDX.table d) with
  | 0 => s.priEntry d i
  | 1 => wordOfInt (Sparse.get (fun _ => 0) (s.bzl[d]).mapW i)
  | 2 => Sparse.get (fun _ => 0) (s.bzl[d]).sec (i % 256)
  | _ => 0

/-- Write of the table entry: primary and secondary tables only while en = 0 (R96), the map only while mode = 0, never
entry 0 (R113). -/
def tableWrite (d : Fin 8) (v : Word) (s : State) : State :=
  let i := s.get (BZL_TBL_IDX.index d)
  let en := s.flag (BZL_CTRL.en d)
  match s.get (BZL_TBL_IDX.table d) with
  | 0 => if en then s else s.modDom d fun x => { x with pri := Sparse.put (fun _ => 0) x.pri i (v &&& 0x800FFFFF) }
  | 1 =>
    if s.get (BZL_MAP_CTRL.mode d) ≠ 0 ∨ i = 0 then s
    else
      let e := signExt 16 v.toNat
      let s := s.modDom d fun x => { x with mapW := Sparse.put (fun _ => 0) x.mapW i e, mapPending := some true }
      if en then s else applyWrittenMap d s
  | 2 => if en then s else s.modDom d fun x => { x with sec := Sparse.put (fun _ => 0) x.sec (i % 256) (v &&& 0x601FFFFF) }
  | _ => s

/-- TABLE_DATA_ACCESS (R96): a read (`none`) or a write. -/
def tableAccess (d : Fin 8) (w : Option Word) (s : State) : State :=
  match w with
  | none => tableStep d { s with read := [tableEntry d s] }
  | some v => tableStep d (tableWrite d v s)
def execTableDataAccess (d : Fin 8) (w : Option Word) (s : State) : Result := .next (tableAccess d w s)

/-- EDGE_TIME_READ (R466): the high word, BZL_POS and BZL_PERIOD are latched, each for one read. -/
def edgeTimeRead (d : Fin 8) (s : State) : Word × State :=
  let x := s.rd64 (BZL_EDGE_TIME d)
  let l := Sparse.put noLatch s.latch (BZL_EDGE_TIME d + 4) (some (hiWord x))
  let l := Sparse.put noLatch l (BZL_POS d) (some (s.rd (BZL_POS d)))
  let l := Sparse.put noLatch l (BZL_PERIOD d) (some (s.rd (BZL_PERIOD d)))
  (loWord x, ({ s with latch := l }).modDom d fun y => { y with latched := [BZL_EDGE_TIME d + 4, BZL_POS d, BZL_PERIOD d] })
def execEdgeTimeRead (d : Fin 8) (s : State) : Result :=
  let (v, s) := edgeTimeRead d s
  .next { s with read := [v] }

/-- A read of one of the three registers that BZL_EDGE_TIME latches: the latched value once, then the live one (R466). -/
def latchedOnce (d : Fin 8) (off : Nat) (s : State) : Word × State :=
  if (s.bzl[d]).latched.contains off then
    (s.latched off, s.modDom d fun y => { y with latched := y.latched.filter (· != off) })
  else (s.rd off, s)

/-- BZL_CAM_INFOw as read: valid in SYNC. -/
def camInfoRead (d : Fin 8) (w : Nat) (s : State) : Word :=
  withField (s.rd (BZL_CAM_INFO d w)) (BZL_CAM_INFO.valid d w) (s.dState d == stSync).toNat

/-- A write of BZL_MAP_CTRL: a new mode lets a finished mode 1 learn again. -/
def mapCtrlWrite (d : Fin 8) (v : Word) (s : State) : State :=
  let m := s.get (BZL_MAP_CTRL.mode d)
  let s := s.plainWrite (BZL_MAP_CTRL d) v
  if s.get (BZL_MAP_CTRL.mode d) = m then s
  else s.modDom d fun x => { x with learn := { x.learn with stopped := false } }

/-- Registers that may be written only while the domain is disabled (R96). -/
def cfgWrite (d : Fin 8) (off : Nat) (v : Word) (s : State) : State :=
  if s.flag (BZL_CTRL.en d) then s else s.plainWrite off v

/-! ### WHL inputs (R91, R92) -/

def State.whlOn (s : State) (n : Fin 8) : Bool := s.get (WHL_CFG.mode n) != 0

/-- WHL_EDGE_ACCEPT (R92). -/
def whlAccept (n : Fin 8) (s : State) : State :=
  match (s.whl[n]).inp.dueFlight s.tb.cyc with
  | none => s
  | some x =>
    let s := s.modWhl n fun w => { w with inp := { w.inp with flight := w.inp.flight.drop 1 }.setLevel s.tb.boundary x.level }
    if x.silent then s
    else
      let (p, v) := (s.whl[n]).inp.judge x.time s.tally (s.get (WHL_RATE.max n)) (s.get (WHL_RATE.hold n)) (s.flag (WHL_RATE.latch n))
      let s := s.modWhl n fun w => { w with inp := p }
      match v with
      | .muted => s
      | .muteBegins => (s.incSat (WHL_RATE.mute_cnt n)).raise (WHL_STAT.muted n)
      | .accepted => bezelEdge (.whl n) x.time x.cyc x.level s
def execWhlEdgeAccept (n : Fin 8) (s : State) : Result := .next (whlAccept n s)

/-- WHL_MUTE_END (R79, R92). -/
def whlMuteEnd (n : Fin 8) (s : State) : State :=
  s.modWhl n fun w =>
    if w.inp.muteNow && !w.inp.muteLatched && decide (w.inp.muteUntil ≤ s.tally) then { w with inp := { w.inp with muteNow := false } } else w
def execWhlMuteEnd (n : Fin 8) (s : State) : Result := .next (whlMuteEnd n s)

/-- WHL_STUCK_DETECT (R81, R92, R110). -/
def whlStuck (n : Fin 8) (s : State) : State :=
  if s.whlOn n && (s.whl[n]).inp.stuckDue (s.get (WHL_FILT.stuck_lim n)) then
    let s := s.modWhl n fun w => { w with inp := { w.inp with stuckFired := true } }
    inputStuck (.whl n) (s.raise (WHL_STAT.stuck n))
  else s
def execWhlStuckDetect (n : Fin 8) (s : State) : Result := .next (whlStuck n s)

/-- WHL_UNMUTE (R92). -/
def whlUnmute (n : Fin 8) (s : State) : State :=
  s.modWhl n fun w => if w.inp.muteNow && w.inp.muteLatched then { w with inp := w.inp.endMute } else w
def execWhlUnmute (n : Fin 8) (s : State) : Result := .next (whlUnmute n s)

/-- WHL_CLR_COUNTS (R92). -/
def execWhlClrCounts (n : Fin 8) (s : State) : Result := .next (s.clear (WHL_RATE.mute_cnt n))

/-- VR_PEAK_TIMEOUT (R91). -/
def vrPeakTimeout (n : Fin 8) (s : State) : State :=
  if s.get (WHL_CFG.mode n) = 1 ∧ 65536 ≤ s.tally - (s.whl[n]).peakTally then s.clear (WHL_STAT.peak n) else s
def execVrPeakTimeout (n : Fin 8) (s : State) : Result := .next (vrPeakTimeout n s)

/-- A write of WHL_CMD. -/
def whlCmdWrite (n : Fin 8) (v : Word) (s : State) : State :=
  let s := if fieldOf v (WHL_CMD.clr_counts n) = 1 then s.clear (WHL_RATE.mute_cnt n) else s
  if fieldOf v (WHL_CMD.unmute n) = 1 then whlUnmute n s else s

/-- A write of WHL_FILT, as R81 for a facet. -/
def whlFiltWrite (n : Fin 8) (v : Word) (s : State) : State :=
  let a := (s.get (WHL_FILT.stuck_lim n), s.get (WHL_FILT.stuck_lvl n))
  let s := s.plainWrite (WHL_FILT n) v
  if a = (s.get (WHL_FILT.stuck_lim n), s.get (WHL_FILT.stuck_lvl n)) then s
  else s.modWhl n fun w => { w with inp := w.inp.stuckRestart }

/-- A write of WHL_RATE, as R79 for a facet. -/
def whlRateWrite (n : Fin 8) (v : Word) (s : State) : State :=
  let s := s.plainWrite (WHL_RATE n) v
  if s.get (WHL_RATE.max n) = 0 then s.modWhl n fun w => { w with inp := w.inp.endMute } else s

/-- The level of a Hall input (R450): high from 2.0 V, low to 0.8 V, and between them as it was (DESIGN CHOICE, log entry 13). -/
def hallLevel (mv : Int) (was : Bool) : Bool := if 2000 ≤ mv then true else if mv ≤ 800 then false else was

/-- The front end of a WHL input starts in a mode: VR with no edge seen and its level low, Hall with the level of the signal. -/
def Wheel.startMode (w : Wheel) (mode : Nat) : Wheel :=
  { w with armed := false, top := none, ext := decide (mode = 2) && hallLevel w.volts false }

/-- A write of WHL_CFG: an input switched off drops its path, one switched on starts it, and a new mode starts its front end. -/
def whlCfgWrite (n : Fin 8) (v : Word) (s : State) : State :=
  let mode := s.get (WHL_CFG.mode n)
  let s := s.plainWrite (WHL_CFG n) v
  let new := s.get (WHL_CFG.mode n)
  if new = mode then s
  else
    let s := s.modWhl n fun w => w.startMode new
    if new = 0 then s.modWhl n fun w => { w with inp := w.inp.off }
    else if mode = 0 then s.modWhl n fun w => { w with inp := { w.inp with starting := true, flight := [], run := none } }
    else s.modWhl n fun w => { w with inp := { w.inp with first := w.inp.first <|> some s.now } }

/-- WHL_STAT as read: open while a differential DC above 2.0 V has stood for 10 ms in VR mode (R450). -/
def whlStatRead (n : Fin 8) (s : State) : Word :=
  let p := (s.whl[n]).inp
  let broken := s.get (WHL_CFG.mode n) == 1 && (match (s.whl[n]).dcFrom with | some t => decide (t.toNat + 80000000 ≤ s.now.toNat) | none => false)
  withField (withField (withField (withField (s.rd (WHL_STAT n)) (WHL_STAT.stuck_now n) p.stuckFired.toNat)
    (WHL_STAT.mute_now n) p.muteNow.toNat) (WHL_STAT.level n) (s.whlOn n && p.filt).toNat) (WHL_STAT.open' n) broken.toNat

/-- The arming threshold of R91 in mV: the larger of min_thr and thr_frac ÷ 256 of the peak, to 10 mV (R450). -/
def State.vrThreshold (s : State) (n : Fin 8) : Nat :=
  10 * max (s.get (WHL_CFG.min_thr n)) (s.get (WHL_CFG.thr_frac n) * s.get (WHL_STAT.peak n) / 256)

/-- The signal of a VR input moves to `mv` (R91). A zero crossing of the timing polarity is a timing edge if the signal has armed since the one
before: the level rises, and the peak is the largest magnitude between the two. A signal beyond the threshold with the opposite sign arms: the level
falls. -/
def vrSignal (n : Fin 8) (mv : Int) (t : Time) (s : State) : State :=
  let w := s.whl[n]
  let rising := s.flag (WHL_CFG.vr_pol n)
  let crosses := if rising then decide (w.volts < 0) && decide (0 ≤ mv) else decide (0 < w.volts) && decide (mv ≤ 0)
  if crosses && w.armed then
    let s := match w.top with | some p => s.set (WHL_STAT.peak n) (min (p / 10) 65535) | none => s
    s.modWhl n fun w => { w with volts := mv, armed := false, top := some mv.natAbs, ext := true, peakTally := tallyOf t }
  else
    let th : Int := s.vrThreshold n
    let arms := if rising then decide (mv < -th) else decide (th < mv)
    s.modWhl n fun w => { w with volts := mv, armed := w.armed || arms, top := w.top.map (max mv.natAbs), ext := w.ext && !arms }

/-- The signal of a WHL input changes at a phase of this cycle (R91, R92). -/
def whlTransition (n : Fin 8) (mv : Int) (phase : Nat) (s : State) : State :=
  let t := s.now + BitVec.ofNat 64 phase
  let was := (s.whl[n]).ext
  let v : Int := if s.get (WHL_CFG.mode n) = 1 then max (-4500) (min 4500 mv) else mv
  let s := s.modWhl n fun w => { w with dcFrom := if 2000 < v.natAbs then w.dcFrom <|> some t else none }
  let s := match s.get (WHL_CFG.mode n) with
    | 1 => vrSignal n v t s
    | 2 => s.modWhl n fun w => { w with volts := v, ext := hallLevel v w.ext }
    | _ => s.modWhl n fun w => { w with volts := v }
  if (s.whl[n]).ext = was then s else s.modWhl n fun w => { w with inp := { w.inp with first := w.inp.first <|> some t } }

/-- PAD_TRANSITION (R77, R92): a facet's pad or a WHL input. -/
def execPadTransition (pad : Pad) (phase : Fin 8) (s : State) : Result :=
  .next (match pad with | .facet n level => padTransition n level phase s | .whl n mv => whlTransition n mv phase s)

/-- STUCK_DETECT on a facet reaches the Bezel as well (R81, R110). -/
def execStuckDetect (n : Fin 256) (s : State) : Result :=
  let fires := s.fctMode n != 0 && (s.fct[n]).inp.stuckDue (s.get (FCT_FILT.stuck_lim n))
  let s := stuckDetect n s
  .next (if fires then inputStuck (.facet n) s else s)

end Sys2Proof.Machine
end

