-- ==== Sys2Proof/Machine/BezelMirror.lean ====
section
/-!
DEFINITION. Mirror domains (R90, R135–R137, R368): received tooth reports, and coasting.
-/
namespace Sys2Proof.Machine
open Sys2Proof

/-- The upper ratio of a mirror's coasting bound. A mirror's window settings are ignored (R90), so it is the reset value of
BZL_WIN_NORM.hi. -/
def mirrorHi : Nat := 0x1B33

/-- The time whose low 40 bits are `x` and that lies within ±2³⁹ of `g` (R368). -/
def fullTime (g : Time) (x : BitVec 40) : Time :=
  let d := (x - g.truncate 40)
  g + d.signExtend 64

/-- The signed move from position `p` to `q` in −c/2 to c/2 (R368). -/
def signedMove (c p q : Nat) : Int :=
  let f := (q % c + c - p % c) % c
  if 2 * f ≤ c then f else (f : Int) - c

/-- Predictor of a mirror edge (R120): `zero` forces s = 0. -/
def mirrorPredictor (d : Fin 8) (zero : Bool) (s : State) : State :=
  let x := s.bzl[d]
  match predict x.hist (zero || x.intervals < 2) ((x.ahead.headD x.thetaK) - x.thetaK) (s.get (BZL_INTERP.acc_gain d))
      (s.get (BZL_INTERP.acc_lim d)) with
  | none => s.modDom d fun x => { x with pred := none }
  | some (p, sat) => (s.modDom d fun x => { x with pred := some p }).raiseIf sat (BZL_INTERP_STAT.acc_sat d)

/-- End of an accepted mirror edge in SYNC or LIMP_CAM (R135): wraps of Θ since `was`, projection and arming, which T17 (`reacquired`) skips (R126),
event and cause, which T12 (`limped`) has none of, being no accepted edge (R100). -/
def mirrorEdgeDone (d : Fin 8) (was : Nat) (reacquired limped : Bool) (s : State) : State :=
  if s.tracking d then
    let s := if was / s.cycle16 d < (s.bzl[d]).thetaK / s.cycle16 d then s.wr (BZL_CYCLES d) (s.rd (BZL_CYCLES d) + 1) else s
    let s := if reacquired then s.modDom d fun x => { x with arming := false } else armDue d (reproject d s)
    if limped then s else toothPulse d s
  else s

/-- The running angle that the next move of a mirror starts from (R368): the last received edge's. -/
def Domain.mirrorFrom (x : Domain) : Nat := match x.real with | some e => e.theta | none => x.thetaK

/-- The move that a cell reports (R368). -/
def State.mirrorMove (s : State) (d : Fin 8) (c : ToothCell) : Int :=
  signedMove (16 * (if c.cycle then rev1 else 2 * rev1)) ((s.bzl[d]).mirrorFrom) c.pos.toNat

/-- The running angle after a cell (R368). Θ has no sign: a move below 0 is taken a cycle on, which is the same position (log entry 34). -/
def State.mirrorTheta (s : State) (d : Fin 8) (c : ToothCell) : Nat :=
  if (s.bzl[d]).fresh then c.pos.toNat
  else
    let th := ((s.bzl[d]).mirrorFrom : Int) + s.mirrorMove d c
    (if th < 0 then th + 16 * (if c.cycle then rev1 else 2 * rev1) else th).toNat

/-- A cell breaks the sequence of its subscription (R368). -/
def Domain.seqGap (x : Domain) (c : ToothCell) : Bool := match x.mirSeq with | some q => decide (c.seq ≠ q + 1) | none => false

/-- The reason with which a mirror withdraws drafts: the source's; and where the cell of the transition itself was lost, 6 in LIMP_CAM and 7 in a
state that holds no drafts (R102; DESIGN CHOICE, log entry 34). -/
def withdrawReason (old new : Nat) (reason : BitVec 4) : BitVec 4 :=
  if reason ≠ 0 then reason
  else if old = stSync ∧ new = stLimp then 6
  else if (old = stSync ∨ old = stLimp) ∧ new ≠ stSync ∧ new ≠ stLimp then 7
  else 0

/-- What a cell makes of an enabled mirror (R135, R137, R368): the state and transition of its source, and where it reports an edge, the first cell
after coasting among them, the edge. -/
def mirrorTake (d : Fin 8) (c : ToothCell) (s : State) : State :=
  let x := s.bzl[d]
  let old := s.dState d
  let new := c.state.toNat
  let t := fullTime s.now c.time
  let coasted := s.flag (BZL_MIR_STAT.coasting d)
  let th := s.mirrorTheta d c
  let isEdge := x.fresh || coasted || !c.trans || s.mirrorMove d c != 0
  let changed := new != old
  let restart := x.fresh || x.restart || (changed && (new == stGap || new == stLimp))
  let s := s.clear (BZL_MIR_STAT.coasting d)
  let s := s.modDom d fun y => { y with mirCycle := c.cycle }
  let s := if c.reason = 0 ∧ changed = false then s else enter d new (withdrawReason old new c.reason) s
  let s := if isEdge = false then s
    else
      let e : EdgePoint := ⟨th, t⟩
      let hist := if restart then [e] else if coasted then e :: x.real.toList else (e :: x.hist).take 3
      let n := if restart then 0 else if coasted then 1 else min 2 (x.intervals + 1)
      let ahead := [th + (c.e[0]).toNat, th + (c.e[0]).toNat + (c.e[1]).toNat,
        th + (c.e[0]).toNat + (c.e[1]).toNat + (c.e[2]).toNat,
        th + (c.e[0]).toNat + (c.e[1]).toNat + (c.e[2]).toNat + (c.e[3]).toNat]
      let s := s.modDom d fun y => { y with hist := hist, intervals := n, ahead := ahead, real := some e, fresh := false,
                                            restart := c.reason = 6 }
      let s := if new = stGap ∨ new = stSync ∨ new = stLimp then mirrorPredictor d false s else s
      let T := match x.real with | some q => some (t.toNat - q.time.toNat) | none => none
      setEdge d t T (setPos d c.pos.toNat s)
  let s := (s.set (BZL_STATE.slot d) c.slot.toNat).setBool (BZL_STATE.dir d) (new == stReverse)
  let s := if new = stSync ∨ new = stLimp then s.raise (BZL_STATE.pos_valid d)
    else if old = stReverse ∧ new = stStall then s.clear (BZL_STATE.pos_valid d) else s
  let s := if new = stLost then s.modDom d fun y => { y with fresh := true } else s
  let s := if isEdge then mirrorEdgeDone d x.thetaK (old == stLimp && new == stSync) (old == stSync && new == stLimp) s else s
  if (isEdge && s.tracking d) || changed then logTooth d changed s else s

/-- MIRROR_CELL_DECISION (R135, R137, R368): the oldest delivered cell is decided; a mirror with en = 0 reads SEEK and takes nothing from it (R101). -/
def mirrorCell (d : Fin 8) (s : State) : State :=
  match (s.bzl[d]).cells with
  | [] => s
  | c :: r =>
    let gap := (s.bzl[d]).seqGap c
    let s := s.modDom d fun y => { y with cells := r, lastCell := some s.now, mirSeq := some c.seq }
    let s := if gap then s.incSat (SLO_MIR_STAT.gaps (d - 4)) else s
    if s.flag (BZL_CTRL.en d) then mirrorTake d c (takeSettings d s) else s

/-- A cell reports T14 beside its tooth (R118): both sides in SYNC in a 720° domain, no cell missing, and no forward move. A source sends no cell at
T14 itself, so its step comes with the next tooth (DEDUCED, log entry 34). -/
def State.mirrorFlipped (s : State) (d : Fin 8) (c : ToothCell) : Bool :=
  let x := s.bzl[d]
  s.dState d == stSync && c.state.toNat == stSync && !c.trans && !c.cycle && !x.fresh && !x.seqGap c && decide (s.mirrorMove d c ≤ 0)

/-- A mirror decision counts the forward move of the angle, and not the steps of T14 and T17 (R44): at T14 the tooth alone is counted. -/
def mirrorDecision (d : Fin 8) (s : State) : State :=
  match (s.bzl[d]).cells with
  | [] => s
  | c :: _ =>
    let mv := s.mirrorMove d c
    let s' := if s.mirrorFlipped d c then countTo d (((s.bzl[d]).mirrorFrom : Int) + mv + 16 * rev1).toNat false s else s
    let t := mirrorCell d s'
    if t.tracking d then countDomain d ((s.dState d == stLimp && t.dState d == stSync) || decide (mv ≤ 0)) t else t
def execMirrorCellDecision (d : Fin 8) (s : State) : Result := .next (mirrorDecision d s)

/-- The bound past which a mirror has missed a cell (R136). -/
def State.coastBound (s : State) (d : Fin 8) : Option Nat :=
  let x := s.bzl[d]
  if d.val < 4 ∨ s.tracking d = false then none
  else x.pred.map fun p => x.tK.toNat + mirrorHi * p.p / 4096 + 8 * s.get (BZL_MIR_COAST.slack d)

/-- The time of the next synthesised edge: time(dn) with s = 0 (R136). -/
def Domain.synthTime (x : Domain) : Time :=
  match predict x.hist true ((x.ahead.headD x.thetaK) - x.thetaK) 0 0 with
  | some (p, _) => x.tK + BitVec.ofNat 64 (p.span p.dn)
  | none => x.tK

/-- A bound has passed with no cell (R136). -/
def State.coastMissed (s : State) (d : Fin 8) : Bool :=
  match s.coastBound d with
  | some b => decide (b < s.now.toNat) && (s.bzl[d]).cells.isEmpty
  | none => false

/-- The next synthesised edge would lie beyond the span that coasting may last (R136). -/
def State.coastOver (s : State) (d : Fin 8) : Bool :=
  decide (((s.bzl[d]).lastCell.getD 0).toNat + 8000 * s.get (BZL_MIR_COAST.max d) < (s.bzl[d]).synthTime.toNat)

/-- COAST_SYNTHESIS (R136): the missed edge is decided as T9 or T16 at its predicted time; the angles after the fourth
repeat e4 (R368). -/
def coastSynthesis (d : Fin 8) (s : State) : State :=
  if s.coastMissed d && s.flag (BZL_MIR_COAST.en d) && !s.coastOver d then
    let x := s.bzl[d]
    let t := x.synthTime
    let th := x.ahead.headD x.thetaK
    let last := (x.ahead.getD 3 0) - (x.ahead.getD 2 0)
    let s := if s.flag (BZL_MIR_STAT.coasting d) then s else s.incSat (BZL_MIR_STAT.coasts d)
    let s := s.raise (BZL_MIR_STAT.coasting d)
    let s := s.modDom d fun y => { y with hist := (⟨th, t⟩ :: y.hist).take 3, intervals := 1,
                                          ahead := y.ahead.drop 1 ++ [y.ahead.getD 3 0 + last] }
    let s := mirrorPredictor d true s
    logTooth d false (mirrorEdgeDone d x.thetaK false false (setEdge d t (some (t.toNat - x.tK.toNat)) (setPos d (th % s.cycle16 d) s)))
  else s
def execCoastSynthesis (d : Fin 8) (s : State) : Result := .next (countMove d (s.dState d) (coastSynthesis d s))

/-- COAST_END (R136): the mirror enters LOST and its drafts are withdrawn with reason 7; ended is set unless coasting is
off. -/
def coastEnd (d : Fin 8) (s : State) : State :=
  let en := s.flag (BZL_MIR_COAST.en d)
  if s.coastMissed d && (!en || s.coastOver d) then
    let s := logTooth d true ((enter d stLost 7 s).clear (BZL_MIR_STAT.coasting d))
    (s.raiseIf en (BZL_MIR_STAT.ended d)).modDom d fun y => { y with fresh := true, real := none }
  else s
def execCoastEnd (d : Fin 8) (s : State) : Result := .next (coastEnd d s)

end Sys2Proof.Machine
end

