-- ==== Sys2Proof/Machine/Boot.lean ====
section
/-!
DEFINITION. RESET_N, the ROM's first writes, and PULSE (spec/18, R431, R435–R437).
-/
namespace Sys2Proof.Machine
open Sys2Proof

/-- RESET_N_ASSERT (R435): every block is reset; the OTP, the NOR and the levels outside remain. -/
def resetNAssert (s : State) : State :=
  let (f, w) := keepPins s
  let r := { State.reset with
    fct := f.map (fun x => { x with latched := 2 }), whl := w, safeN := s.safeN, asy := s.asy.kept, wakePin := s.wakePin, resetLow := true,
    free := s.free, out := s.out, pending := s.pending }
  if s.safeN then r else r.clear FCT_GSAFE.safe_n
def execResetNAssert (s : State) : Result := .next (resetNAssert s)

/-- What the ROM takes from the OTP (R401, R412, R416): grade, sensor limits, debug level. -/
def romWrites (s : State) : State :=
  let s := bootLimits (s.set GBL_REV.grade Config.grade.toNat)
  if s.otpBit 2 || s.otpBit 3 then s.clear ASY_DBG.level else s

/-- RESET_N_RELEASE (R378, R379, R412): the straps are sampled and the ROM begins. -/
def resetNRelease (hostsel : BitVec 2) (root bootSrc : Bool) (s : State) : State :=
  if s.resetLow = false then s
  else
    let s := { s with resetLow := false, asy := { s.asy with boots := s.asy.boots + 1 } }
    romWrites (((s.set GBL_STRAP.hostsel hostsel.toNat).setBool GBL_STRAP.node_root root).setBool GBL_STRAP.boot_src bootSrc)
def execResetNRelease (hostsel : BitVec 2) (root bootSrc : Bool) (s : State) : Result := .next (resetNRelease hostsel root bootSrc s)

/-- VAULT_CLEAR_DONE (R267, R436): by now the ROM has taken what it needs of the OTP; the windows become usable. -/
def execVaultClearDone (s : State) : Result :=
  .next (if s.flag FLT_BOOT.vault_clr ∨ s.resetLow then s else vaultClearDone (romWrites s))

/-! ### PULSE (R348, R431) -/

/-- At a Tally boundary: the Tally that ends is judged, and what the next one is judged by is noted; a channel that has been dispatched still
waits until its first instruction issues. Around Park nothing is judged. -/
def pulseTally (s : State) : State :=
  let h := s.health
  let run := s.flag TLR_CTRL.run
  if 2 ≤ s.power then { s with health := { h with on := false, whole := false, late := false }, tlr := { s.tlr with waiting := [] } }
  else
    let healthy := h.whole && decide (0 < s.engines) && !h.late
    let h := if h.on then { h with ended := true, bad := h.bad || !healthy } else h
    let st (c : Fin 512) : Nat := s.get (TLR_CH_STAT.state c)
    let waits (c : Fin 512) : Bool := st c == chReady || st c == chReplay
    let waiting := (List.finRange 512).filter waits
    let late := s.tlr.waiting.any fun c => waits c || st c == chRunning
    { s with health := { h with on := h.on || run, whole := run, late := late }, tlr := { s.tlr with waiting := waiting } }

/-- A toggle is due: the boundary of a Tally whose number is a multiple of 1,024. -/
def State.toggleDue (s : State) : Bool := s.tb.boundary && s.tally % 1024 == 0 && !s.health.done'

/-- PULSE_TOGGLE (R431). -/
def pulseToggle (s : State) : State :=
  if s.toggleDue = false then s
  else
    let h := s.health
    let s := { s with health := { h with ended := false, bad := false, done' := true } }
    if h.ended = false ∨ 2 ≤ s.power then s
    else if h.bad then (s.incSat FLT_PULSE.skipped).fault .pulse
    else s.setBool FLT_PULSE.level (!s.flag FLT_PULSE.level)
def execPulseToggle (s : State) : Result := .next (pulseToggle s)

/-- FLT_PULSE as read. -/
def fltPulseRead (s : State) : Word := withField (s.rd FLT_PULSE) FLT_PULSE.healthy (s.health.on && !s.health.bad).toNat

end Sys2Proof.Machine
end

