-- ==== Sys2Proof/Machine/Bus.lean ====
section
/-!
DEFINITION. The register window (spec/16, R393): what a write and a read of each register offset do. A register without a behaviour of its
own takes its write by the access codes of R10, and reads as stored.
-/
namespace Sys2Proof.Machine
open Sys2Proof

/-! ### Writes, block by block -/

/-- GBL_ (spec/02, spec/16). -/
def gblWrite (off : Nat) (v : Word) (s : State) : State :=
  if off = GBL_GO then goMask v s
  else if off = GBL_HALT then haltMask v s
  else if off = GBL_GO_AT_CTRL then goAtCtrlWrite v s
  else s.plainWrite off v

/-- TB_ (spec/02). -/
def tbWrite (off : Nat) (v : Word) (s : State) : State :=
  if off = TB_SLEW then slewWrite .host v.toInt s else s.plainWrite off v

/-- CNT_ (spec/02). -/
def cntWrite (off : Nat) (v : Word) (s : State) : State :=
  let n : Fin 32 := Fin.ofNat 32 ((off - 0x020000) / 0x40)
  let r := off % 0x40
  if 0x020800 ≤ off then s
  else if r < 0x10 then compareWrite n (Fin.ofNat 4 (r / 4)) v s
  else if r < 0x20 then cmpCtlWrite n (Fin.ofNat 4 (r / 4)) v s
  else if off = CNT_CTRL n then counterCtrlWrite n v s
  else if off = CNT_VAL n then counterValueWrite n v s
  else if off = CNT_CAP_CTRL n then capCtrlWrite n v s
  else s.plainWrite off v

/-- FCT_ (spec/03). -/
def fctWrite (off : Nat) (v : Word) (s : State) : State :=
  let n : Fin 256 := Fin.ofNat 256 ((off - 0x040000) / 0x40)
  if off = FCT_GSAFE then gsafeWrite v s
  else if 0x044000 ≤ off then s.plainWrite off v
  else if off = FCT_CTRL n then facetCtrlWrite n v s
  else if off = FCT_FILT n then filtWrite n v s
  else if off = FCT_RATE n then rateWrite n v s
  else if off = FCT_SCHED_CMD n then schedPush n v s
  else if off = FCT_CMD n then facetCmdWrite n v s
  else s.plainWrite off v

/-- WHL_ (spec/04). -/
def whlWrite (off : Nat) (v : Word) (s : State) : State :=
  let n : Fin 8 := Fin.ofNat 8 ((off - 0x068000) / 0x20)
  if off = WHL_CFG n then whlCfgWrite n v s
  else if off = WHL_FILT n then whlFiltWrite n v s
  else if off = WHL_RATE n then whlRateWrite n v s
  else if off = WHL_CMD n then whlCmdWrite n v s
  else s.plainWrite off v

/-- BZL_ (spec/04, spec/05). -/
def bzlWrite (off : Nat) (v : Word) (s : State) : State :=
  let d : Fin 8 := Fin.ofNat 8 ((off - 0x060000) / 0x1000)
  let r := off % 0x1000
  if 0x068000 ≤ off then whlWrite off v s
  else if off = BZL_CTRL d then bzlCtrlWrite d v s
  else if off = BZL_CMD d then bzlCmdWrite d v s
  else if off = BZL_CFG d ∨ off = BZL_REF_ANGLE d ∨ (0x100 ≤ r ∧ r < 0x180 ∧ r % 0x20 = 0) then cfgWrite d off v s
  else if off = BZL_TBL_DATA d then tableAccess d (some v) s
  else if off = BZL_MAP_CTRL d then mapCtrlWrite d v s
  else if off = BZL_DFT_CMD d then dftCmdWrite d v s
  else s.plainWrite off v

/-- TLR_ and ENG_ (spec/06). -/
def tlrWrite (off : Nat) (v : Word) (s : State) : State :=
  let e : Fin 17 := Fin.ofNat 17 ((off - 0x080100) / 0x10)
  let ch : Fin 512 := Fin.ofNat 512 ((off - 0x081000) / 0x10)
  if off = TLR_CTRL then tlrCtrlWrite v s
  else if off < 0x080100 ∨ 0x083000 ≤ off then s.plainWrite off v
  else if off < 0x081000 then (if off < 0x080210 ∧ off = ENG_CMD e then engCmdWrite e v s else s.plainWrite off v)
  else if off = TLR_CH_CTL ch then chCtlWrite ch v s
  else if off = TLR_CH_CAUSE_EN ch then causeEnWrite ch v s
  else if off = TLR_CH_PEND ch then chPendWrite ch v s
  else s.plainWrite off v

/-- MNT_ (spec/09). -/
def mntWrite (off : Nat) (v : Word) (s : State) : State :=
  if off = MNT_CTRL then mntCtrlWrite v s
  else if off = MNT_UDATA then microAccess (some v) s
  else if off = MNT_NADDR then nanoAddr v.toNat s
  else if off = MNT_NDATA 3 then nanoLoad v s
  else if MNT_NDATA 0 ≤ off ∧ off < MNT_NDATA 3 then nanoHold (Fin.ofNat 3 ((off - MNT_NDATA 0) / 4)) v s
  else if MNT_DISP 0 ≤ off ∧ off < MNT_DISP 256 then dispWrite (Fin.ofNat 256 ((off - MNT_DISP 0) / 4)) v s
  else s.plainWrite off v

/-- VLT_ (spec/10). -/
def vltWrite (off : Nat) (v : Word) (s : State) : State :=
  if off = VLT_CTRL then vltCtrlWrite v s
  else if off = VLT_ATOM_CMD then atomCmdWrite v s
  else s.plainWrite off v

/-- ADC_ (spec/11). -/
def adcWrite (off : Nat) (v : Word) (s : State) : State :=
  let g : Fin 8 := Fin.ofNat 8 ((off - 0x120100) / 0x40)
  let c : Fin 24 := Fin.ofNat 24 ((off - 0x121000) / 0x200)
  let r : Fin 4 := Fin.ofNat 4 (off % 0x200 / 0x40)
  if off = ADC_RING_BASE ∨ off = ADC_RING_SIZE then ringPlaceWrite off v s
  else if off = ADC_RING_CTRL then ringCtrlWrite v s
  else if off = ADC_CAL_CTRL then calCtrlWrite v s
  else if off < 0x120100 ∨ 0x124000 ≤ off then s.plainWrite off v
  else if off < 0x121000 then
    (if 0x120300 ≤ off then s
    else if off = ADC_GCFG g then gcfgWrite g v s
    else if off = ADC_GCMD g then gcmdWrite g v s
    else if off = ADC_GTIME g + 4 then gtimeArm g v s
    else s.plainWrite off v)
  else if off = ADC_CCFG c then ccfgWrite c v s
  else if ADC_SEQ c 0 ≤ off ∧ off < ADC_SEQ c 32 then seqWrite c off v s
  else if off = ADC_RCFG c r then rcfgWrite c r v s
  else if off = ADC_REND c r + 4 then rendHighWrite c r v s
  else s.plainWrite off v

/-- DMA_ (spec/12). -/
def dmaWrite (off : Nat) (v : Word) (s : State) : State :=
  let n : Fin 32 := Fin.ofNat 32 ((off - 0x140100) / 0x40)
  if off = DMA_GCTRL then dmaGctrlWrite v s
  else if off < 0x140100 ∨ 0x140900 ≤ off then s.plainWrite off v
  else if off < DMA_CTL n then dmaShadowWrite n off v s
  else if off = DMA_CTL n then dmaCtlWrite n v s
  else s.plainWrite off v

/-- DBK_ (spec/13). -/
def dbkWrite (off : Nat) (v : Word) (s : State) : State :=
  let m : Fin 16 := Fin.ofNat 16 ((off - 0x150100) / 0x40)
  if off < 0x150100 ∨ 0x150500 ≤ off then s.plainWrite off v
  else if off = DBK_CFG m then dbkCfgWrite m v s
  else if off = DBK_RING m ∨ off = DBK_STG m then dbkPlaceWrite m off v s
  else if off = DBK_CMD m then dbkCmdWrite m v s
  else s.plainWrite off v

/-- ETH_ (spec/13). -/
def ethWrite (off : Nat) (v : Word) (s : State) : State :=
  let m : Fin 2 := Fin.ofNat 2 (off / 0x100)
  let b : Fin 2 := Fin.ofNat 2 ((off - 0x161000) / 0x1000)
  let t : Fin 8 := Fin.ofNat 8 ((off - 0x160400) / 0x40)
  if off = ETH_PTP_OFS then ptpOffset v s
  else if off < 0x160200 then
    (if off = ETH_TXCTL m then frameSend m v s
    else if off = ETH_RXCMD m then rxCmdWrite m v s
    else s.plainWrite off v)
  else if 0x161000 ≤ off then (if off < 0x163000 ∧ off % 0x1000 < 0x600 then txBufWrite b off v s else s.plainWrite off v)
  else if off < 0x160600 ∧ off = ETH_TLM_CFG t then tlmCfgWrite t v s
  else s.plainWrite off v

/-- IC_ (spec/14). -/
def icWrite (off : Nat) (v : Word) (s : State) : State :=
  if off = IC_EOI then eoi (Fin.ofNat 1024 v.toNat) s
  else if IC_PEND 0 ≤ off ∧ off < IC_PEND 32 then icPendWrite ((off - IC_PEND 0) / 4) v s
  else if IC_SRC 0 ≤ off ∧ off < IC_SRC 1024 then sourceConfigWrite (Fin.ofNat 1024 ((off - IC_SRC 0) / 4)) v s
  else s.plainWrite off v

/-- SLO_ (spec/15). -/
def sloWrite (off : Nat) (v : Word) (s : State) : State :=
  let p : Fin 4 := Fin.ofNat 4 ((off - 0x180800) / 0x40)
  let k : Fin 4 := Fin.ofNat 4 ((off - 0x180D00) / 0x10)
  if off = SLO_CTRL then sloCtrlWrite v s
  else if 0x180800 ≤ off ∧ off < 0x180900 ∧ off = SLO_PORT_CTRL p then portCtrlWrite p v s
  else if 0x180D00 ≤ off ∧ off < 0x180D40 ∧ off = SLO_MIR k then mirWrite k v s
  else if off = SLO_BTX_CTRL then btxCtrlWrite v s
  else if off = SLO_BRX_CTRL then brxCtrlWrite v s
  else if off = SLO_BTX_BASE then bulkBaseWrite off SLO_BTX_CTRL.en v s
  else if off = SLO_BRX_BASE then bulkBaseWrite off SLO_BRX_CTRL.en v s
  else s.plainWrite off v

/-- ASY_ (spec/17). -/
def asyWrite (off : Nat) (v : Word) (s : State) : State :=
  if off = ASY_MBOX_CMD then mboxCmdWrite v s
  else if ASY_MBOX_DATA 0 ≤ off ∧ off < ASY_MBOX_DATA 64 then mboxDataWrite ((off - ASY_MBOX_DATA 0) / 4) v s
  else if off = ASY_DBG then (if fieldOf v ASY_DBG.close = 1 then s.clear ASY_DBG.level else s)
  else s.plainWrite off v

/-- A write of the register window from inside or outside, but for HST_ and the MSI-X area (R393, R394). -/
def busWrite (off : Nat) (v : Word) (s : State) : State :=
  if off % 4 ≠ 0 then s
  else if off < 0x010000 then gblWrite off v s
  else if off < 0x020000 then tbWrite off v s
  else if off < 0x040000 then cntWrite off v s
  else if off < 0x060000 then fctWrite off v s
  else if off < 0x080000 then bzlWrite off v s
  else if off < 0x0A0000 then tlrWrite off v s
  else if off < 0x0B4000 then contextWrite (Fin.ofNat 512 ((off - 0x0A0000) / 0xA0)) ((off - 0x0A0000) % 0xA0) v s
  else if off < 0x0C0000 then s
  else if off < 0x100000 then programStoreWrite (BitVec.ofNat 16 ((off - 0x0C0000) / 4)) v s
  else if off < 0x110000 then mntWrite off v s
  else if off < 0x120000 then vltWrite off v s
  else if off < 0x140000 then adcWrite off v s
  else if off < 0x150000 then dmaWrite off v s
  else if off < 0x160000 then dbkWrite off v s
  else if off < 0x170000 then ethWrite off v s
  else if off < 0x180000 then icWrite off v s
  else if off < 0x190000 then sloWrite off v s
  else if off < 0x1A0000 then asyWrite off v s
  else if off = PWR_CTRL then pwrCtrlWrite v s
  else if off < 0x1C0000 then s.plainWrite off v
  else s

/-! ### Reads, block by block -/

/-- 64-bit registers whose low word, when read, latches the high word. -/
def latches (off : Nat) : Bool :=
  off == TB_PARK_GTB || off == TB_RESUME_GTB || off == VLT_ATOM_RES || off == DMA_ERR_ADDR || off == ASY_PS_PROT ||
    off == FLT_FIRST_TIME || off == HST_BATCH_LAST ||
    (decide (0x060118 ≤ off) && decide (off < 0x068000) && decide (0x118 ≤ off % 0x1000) && decide (off % 0x1000 < 0x180) &&
      off % 0x20 == 0x18) ||
    (decide (0x150100 ≤ off) && decide (off < 0x150500) && (off % 0x40 == 0x18 || off % 0x40 == 0x30))

/-- A read of a register that only shows what is stored. -/
def storedRead (off : Nat) (s : State) : Word × State :=
  if latches off then s.latchRead off (s.rd64 off)
  else if 4 ≤ off ∧ latches (off - 4) then (s.latched off, s)
  else (s.rd off, s)

/-- TB_ (R37). The high word of TB_GTB and TB_TALLY are stored as latched. -/
def tbRead (off : Nat) (s : State) : Word × State := if off = TB_GTB then gtbLowRead s else storedRead off s

/-- CNT_. -/
def cntRead (off : Nat) (s : State) : Word × State :=
  let n : Fin 32 := Fin.ofNat 32 ((off - 0x020000) / 0x40)
  let r := off % 0x40
  if 0x020800 ≤ off then (0, s)
  else if 0x10 ≤ r ∧ r < 0x20 then (cmpCtlRead n (Fin.ofNat 4 (r / 4)) s, s)
  else if off = CNT_STAT n then (cntStatRead n s, s)
  else if off = CNT_CAP_TIME n then counterCapturePop n s
  else storedRead off s

/-- FCT_. -/
def fctRead (off : Nat) (s : State) : Word × State :=
  let n : Fin 256 := Fin.ofNat 256 ((off - 0x040000) / 0x40)
  if 0x044080 ≤ off ∧ off < 0x0440A0 then (mutedSum ((off - 0x044080) / 4) s, s)
  else if 0x044000 ≤ off then storedRead off s
  else if off = FCT_CAP_TIME n then capturePop n s
  else if off = FCT_CAP_INFO n then (withField (s.rd off) (FCT_CAP_INFO.depth n) (s.fct[n]).caps.length, s)
  else if off = FCT_LEVEL n then (facetLevel n s, s)
  else if off = FCT_NEXT n then s.latchRead off (facetNext n s)
  else if off = FCT_NEXT n + 4 then (s.latched off, s)
  else storedRead off s

/-- BZL_ and WHL_. -/
def bzlRead (off : Nat) (s : State) : Word × State :=
  let d : Fin 8 := Fin.ofNat 8 ((off - 0x060000) / 0x1000)
  let n : Fin 8 := Fin.ofNat 8 ((off - 0x068000) / 0x20)
  let r := off % 0x1000
  if 0x068000 ≤ off then (if off < 0x068100 ∧ off = WHL_STAT n then (whlStatRead n s, s) else storedRead off s)
  else if off = BZL_EDGE_TIME d then edgeTimeRead d s
  else if off = BZL_EDGE_TIME d + 4 ∨ off = BZL_POS d ∨ off = BZL_PERIOD d then latchedOnce d off s
  else if off = BZL_PRED d then (s.predWord d, s)
  else if off = BZL_LIVE d then (s.live d, s)
  else if off = BZL_INTERP_STAT d then (withField (s.rd off) (BZL_INTERP_STAT.clamped d) (s.clamped d).toNat, s)
  else if off = BZL_TBL_DATA d then
    let t := tableAccess d none s
    (t.read.headD 0, { t with read := s.read })
  else if off = BZL_MAP_STAT d then (withField (s.rd off) (BZL_MAP_STAT.counted d) (s.bzl[d]).learn.count, s)
  else if 0x100 ≤ r ∧ r < 0x180 ∧ r % 0x20 = 0x14 then (camInfoRead d ((r - 0x100) / 0x20) s, s)
  else if off = BZL_DFT_STAT d then (dftStatRead d s, s)
  else if 0x280 ≤ r ∧ r < 0x2A0 then (dftSumRead d ((r - 0x280) / 4) s, s)
  else storedRead off s

/-- TLR_ and ENG_. -/
def tlrRead (off : Nat) (s : State) : Word × State :=
  let e : Fin 17 := Fin.ofNat 17 ((off - 0x080100) / 0x10)
  if off = TLR_STAT then (s.tlrStat, s)
  else if 0x080100 ≤ off ∧ off < 0x080210 ∧ off = ENG_STAT e then (s.engStat e, s)
  else storedRead off s

/-- MNT_. -/
def mntRead (off : Nat) (s : State) : Word × State :=
  if off = MNT_UDATA then
    let t := microAccess none s
    (t.read.headD 0, { t with read := s.read })
  else if MNT_NDATA 0 ≤ off ∧ off < MNT_NDATA 4 then (s.ndataRead ((off - MNT_NDATA 0) / 4), s)
  else if 0x101000 ≤ off ∧ off < 0x101880 then
    (s.tsaveWord (Fin.ofNat 17 ((off - 0x101000) / 0x80)) (Fin.ofNat 32 (off % 0x80 / 4)), s)
  else storedRead off s

/-- ADC_. -/
def adcRead (off : Nat) (s : State) : Word × State :=
  let g : Fin 8 := Fin.ofNat 8 ((off - 0x120100) / 0x40)
  let c : Fin 24 := Fin.ofNat 24 ((off - 0x121000) / 0x200)
  let r : Fin 4 := Fin.ofNat 4 (off % 0x200 / 0x40)
  if off = ADC_RD_DATA then s.latchRead off (rdData s)
  else if off = ADC_RD_DATA + 4 then (s.latched off, s)
  else if 0x120100 ≤ off ∧ off < 0x120300 ∧ off = ADC_GSTAT g then (gstatRead g s, s)
  else if 0x121000 ≤ off ∧ off < 0x124000 ∧ off = ADC_CSTAT c then (cstatRead c s, s)
  else if 0x121000 ≤ off ∧ off < 0x124000 ∧ ADC_RSTART c r ≤ off ∧ off < ADC_REND c r + 8 then (windowWordRead c r off s, s)
  else if 0x125000 ≤ off ∧ off < 0x125C00 ∧ off % 8 = 4 then (calOfsRead ((off - 0x125000) / 8) s, s)
  else storedRead off s

/-- DMA_. -/
def dmaRead (off : Nat) (s : State) : Word × State :=
  let n : Fin 32 := Fin.ofNat 32 ((off - 0x140100) / 0x40)
  if off = DMA_GSTAT then (dmaGstatRead s, s)
  else if 0x140100 ≤ off ∧ off < 0x140900 ∧ off = DMA_CUR_SRC n then curSrcRead n s
  else storedRead off s

/-- DBK_: DBK_SEAL_TIMEm shows T of the accepted seal (R321). -/
def dbkRead (off : Nat) (s : State) : Word × State :=
  let m : Fin 16 := Fin.ofNat 16 ((off - 0x150100) / 0x40)
  if off < 0x150100 ∨ 0x150500 ≤ off then storedRead off s
  else if off = DBK_SEAL_TIME m then (loWord (s.dbk.stream[m]).sealT, s)
  else if off = DBK_SEAL_TIME m + 4 then (hiWord (s.dbk.stream[m]).sealT, s)
  else storedRead off s

/-- ETH_. -/
def ethRead (off : Nat) (s : State) : Word × State :=
  let m : Fin 2 := Fin.ofNat 2 (off / 0x100)
  let b : Fin 2 := Fin.ofNat 2 ((off - 0x161000) / 0x1000)
  if off = ETH_PTP_TXTS then txtsRead s
  else if off = ETH_PTP_TXTS + 4 ∨ (off < 0x160200 ∧ off = ETH_RXTS m + 4) then (s.latched off, s)
  else if off = ETH_PTP_TXID then (s.txid, s)
  else if off < 0x160200 then
    (if off = ETH_STAT m then (s.ethStat m, s)
    else if off = ETH_RXINFO m then (s.rxInfo m, s)
    else if off = ETH_RXTS m then rxtsRead m s
    else storedRead off s)
  else if 0x161800 ≤ off ∧ off < 0x163000 ∧ 0x800 ≤ off % 0x1000 ∧ off % 0x1000 < 0xE00 then
    (s.rxWord b ((off % 0x1000 - 0x800) / 4), s)
  else storedRead off s

/-- IC_. -/
def icRead (off : Nat) (s : State) : Word × State :=
  if off = IC_STAT then (withField (s.rd off) IC_STAT.held s.icHeld.toNat, s)
  else if off = IC_TOP_ANY then (icTop (fun t => decide (t < 32)) s, s)
  else if IC_TOP 0 ≤ off ∧ off < IC_TOP 35 then (icTop (fun t => t == (off - IC_TOP 0) / 4) s, s)
  else if IC_PEND 0 ≤ off ∧ off < IC_PEND 32 then (icStateWord srcPend ((off - IC_PEND 0) / 4) s, s)
  else if IC_DELIV 0 ≤ off ∧ off < IC_DELIV 32 then (icStateWord srcDelivered ((off - IC_DELIV 0) / 4) s, s)
  else if IC_SRC 0 ≤ off ∧ off < IC_SRC 1024 then (icSrcRead ((off - IC_SRC 0) / 4) s, s)
  else storedRead off s

/-- SLO_. -/
def sloRead (off : Nat) (s : State) : Word × State :=
  if off = SLO_STAT then (sloStatRead s, s)
  else if off = SLO_UID then s.latchRead off Config.deviceUid
  else if off = SLO_UID + 4 then (s.latched off, s)
  else storedRead off s

/-- A read of the register window from inside or outside, but for HST_ and the MSI-X area (R393, R394). -/
def busRead (off : Nat) (s : State) : Word × State :=
  if off % 4 ≠ 0 then (0, s)
  else if off < 0x010000 then storedRead off s
  else if off < 0x020000 then tbRead off s
  else if off < 0x040000 then cntRead off s
  else if off < 0x060000 then fctRead off s
  else if off < 0x080000 then bzlRead off s
  else if off < 0x0A0000 then tlrRead off s
  else if off < 0x0B4000 then contextRead (Fin.ofNat 512 ((off - 0x0A0000) / 0xA0)) ((off - 0x0A0000) % 0xA0) s
  else if off < 0x0C0000 then (0, s)
  else if off < 0x100000 then (s.programRead (BitVec.ofNat 16 ((off - 0x0C0000) / 4)), s)
  else if off < 0x110000 then mntRead off s
  else if off < 0x120000 then storedRead off s
  else if off < 0x140000 then adcRead off s
  else if off < 0x150000 then dmaRead off s
  else if off < 0x160000 then dbkRead off s
  else if off < 0x170000 then ethRead off s
  else if off < 0x180000 then icRead off s
  else if off < 0x190000 then sloRead off s
  else if off = FLT_PULSE then (fltPulseRead s, s)
  else if off < 0x1C0000 then storedRead off s
  else (0, s)

end Sys2Proof.Machine
end

