-- ==== Sys2Proof/Machine/Batch.lean ====
section
/-!
DEFINITION. The host batch (spec/01, R25–R30), and the whole register window as the host sees it (spec/16, R382, R393, R394).
-/
namespace Sys2Proof.Machine
open Sys2Proof

def State.modHst (s : State) (f : HostBatch → HostBatch) : State := { s with hst := f s.hst }

/-- Capacity of the fill buffer. -/
def fillSize : Nat := 64

/-- A register that has no bit a write can act on. -/
def RegWord.readOnly (r : RegWord) : Bool := r.rw == 0 && r.w1c == 0 && r.w1s == 0 && r.rwl == 0 && r.wo == 0

/-- Offsets of the batchable blocks (R25). -/
def batchBlock (off : Nat) : Bool :=
  (decide (0x010000 ≤ off) && decide (off < 0x080000)) || (decide (0x120000 ≤ off) && decide (off < 0x150000))

/-- What a batch entry may target (R25). -/
def batchable (off : Nat) : Bool :=
  batchBlock off && (match regWordAt off with | some r => !r.readOnly | none => false)

/-- HST_BATCH_DATA_WRITE (R29): an entry at HST_BATCH_ADDR, which moves on by 4; a full buffer drops the entry, and the offset stays as it is (DESIGN
CHOICE, log entry 61: R29 is silent on it). -/
def hstBatchDataWrite (v : Word) (s : State) : State :=
  if fillSize ≤ s.hst.fill.length then (s.modHst fun h => { h with overflow := true }).raise HST_BATCH_STAT.overflow
  else
    let a := s.get HST_BATCH_ADDR.offset
    (s.modHst fun h => { h with fill := h.fill ++ [(4 * a, v)] }).set HST_BATCH_ADDR.offset (a + 1)
def execHstBatchDataWrite (v : Word) (s : State) : Result := .next (hstBatchDataWrite v s)

/-- A rejected fill buffer (R29). -/
def rejectFill (s : State) : State := (s.modHst fun h => { h with fill := [], overflow := false }).raise HST_BATCH_STAT.reject

/-- GO (R25, R27, R29): `late` is late_policy. -/
def batchGo (late : Bool) (s : State) : State :=
  let h := s.hst
  let t := (s.rd64 HST_BATCH_TALLY).toNat
  if h.fill.isEmpty then s
  else if h.pend.isSome then s.raise HST_BATCH_STAT.go_busy
  else if h.overflow || h.fill.any (fun e => !batchable e.1) then rejectFill s
  else
    let moved (t : Nat) (s : State) : State := s.modHst fun h => { h with fill := [], pend := some ⟨t, h.fill⟩ }
    if s.tally + 2 ≤ t then moved t s
    else
      let s := s.raise HST_BATCH_STAT.late
      if late then s.modHst fun h => { h with fill := [] } else moved (s.tally + 2) s
def execGo (late : Bool) (s : State) : Result := .next (batchGo late s)

/-- ABORT (R30): in time before the boundary of Tally T − 1. Emptying the fill buffer ends its overflow condition, as it does at a rejecting GO
(DESIGN CHOICE, log entry 61: R29 says so of GO alone). -/
def batchAbort (s : State) : State :=
  let s := s.modHst fun h => { h with fill := [], overflow := false }
  match s.hst.pend with
  | none => s
  | some p => if s.tally + 1 < p.tally then s.modHst fun h => { h with pend := none } else s.raise HST_BATCH_STAT.abort_late
def execAbort (s : State) : Result := .next (batchAbort s)

/-- A pending batch is due: the boundary of its Tally has come. -/
def State.batchDue (s : State) : Bool := match s.hst.pend with | some p => decide (p.tally ≤ s.tally) | none => false

/-- The registers of a domain's draft window that a write reaches: BZL_DFT_IDX to BZL_DFT_W3. -/
def draftWindow (off : Nat) : Bool :=
  decide (0x060000 ≤ off) && decide (off < 0x068000) && decide (0x200 ≤ off % 0x1000) && decide (off % 0x1000 < 0x220)

/-- BATCH_APPLY (R25, R26, R28): every entry in order, as host writes in one cycle. Entries of a draft window take effect later in the cycle, behind
the engines' draft arrivals (R134). -/
def batchApply (s : State) : State :=
  match s.hst.pend with
  | none => s
  | some p =>
    if s.tally < p.tally then s
    else
      let s := p.entries.foldl (fun s e => if draftWindow e.1 then s.post s.tb.cyc (.registerWrite e.1 e.2) else busWrite e.1 e.2 s) (s.modHst fun h => { h with pend := none })
      s.wr64 HST_BATCH_LAST (BitVec.ofNat 64 p.tally)
def execBatchApply (s : State) : Result := .next (batchApply s)

/-- HST_. A write of HST_BATCH_CTRL aborts before it goes (R29). -/
def hstWrite (off : Nat) (v : Word) (s : State) : State :=
  if off = HST_BATCH_CTRL then
    let s := s.plainWrite off v
    let s := if fieldOf v HST_BATCH_CTRL.abort = 1 then batchAbort s else s
    if fieldOf v HST_BATCH_CTRL.go = 1 then batchGo (s.flag HST_BATCH_CTRL.late_policy) s else s
  else if off = HST_BATCH_DATA then hstBatchDataWrite v s
  else s.plainWrite off v

/-- HST_BATCH_STAT as read. -/
def hstStat (s : State) : Word :=
  withField (withField (s.rd HST_BATCH_STAT) HST_BATCH_STAT.pending s.hst.pend.isSome.toNat) HST_BATCH_STAT.fill_count
    s.hst.fill.length

def hstRead (off : Nat) (s : State) : Word × State := if off = HST_BATCH_STAT then (hstStat s, s) else storedRead off s

/-! ### The MSI-X table and the PBA (R382), which only the host reaches (R394) -/

/-- An entry as a word: address low and high, data, vector control. -/
def MsixEntry.word (e : MsixEntry) (k : Nat) : Word :=
  match k with | 0 => loWord e.addr | 1 => hiWord e.addr | 2 => e.data | _ => e.ctrl

/-- A word written to an entry; the address is a multiple of 4, and of the control word only the mask bit is kept (log entry 38). -/
def MsixEntry.put (e : MsixEntry) (k : Nat) (w : Word) : MsixEntry :=
  match k with
  | 0 => { e with addr := joinWords (hiWord e.addr) (w &&& 0xFFFFFFFC) }
  | 1 => { e with addr := joinWords w (loWord e.addr) }
  | 2 => { e with data := w }
  | _ => { e with ctrl := w &&& 1 }

/-- The MSI-X table and PBA. -/
def msixArea (off : Nat) : Bool := decide (0x1E0000 ≤ off) && decide (off < 0x1E2000)

def msixWrite (off : Nat) (v : Word) (s : State) : State :=
  if off < 0x1E0200 ∧ off % 4 = 0 then
    s.modPcie fun p => { p with table := vmod p.table (Fin.ofNat 32 ((off - 0x1E0000) / 16)) fun e => e.put (off % 16 / 4) v }
  else s

def msixRead (off : Nat) (s : State) : Word :=
  if off < 0x1E0200 ∧ off % 4 = 0 then ((s.host.pcie.table)[(Fin.ofNat 32 ((off - 0x1E0000) / 16))]).word (off % 16 / 4)
  else if off = 0x1E1000 then BitVec.ofNat 32 ((List.range 32).foldl (fun a t => if s.pbaBit t then a + 2 ^ t else a) 0)
  else 0

/-! ### The register window of the host -/

/-- The host meets a batchable register as the batch of this boundary leaves it (R26, R28). -/
def settleBatch (off : Nat) (s : State) : State :=
  if batchBlock off && s.batchDue && s.flag TB_STAT.pll_lock then batchApply s else s

/-- A host write of a register word (R9–R12, R28). -/
def hostWrite (off : Nat) (v : Word) (s : State) : State :=
  if 0x1C0000 ≤ off ∧ off < 0x1D0000 then hstWrite off v s
  else if msixArea off then msixWrite off v s
  else busWrite off v (settleBatch off s)

/-- REGISTER_WRITE. -/
def execRegisterWrite (off : Nat) (v : Word) (s : State) : Result := .next (hostWrite off v s)

/-- A host read of a register word, with its read effects (R26). -/
def hostRead (off : Nat) (s : State) : Word × State :=
  if 0x1C0000 ≤ off ∧ off < 0x1D0000 then hstRead off s
  else if msixArea off then (msixRead off s, s)
  else busRead off (settleBatch off s)

end Sys2Proof.Machine
end

