-- ==== Sys2Proof/Machine/DmaMove.lean ====
section
/-!
DEFINITION. The DMA engine's accesses (spec/12, R294–R300): bursts of source line reads, the combining buffer, destination writes, the
atomic mode and completion.
-/
namespace Sys2Proof.Machine
open Sys2Proof

/-! ### Which lines are read -/

/-- The source is read as one range (R296); the planes of a re-interleave are not. -/
def DmaXfer.ranged (x : DmaXfer) : Bool := x.shuffle != 2

/-- Number of the source line that holds byte `i`. -/
def DmaXfer.srcLine (x : DmaXfer) (i : Nat) : Nat := x.srcByte i / 32

/-- First line of the range: headers are read as well (R304). -/
def DmaXfer.firstLine (x : DmaXfer) : Nat :=
  if x.shuffle = 1 then (x.src + x.frameStart (x.next / x.unit)) / 32 else x.srcLine x.next

/-- The newest line requested and not yet forgotten. -/
def DmaXfer.newest (x : DmaXfer) : Option Nat :=
  match x.issued.getLast? with | some l => some l | none => x.lines.head?.map (·.1)

/-- The line that must be requested for byte `next`, or none when it has been. -/
def DmaXfer.wanted (x : DmaXfer) : Option Nat :=
  if x.ranged then
    match x.newest with
    | none => some x.firstLine
    | some l => if x.srcLine x.next ≤ l then none else some (l + 1)
  else
    let l := x.srcLine x.next
    if x.issued.contains l || (x.lines.take 32).any (fun y => y.1 == l) then none else some l

/-- Where reading ends: the end of a drain, or of the transfer. -/
def DmaXfer.limit (x : DmaXfer) : Nat := min (x.drainTo.getD x.total) x.total

/-- Request up to `room` lines in order; `fuel` bounds the bytes stepped over. -/
def DmaXfer.issue : Nat → Nat → DmaXfer → DmaXfer
  | 0, _, x => x
  | fuel + 1, room, x =>
    if x.limit ≤ x.next then x
    else
      match x.wanted with
      | none => DmaXfer.issue fuel room { x with next := x.next + 1 }
      | some l => if room = 0 then x else DmaXfer.issue fuel (room - 1) { x with issued := x.issued ++ [l] }

/-! ### The combining buffer (R294) -/

/-- The next byte not yet moved that goes to column `c`. -/
def DmaXfer.nextIn (x : DmaXfer) (c : Nat) : Nat :=
  if x.shuffle = 1 then
    let f := x.moved / x.unit
    let p := x.moved % x.unit
    if p < (c + 1) * x.esize then f * x.unit + max p (c * x.esize) else (f + 1) * x.unit + c * x.esize
  else x.moved

/-- No further byte will reach the line, or the reading ends here. -/
def DmaXfer.complete (x : DmaXfer) (l : DmaLine) : Bool :=
  let j := x.nextIn l.col
  decide (x.limit ≤ j) || x.dstByte j / 32 != l.addr / 32

/-- Returned lines of a range with bytes that have found no place in the buffer. -/
def DmaXfer.unmoved (x : DmaXfer) : Nat :=
  if x.ranged && decide (x.moved < x.limit) then (x.lines.filter fun y => decide (x.srcLine x.moved ≤ y.1)).length else 0

/-- What takes buffer space: lines requested, lines returned and not placed, and lines held. De-interleaving has a place for the line of
each column (R304), so that only the complete ones stand in the way. -/
def DmaXfer.load (x : DmaXfer) : Nat :=
  x.issued.length + x.unmoved + (if x.shuffle = 1 then (x.buf.filter x.complete).length else x.buf.length)

/-- The buffer has a place for byte `i`: in a line it holds, or in a new one. -/
def DmaXfer.hasPlace (x : DmaXfer) (i : Nat) : Bool :=
  x.buf.any (fun l => l.col == x.col i && l.addr == 32 * (x.dstByte i / 32)) ||
    (if x.shuffle = 1 then x.buf.all (fun l => l.col != x.col i) else decide (x.buf.length < 32))

/-- Put a byte into a buffered line. -/
def putBuf (col a : Nat) (b : Byte) : List DmaLine → List DmaLine
  | [] => [⟨col, 32 * (a / 32), (List.replicate 32 none).set (a % 32) (some b)⟩]
  | l :: r => if l.col = col ∧ l.addr = 32 * (a / 32) then { l with bytes := l.bytes.set (a % 32) (some b) } :: r
    else l :: putBuf col a b r

/-- Move the bytes that have come, in order; `fuel` bounds them. -/
def DmaXfer.move : Nat → DmaXfer → DmaXfer
  | 0, x => x
  | fuel + 1, x =>
    if x.limit ≤ x.moved || !x.hasPlace x.moved then x
    else
      match x.lines.find? (fun y => y.1 == x.srcLine x.moved) with
      | none => x
      | some (_, bs) =>
        let b := bs.getD (x.srcByte x.moved % 32) 0
        DmaXfer.move fuel { x with buf := putBuf (x.col x.moved) (x.dstByte x.moved) b x.buf, moved := x.moved + 1 }

/-! ### Address spaces (R306, R395) -/

/-- Where an internal address leads. -/
inductive Space where
  | vault (a : Nat)
  | daybook (a : Nat)
  | register (off : Nat)
  | host (a : Nat)
  | nothing
  deriving DecidableEq, Repr

/-- The space of an address of 64 bits. -/
def spaceOf (a : Nat) : Space :=
  if a < vaultSize then .vault a
  else if daybookBase ≤ a ∧ a < daybookBase + daybookSize then .daybook (a - daybookBase)
  else if 2 ^ 32 ≤ a ∧ a < 2 ^ 32 + 2 ^ 24 then .register (a - 2 ^ 32)
  else if 2 ^ 63 ≤ a then .host (a - 2 ^ 63)
  else .nothing

/-- Why host memory cannot be reached (R306, R386): QSPI, bus mastering off, link down. -/
def State.hostShut (s : State) : Option Nat :=
  if s.get GBL_STRAP.hostsel = 1 then some 2
  else if s.flag GBL_HOST.dl_up = false then some 6
  else if s.host.pcie.master = false then some 5
  else none

/-- A line read of the register space: eight words in ascending order, each with its read effect (R296). -/
def busLine (off : Nat) (s : State) : List Byte × State :=
  (List.range 8).foldl (fun (acc : List Byte × State) k =>
    let (w, s) := busRead (off + 4 * k) acc.2
    (acc.1 ++ leBytes 4 w.toNat, s)) (([] : List Byte), s)

/-- What a line read returns: 32 bytes, or the kind of its error. -/
def readLine (a : Nat) (x : DmaReply) (s : State) : Except Nat (List Byte) × State :=
  match spaceOf (a % 2 ^ 64) with
  | .vault a =>
    let (bs, bad, s) := bankRead 2 a 32 x.ecc s
    (if bad then .error 3 else .ok bs, s)
  | .daybook a =>
    let (bad, s) := dbkCheck a 32 x.ecc s
    (if bad ≠ [] then .error 4 else .ok ((List.range 32).map fun k => s.dbk.byte (a + k)), s)
  | .register off => let (bs, s) := busLine off s; (.ok bs, s)
  | .host _ =>
    match s.hostShut with
    | some k => (.error k, s)
    | none =>
      match x.err with
      | some k => (.error (if k = 6 then 6 else 5), s)
      | none => (.ok ((List.range 32).map fun k => x.host.getD k 0), s)
  | .nothing => (.error 1, s)

/-- The register words of a line that are wholly enabled, or none when a word is enabled in part (R297). -/
def lineWords (bs : List (Option Byte)) : Option (List (Nat × Word)) :=
  (List.range 8).foldr (fun k acc =>
    let w := (bs.drop (4 * k)).take 4
    match acc with
    | none => none
    | some l =>
      if w.all Option.isNone then some l
      else if w.all Option.isSome then some ((4 * k, BitVec.ofNat 32 (leValue (w.map fun b => b.getD 0))) :: l)
      else none) (some [])

/-- A line write leaves the engine (R297, R299); the error kind if it cannot. -/
def writeLine (a : Nat) (bs : List (Option Byte)) (e : LineEcc) (s : State) : Option Nat × State :=
  match spaceOf (a % 2 ^ 64) with
  | .vault a => (none, bankWrite 2 a bs e (countSlot 2 s))
  | .daybook a => (none, s.modDbk fun x => x.putMasked a bs)
  | .register off =>
    match lineWords bs with
    | none => (some 7, s)
    | some ws => (none, ws.foldl (fun s w => if off + w.1 < 0x1C0000 then s.post (s.tb.cyc + 1) (.registerWrite (off + w.1) w.2) else s) s)
  | .host a =>
    match s.hostShut with
    | some k => (some k, s)
    | none => (none, s.emit (.hostWrite a bs))
  | .nothing => (some 1, s)

/-! ### The engine's Vault accesses in order (R295) -/

/-- An address leads to the Vault. -/
def inVault (a : Nat) : Bool := match spaceOf (a % 2 ^ 64) with | .vault _ => true | _ => false

/-- Under serial mode no other channel issues an access (R294). -/
def State.mayIssue (s : State) (n : Fin 32) : Bool := match s.dma.serial with | some k => k == n | none => true

/-- The channel writes what its buffer holds complete. -/
def State.writesOut (s : State) (n : Fin 32) : Bool := !s.dmaHalted && (s.dmaState n == dmaRunning || s.dmaState n == dmaDraining)

/-- A register write handed over in this cycle still stands before a read of the register space (R300). -/
def State.readHeld (s : State) (a : Nat) : Bool :=
  match spaceOf (a % 2 ^ 64) with
  | .register _ => s.inflight.any fun c => match c.2 with | .registerWrite _ _ => true | _ => false
  | _ => false

/-- The oldest line requested of the Vault, or of another space, that can return. -/
def State.readLineOf (s : State) (vault : Bool) (n : Fin 32) : Option Nat :=
  (s.dma.chan[n]).xfer.bind fun x => x.issued.find? fun l => inVault (32 * l) == vault && !s.readHeld (32 * l)

/-- The first complete line that goes to the Vault, or to another space. -/
def State.writeLineOf (s : State) (vault : Bool) (n : Fin 32) : Option DmaLine :=
  if s.writesOut n then (s.dma.chan[n]).xfer.bind fun x => x.buf.find? fun l => x.complete l && inVault l.addr == vault else none

/-- The number of entries `q` in a queue made `k`: the last ones go, or new ones are added at its end. -/
def fitQueue (q : Fin 32 × Bool) (k : Nat) (l : List (Fin 32 × Bool)) : List (Fin 32 × Bool) :=
  let r := l.foldl (fun (acc : List (Fin 32 × Bool) × Nat) y =>
    if y = q then (if acc.2 < k then (acc.1 ++ [y], acc.2 + 1) else acc) else (acc.1 ++ [y], acc.2)) ([], 0)
  r.1 ++ List.replicate (k - r.2) q

/-- The queue takes in what channel n has come to owe the Vault: reads requested, then writes of complete lines. -/
def syncQueue (n : Fin 32) (s : State) : State :=
  match (s.dma.chan[n]).xfer with
  | none => s
  | some x =>
    let reads := (x.issued.filter fun l => inVault (32 * l)).length
    let ready := if s.writesOut n then (x.buf.filter fun l => x.complete l && inVault l.addr).length else 0
    let writes := if s.mayIssue n then ready else min ready (s.dma.queue.filter (· == (n, true))).length
    s.modDma fun y => { y with queue := fitQueue (n, true) writes (fitQueue (n, false) reads y.queue) }

/-- The oldest Vault access of the engine: its channel, and whether it is a write. -/
def State.dmaHead (s : State) : Option (Fin 32 × Bool) :=
  s.dma.queue.find? fun q => if q.2 then (s.writeLineOf true q.1).isSome else (s.readLineOf true q.1).isSome

/-- An access leaves the queue. -/
def dequeue (n : Fin 32) (w : Bool) (s : State) : State := s.modDma fun x => { x with queue := x.queue.erase (n, w) }

/-- What the engine does at the beginning of a cycle: sh_ready as it stands (R291), and the accesses owed. -/
def dmaCycle (s : State) : State :=
  forAll 32 (fun n s => syncQueue n (s.modChan n fun c => { c with was := s.flag (DMA_STAT.sh_ready n), snap := none })) s

/-! ### BURST_START (R294) -/

/-- The channel may begin a burst: credit, buffer space, lines left to read. -/
def State.burstReady (s : State) (n : Fin 32) : Bool :=
  match (s.dma.chan[n]).xfer with
  | none => false
  | some x =>
    (s.dmaState n == dmaRunning || s.dmaState n == dmaDraining) && decide (x.next < x.limit) && decide (x.load < 32) &&
      (x.fld DMA_SH_CFG.pace_en == 0 || decide (0 < s.get (DMA_STAT.credit n)))

def State.chanPrio (s : State) (n : Fin 32) : Nat :=
  match (s.dma.chan[n]).xfer with | some x => x.fld DMA_SH_CFG.prio | none => 0

/-- The channel that begins the next burst: the highest priority, then the first after the last winner at it. The choice is made once the
reads of the burst before have been handed to the Vault (log entry 48). -/
def State.arbitrate (s : State) : Option (Fin 32) :=
  if s.dma.queue.any fun q => !q.2 then none
  else
    match s.dma.serial with
    | some n => if s.burstReady n then some n else none
    | none =>
      ([3, 2, 1, 0].filterMap fun p =>
        (nextAfter 32 (s.dma.last.toList.getD p 31) fun n => s.burstReady (Fin.ofNat 32 n) && s.chanPrio (Fin.ofNat 32 n) == p).map
          fun n => (Fin.ofNat 32 n : Fin 32)).head?

/-- BURST_START. -/
def burstStart (s : State) : State :=
  if s.dmaHalted then s
  else
    match s.arbitrate with
    | none => s
    | some n =>
      match (s.dma.chan[n]).xfer with
      | none => s
      | some x =>
        let p : Fin 4 := Fin.ofNat 4 (x.fld DMA_SH_CFG.prio)
        let room := min (x.fld DMA_SH_CFG.burst + 1) (32 - x.load)
        let s := if x.fld DMA_SH_CFG.pace_en = 0 then s else s.set (DMA_STAT.credit n) (s.get (DMA_STAT.credit n) - 1)
        let s := s.modDma fun y =>
          { y with last := y.last.set p n.val, burst := s.tb.cyc + 1, serial := if s.flag DMA_GCTRL.arb then some n else y.serial }
        syncQueue n (s.modChan n fun c => { c with xfer := some (x.issue 4096 room) })
def execBurstStart (s : State) : Result := .next (burstStart s)

/-! ### Completion (R299) -/

/-- The bytes written of a column. -/
def DmaXfer.count (x : DmaXfer) (l : DmaLine) : DmaXfer :=
  let k := (l.bytes.filter Option.isSome).length
  { x with done := x.done.set l.col (x.done.getD l.col 0 + k) }

/-- The transfer is complete: event 32 + n in the next cycle, IDLE, and the idle check. -/
def dmaComplete (n : Fin 32) (s : State) : State :=
  let s := (dropXfer n s).modDma fun x => { x with pulses := x.pulses ++ [32 + n.val] }
  transferLoad n false (copierDone n s)

/-- Everything has been read and written. -/
def DmaXfer.finished (x : DmaXfer) : Bool := decide (x.total ≤ x.moved) && x.issued.isEmpty && x.buf.isEmpty

/-- After an access: completion, the end of a drain, or what the channel comes to owe. -/
def afterAccess (n : Fin 32) (x : DmaXfer) (s : State) : State :=
  let x := x.move 4096
  let s := s.modChan n fun c => { c with xfer := some x }
  if x.finished then dmaComplete n s else syncQueue n (drainCheck n s)

/-! ### A line returns (R295, R296) -/

/-- The oldest line that channel n has requested of the Vault, or of another space, returns, and the bytes that it completes move to the
buffer. -/
def dmaReadReturn (vault : Bool) (n : Fin 32) (r : DmaReply) (s : State) : State :=
  match (s.dma.chan[n]).xfer, s.readLineOf vault n with
  | some x, some l =>
    match readLine (32 * l) r (dequeue n false s) with
    | (.error k, s) => busError n (BitVec.ofNat 4 k) (BitVec.ofNat 64 (32 * l)) s
    | (.ok bs, s) => afterAccess n { x with issued := x.issued.erase l, lines := (l, bs) :: x.lines.take 63 } s
  | _, _ => s

/-! ### A line leaves (R297–R299) -/

/-- The atomic of R298 on the line that holds the operand at its place; then the old value is to be written, if PLANE says where. -/
def dmaAtomic (n : Fin 32) (x : DmaXfer) (l : DmaLine) (rest : List DmaLine) (ecc : LineEcc) (s : State) : State :=
  let v : Dword := BitVec.ofNat 64 (leValue ((l.bytes.drop (x.dst % 32)).take 8 |>.map fun b => b.getD 0))
  match bankAtomic 2 (x.dst / 8) (x.atomic == 2) v ecc (countSlot 2 s) with
  | (none, s) => busError n 3 (BitVec.ofNat 64 x.dst) s
  | (some old, s) =>
    let p := x.plane.toNat
    let buf := if p = 2 ^ 32 - 1 then rest
      else rest ++ [⟨0, 32 * (p / 32), (List.range 32).map fun k => if p % 32 ≤ k ∧ k < p % 32 + 8 then some (old.extractLsb' (8 * (k - p % 32)) 8) else none⟩]
    afterAccess n { x with buf := buf, old := some old, done := [8] } s

/-- The first complete line of channel n for the Vault, or for another space, leaves the engine. -/
def dmaWriteIssue (vault : Bool) (n : Fin 32) (ecc : LineEcc) (s : State) : State :=
  match (s.dma.chan[n]).xfer, s.writeLineOf vault n with
  | some x, some l =>
    let s := if vault then dequeue n true s else s
    let rest := x.buf.erase l
    if x.atomic ≠ 0 ∧ x.old = none then dmaAtomic n x l rest ecc s
    else
      match writeLine l.addr l.bytes ecc s with
      | (some k, s) => busError n (BitVec.ofNat 4 k) (BitVec.ofNat 64 l.addr) s
      | (none, s) =>
        let x := { x with buf := rest }
        afterAccess n (if x.atomic ≠ 0 then x else x.count l) s
  | some x, none => if x.finished && s.writesOut n then dmaComplete n s else s
  | _, _ => s

/-- A channel has an access that needs no Vault slot: a line that returns, or a write, or nothing left to write. A line of host memory
returns when the host sends it, unless the access is refused at once (R306). -/
def State.portReadDue (s : State) (n : Fin 32) : Bool :=
  match s.readLineOf false n with
  | some l => (match spaceOf (32 * l % 2 ^ 64) with | .host _ => s.hostShut.isSome | _ => true)
  | none => false
def State.portWriteDue (s : State) (n : Fin 32) : Bool :=
  s.mayIssue n && ((s.writeLineOf false n).isSome || (s.writesOut n && (match (s.dma.chan[n]).xfer with | some x => x.finished | none => false)))

end Sys2Proof.Machine
end

