-- ==== Sys2Proof/Machine/Host.lean ====
section
/-!
DEFINITION. The host interfaces (spec/16, R378–R392): the QSPI target and the PCIe endpoint.
-/
namespace Sys2Proof.Machine
open Sys2Proof

/-! ### QSPI (R388–R392) -/

/-- The host is a QSPI host (R379). -/
def State.qspiHost (s : State) : Bool := s.get GBL_STRAP.hostsel == 1

/-- The windows are usable. -/
def State.windows (s : State) : Bool := s.flag GBL_HOST.ready

/-- Size of the write buffer (R391). -/
def qspiBuffer : Nat := 512
def State.qspiUsed (s : State) : Nat := (s.host.qspi.map fun x => x.2.length).sum

/-- The window of an address (R389), with the offset in it. -/
inductive Window where
  | bar0 (off : Nat)
  | bar2 (off : BitVec 25)
  | bar4 (off : BitVec 28)
  deriving DecidableEq, Repr

/-- The window in which `n` bytes from `a` lie wholly; none: an error transaction. -/
def windowOf (a n : Nat) : Option Window :=
  if a + n ≤ 0x01000000 then some (.bar0 a)
  else if 0x10000000 ≤ a ∧ a + n ≤ 0x12000000 then some (.bar2 (BitVec.ofNat 25 (a - 0x10000000)))
  else if 0x20000000 ≤ a ∧ a + n ≤ 0x30000000 then some (.bar4 (BitVec.ofNat 28 (a - 0x20000000)))
  else none

/-- A range of BAR0 meets the MSI-X table or the PBA. -/
def meetsMsix (a n : Nat) : Bool := decide (a < 0x1E2000) && decide (0x1E0000 < a + n)

/-- A READ that R389 allows. -/
def readAllowed (n : Nat) : Window → Bool
  | .bar0 a => (n == 4 || n == 8) && a % n == 0 && !meetsMsix a n
  | .bar2 _ => true
  | .bar4 _ => true

/-- A WRITE that R389 allows. -/
def writeAllowed (n : Nat) : Window → Bool
  | .bar0 a => decide (4 ≤ n) && n % 4 == 0 && a % 4 == 0 && !meetsMsix a n
  | .bar2 _ => true
  | .bar4 _ => false

/-- Write words of BAR0 one at a time, in ascending order (R383). -/
def hostWrites (off : Nat) : List Word → State → State
  | [], s => s
  | w :: r, s => hostWrites (off + 4) r (hostWrite off w s)

/-- QSPI_WRITE_APPLY (R391): the oldest write takes effect; before the windows are usable it waits. A write to BAR2 stays in the buffer until
the Vault has taken it (R259). -/
def qspiWriteApply (s : State) : State :=
  match s.host.qspi with
  | [] => s
  | (a, b) :: r =>
    let dropped (s : State) : State := { s with host := { s.host with qspi := r, qspiOut := false } }
    if s.windows = false then s
    else if s.host.qspiOut then (if s.vlt.host.isEmpty then dropped s else s)
    else
      match windowOf a.toNat b.length with
      | some (.bar0 off) => hostWrites off (bytesToWords b) (dropped s)
      | some (.bar2 off) => bar2Request off (.write (b.map some)) [] .qspi { s with host := { s.host with qspiOut := true } }
      | _ => dropped s
def execQspiWriteApply (s : State) : Result := .next (qspiWriteApply s)

/-- Words of BAR0 as the bytes of a read (R384). -/
def hostReads (off : Nat) : Nat → State → List Byte × State
  | 0, s => ([], s)
  | n + 1, s =>
    let (w, s) := hostRead off s
    let (r, s) := hostReads (off + 4) n s
    (leBytes 4 w.toNat ++ r, s)

/-- An error transaction: the marker 0x53 and all ones, or nothing when CS_N has risen before it (R390). -/
def qspiRefuse (n : Nat) (cut : Bool) (s : State) : State :=
  if cut then qspiError s else (qspiError s).emit (.qspi (0x53 :: List.replicate n 0xFF))

/-- A READ of a window (R390). BAR2 answers once the host's slots have brought the data; of a read that CS_N abandons, what it has popped or
latched stands. -/
def qspiFetch (n : Nat) (eccs : List LineEcc) (cut : Bool) (w : Window) (s : State) : State :=
  match w with
  | .bar0 off =>
    let (b, s) := hostReads off (n / 4) s
    if cut then qspiError s else s.emit (.qspi (0x5A :: b))
  | .bar2 off => bar2Request off (.read n) eccs (if cut then .nowhere else .qspi) (if cut then qspiError s else s)
  | .bar4 off =>
    let (b, s) := windowRead off.toNat n eccs s
    if b.any (·.2) then qspiRefuse n cut s else if cut then qspiError s else s.emit (.qspi (0x5A :: b.map (·.1)))

/-- QSPI_READ (R389–R391). A read that finds an earlier WRITE in the buffer tries again in the next cycle. `cut`: CS_N rises before the
marker. -/
def qspiRead (addr : Word) (len : Byte) (eccs : List LineEcc) (cut : Bool) (s : State) : State :=
  let n := len.toNat + 1
  match windowOf addr.toNat n with
  | none => if s.qspiHost then qspiRefuse n cut s else s
  | some w =>
    if s.qspiHost = false then s
    else if s.windows = false || !readAllowed n w then qspiRefuse n cut s
    else if s.host.qspi.isEmpty = false then s.post (s.tb.cyc + 1) (.qspiRead addr len eccs cut)
    else qspiFetch n eccs cut w s
def execQspiRead (addr : Word) (len : Byte) (eccs : List LineEcc) (cut : Bool) (s : State) : Result := .next (qspiRead addr len eccs cut s)

/-- QSPI_WRITE (R391): posted, or discarded whole. -/
def qspiWrite (addr : Word) (len : Byte) (bytes : List Byte) (s : State) : State :=
  if s.qspiHost = false then s
  else
    let n := len.toNat + 1
    let b := bytes.take n
    let fits := decide (n ≤ bytes.length) && decide (s.qspiUsed + n ≤ qspiBuffer)
    match windowOf addr.toNat n with
    | some w => if fits && writeAllowed n w then { s with host := { s.host with qspi := s.host.qspi ++ [(addr, b)] } } else qspiError s
    | none => qspiError s
def execQspiWrite (addr : Word) (len : Byte) (bytes : List Byte) (s : State) : Result := .next (qspiWrite addr len bytes s)

/-- The status byte (R392). -/
def State.qspiStatusByte (s : State) : Byte :=
  let bit (b : Bool) (k : Nat) : Nat := b.toNat * 2 ^ k
  BitVec.ofNat 8 (bit (!s.host.qspi.isEmpty) 0 + bit (decide (qspiBuffer < s.qspiUsed + 260)) 1 + bit s.host.err 2 +
    bit (s.irqPin 0) 3 + bit (s.irqPin 1) 4 + bit s.windows 5)

/-- QSPI_STATUS: the status byte, and then err clears. -/
def qspiStatus (s : State) : State :=
  if s.qspiHost = false then s
  else
    let s := s.emit (.qspi [s.qspiStatusByte])
    { s with host := { s.host with err := false } }
def execQspiStatus (s : State) : Result := .next (qspiStatus s)

/-- QSPI_UNKNOWN_OPCODE (R388). -/
def execQspiUnknownOpcode (s : State) : Result := .next (if s.qspiHost then qspiError s else s)

/-! ### PCIe (R380–R387, R449) -/

/-- The host is a PCIe host (R379). -/
def State.pcieHost (s : State) : Bool := s.get GBL_STRAP.hostsel == 0

/-- BAR0_BAD_ACCESS (R383, R386): a write is discarded; a read returns all ones and has no read effect. -/
def bar0BadAccess (x : BadAccess) (s : State) : State :=
  match x with
  | .read => { s.raise GBL_HOST.bad_acc with read := [BitVec.allOnes 32] }
  | .write => s.raise GBL_HOST.bad_acc
  | .poisoned => s.raise GBL_HOST.poison_rx
def execBar0BadAccess (x : BadAccess) (s : State) : Result := .next (bar0BadAccess x s)

/-- The PCIe function at its defaults; messages of the MSI-X table stay, masked (R387, log entry 38). -/
def Pcie.back (p : Pcie) : Pcie := { Pcie.reset with table := p.table.map (fun e => { e with ctrl := 1 }), perst := p.perst }

/-- The data link leaves DL_Up (R387, R419). -/
def linkDown (s : State) : State :=
  let s := if s.flag GBL_HOST.dl_up then (s.raise GBL_HOST.link_down).fault .hostLink else s
  (((s.clear GBL_HOST.dl_up).clear GBL_HOST.speed).clear GBL_HOST.width).modPcie Pcie.back

/-- HOT_RESET: a link loss or a hot reset. -/
def hotReset (s : State) : State := if s.pcieHost then linkDown s else s
def execHotReset (s : State) : Result := .next (hotReset s)

/-- PERST (R449). -/
def perst (low : Bool) (s : State) : State :=
  if s.pcieHost = false then s
  else if low then (linkDown s).modPcie fun p => { p with perst := true }
  else s.modPcie fun p => { p with perst := false }
def execPerst (low : Bool) (s : State) : Result := .next (perst low s)

/-- PCIE_LINK_UP (R436). -/
def pcieLinkUp (speed width : BitVec 3) (s : State) : State :=
  let ok := s.pcieHost && !s.host.pcie.perst && !s.resetLow && decide (1 ≤ speed.toNat) && decide (speed.toNat ≤ 3) &&
    (width == 1 || width == 2 || width == 4)
  if ok then ((s.raise GBL_HOST.dl_up).set GBL_HOST.speed speed.toNat).set GBL_HOST.width width.toNat else s
def execPcieLinkUp (speed width : BitVec 3) (s : State) : Result := .next (pcieLinkUp speed width s)

/-- Sizes of the BARs (R382). -/
def barSize (k : Fin 3) : Nat := if k = 0 then 2 ^ 24 else if k = 1 then 2 ^ 25 else 2 ^ 28

/-- A BAR as it reads: a 64-bit memory BAR, the last two prefetchable; the places of the bits are PRESUMED, log entry 38. -/
def State.barValue (s : State) (k : Fin 3) : Dword := (s.host.pcie.bars)[k] + (if k = 0 then 0x4 else 0xC)

/-- A dword of the configuration space (R380, R381); what the spec does not give is free. -/
def configRead (off : BitVec 12) (s : State) : Word × State :=
  let o := off.toNat / 4 * 4
  let p := s.host.pcie
  if o = 0x00 then (0x05121F3A, s)
  else if o = 0x04 then (0x00100000 ||| BitVec.ofNat 32 (2 * p.mem.toNat + 4 * p.master.toNat), s)
  else if o = 0x08 then
    (BitVec.ofNat 32 (0x118000 * 256 + ((s.get GBL_REV.letter - 0x41 + 1) * 16 + s.get GBL_REV.number)), s)
  else if 0x10 ≤ o ∧ o < 0x28 then
    let b := s.barValue (Fin.ofNat 3 ((o - 0x10) / 8))
    (if o % 8 = 0 then loWord b else hiWord b, s)
  else if o = 0x2C then (Config.subsystem, s)
  else
    let (v, s) := s.fresh 32
    (if o = 0x3C then v &&& 0xFFFF00FF else v, s)

/-- A configuration write. A return from D3hot to D0 keeps everything (R387); the first source held in D3hot sends a PME (R340). -/
def configWrite (x : CfgItem) (s : State) : State :=
  match x with
  | .command mem master => s.modPcie fun p => { p with mem := mem, master := master }
  | .bar k a => s.modPcie fun p => { p with bars := p.bars.set k (BitVec.ofNat 64 (a.toNat / barSize k * barSize k)) }
  | .msix en mask => s.modPcie fun p => { p with msixEn := en, maskAll := mask }
  | .msi en a d => s.modPcie fun p => { p with msiEn := en, msiAddr := a, msiData := d }
  | .power d3 en clr =>
    let was := s.host.pcie.d3
    let s := s.modPcie fun p => { p with d3 := d3, pmeEn := en, pmeStatus := p.pmeStatus && !clr }
    if d3 && !was then pmeCheck s else s
  | .sizes mps mrrs => s.modPcie fun p => { p with mps := mps, mrrs := mrrs }

/-- PCIE_CONFIG_REQUEST (R381): Configuration Request Retry Status until the BARs are usable. -/
def pcieConfigRequest (x : ConfigReq) (s : State) : State :=
  if s.pcieHost = false || s.host.pcie.perst then s
  else if s.windows = false then s.emit .retry
  else
    match x with
    | .read off =>
      let (v, s) := configRead off s
      { s with read := [v] }
    | .write i => configWrite i s
def execPcieConfigRequest (x : ConfigReq) (s : State) : Result := .next (pcieConfigRequest x s)

/-! ### JTAG (R396, R397, R412, R415, R416) -/

/-- The debug level in force: with dbg_perm only IDCODE and BYPASS (R414). -/
def State.jtagLevel (s : State) : Nat := if s.otpBit 3 then 0 else s.get ASY_DBG.level

/-- A value that no W1C bit outside ASY_ takes (R396). -/
def sparesW1c (off : Nat) (v : Word) : Word :=
  if 0x190000 ≤ off ∧ off < 0x1A0000 then v
  else match regWordAt off with | some r => v &&& ~~~(BitVec.ofNat 32 r.w1c) | none => v

/-- A register read at debug level `l`: at level 2 the vendor microcode areas read (R416). -/
def jtagRead (l off : Nat) (s : State) : Word × State :=
  if l = 2 ∧ off = MNT_UDATA ∧ s.uaddr.toNat < 0x1800 then
    ((s.mnt.uword s.uaddr).setWidth 32, s.set MNT_UADDR.index (s.uaddr.toNat + 1))
  else if l = 2 ∧ MNT_NDATA 0 ≤ off ∧ off < MNT_NDATA 4 ∧ s.naddr.toNat < 0x600 then
    ((s.mnt.nword s.naddr >>> (32 * ((off - MNT_NDATA 0) / 4))).setWidth 32, s)
  else busRead off s

/-- JTAG_ACCESS. A halt restarts the core (R397); what stepping and inspecting the core show is free, and so is IDCODE. -/
def jtagAccess (x : JtagOp) (s : State) : State :=
  let l := s.jtagLevel
  let show32 (s : State) : State :=
    let (v, s) := s.fresh 32
    s.emit (.jtag v)
  match x with
  | .bypass => s
  | .idcode => show32 s
  | .halt => if l = 0 then s else restartCore bootJtag s
  | .step => s
  | .inspect => if l = 0 then s else show32 s
  | .regRead off =>
    if l = 0 then s
    else
      let (v, s) := jtagRead l off s
      s.emit (.jtag v)
  | .regWrite off v => if l = 0 then s else busWrite off (sparesW1c off v) s
  | .vaultRead a n eccs => if l = 0 then s else asyPush (readReq a.toNat n eccs 0 .jtag) s
  | .vaultWrite a b eccs => if l = 0 then s else asyPush (writeReq a.toNat (b.map some) eccs) s
def execJtagAccess (x : JtagOp) (s : State) : Result := .next (jtagAccess x s)

end Sys2Proof.Machine
end

