-- ==== Sys2Proof/Machine/IsaIo.lean ====
section
/-!
DEFINITION. The channel instructions that reach beyond the engine and the Vault (spec/08): facets, counters, angles and drafts,
conversions and reducers, log notes and seals, remote posts and events.
-/
namespace Sys2Proof.Machine
open Sys2Proof

/-! ### Facets (R202–R206) -/

/-- SCHED (R202, R203). -/
def execSched (e : Fin 17) (a : Fin 16) (fs : FacetSel) (func : BitVec 12) (s : State) : Result :=
  .next (onFacet e fs (fun n r s =>
    let t := r.v[a]
    let late := decide (t < s.now) || decide (2 ^ 39 ≤ (t - s.now).toNat)
    stageThen e { r with flags := setFlag r.flags flagL late } 1 (.sched n (armSpec (some t) func)) s) s)
/-- DRV (R204). -/
def execDrv (e : Fin 17) (fs : FacetSel) (func : BitVec 12) (s : State) : Result :=
  .next (onFacet e fs (fun n r s => stageThen e r 1 (.sched n (armSpec none func)) s) s)
/-- FCAN: func bits 3:0 must be 0. -/
def execFcan (e : Fin 17) (fs : FacetSel) (func : BitVec 12) (s : State) : Result :=
  .next (onFacet e fs (fun n r s =>
    if bits func 3 0 ≠ 0 then illegal e s else stageThen e r 1 (.cancel n (BitVec.ofNat 8 (bits func 11 4))) s) s)
/-- FCMD flush. -/
def execFcmdFlush (e : Fin 17) (fs : FacetSel) (s : State) : Result :=
  .next (onFacet e fs (fun n r s => stageThen e r 1 (.flush n) s) s)
/-- FCMD safe. -/
def execFcmdSafe (e : Fin 17) (fs : FacetSel) (s : State) : Result :=
  .next (onFacet e fs (fun n r s => stageThen e r 1 (.safe n) s) s)
/-- FCMD release. -/
def execFcmdRelease (e : Fin 17) (fs : FacetSel) (s : State) : Result :=
  .next (onFacet e fs (fun n r s => stageThen e r 1 (.release n) s) s)
/-- FCAP (R205). -/
def execFcap (e : Fin 17) (d : Fin 16) (fs : FacetSel) (func : BitVec 12) (s : State) : Result :=
  .next (onFacet e fs (fun n r s =>
    let pos := bits func 2 0
    let caps := (s.fct[n]).caps
    let mine := s.flag (FCT_CTRL.cap_owner n) && s.get (FCT_BIND.channel n) == r.ch.val
    match caps[pos]? with
    | none => readQ e d (if func.getLsbD 3 then BitVec.ofNat 64 (caps.length * 2 ^ 8) else noTime) true 6 r s
    | some c =>
      let x : Dword := if func.getLsbD 3 then BitVec.ofNat 64 (caps.length * 2 ^ 8 + 2 + c.rising.toNat) else c.time
      readQ e d x false 6 (if mine then { r with reads := markRead (.facet n) pos r.reads } else r) s) s)
/-- FLVL (R206). -/
def execFlvl (e : Fin 17) (d : Fin 16) (fs : FacetSel) (s : State) : Result :=
  .next (onFacet e fs (fun n r s => finish e (r.setV d (BitVec.ofNat 64 ((facetLevel n s).toNat % 2 ^ 19))) 6 s) s)

/-! ### Counters (R207, R208) -/

/-- The counter an instruction names. -/
def counterOf (func : BitVec 12) : Fin 32 := Fin.ofNat 32 (bits func 4 0)

/-- CCMP. -/
def execCcmp (e : Fin 17) (a : Fin 16) (func : BitVec 12) (s : State) : Result :=
  .next (runOn e (fun r s => stageThen e r 1 (.cmpWrite (counterOf func) (Fin.ofNat 4 (bits func 6 5)) (loWord r.v[a])) s) s)
/-- CDIS. -/
def execCdis (e : Fin 17) (func : BitVec 12) (s : State) : Result :=
  .next (runOn e (fun r s => stageThen e r 1 (.cmpDisarm (counterOf func) (Fin.ofNat 4 (bits func 6 5))) s) s)
/-- CVAL. -/
def execCval (e : Fin 17) (d : Fin 16) (func : BitVec 12) (s : State) : Result :=
  .next (runOn e (fun r s => finish e (r.setV d ((s.rd (CNT_VAL (counterOf func))).setWidth 64)) 6 s) s)
/-- CCAP (R208). -/
def execCcap (e : Fin 17) (d : Fin 16) (func : BitVec 12) (s : State) : Result :=
  .next (runOn e (fun r s =>
    let n := counterOf func
    let pos := bits func 6 5
    let mine := s.flag (CNT_BIND.en n) && s.get (CNT_BIND.channel n) == r.ch.val
    match ((s.cnt[n]).caps)[pos]? with
    | none => readQ e d (if func.getLsbD 7 then 0 else noTime) true 6 r s
    | some c =>
      readQ e d (if func.getLsbD 7 then c.count.setWidth 64 else c.time) false 6
        (if mine then { r with reads := markRead (.counter n) pos r.reads } else r) s) s)

/-! ### Angles (R209–R213) -/

/-- A2T (R210). -/
def execA2t (e : Fin 17) (d a : Fin 16) (func : BitVec 12) (s : State) : Result :=
  .next (runOn e (fun r s =>
    let k := domainOf r func
    let x := s.bzl[k]
    let angle := dbits r.v[a] 31 0
    let t := if angle < s.cycleAu k ∧ s.tracking k = true then x.timeOf (targetOf (s.cycle16 k) x.thetaK angle) else noTime
    let none' := t == noTime
    finish e ({ r with flags := setFlag (setFlag r.flags flagQ none') flagL (!none' && decide (t < s.now)) }.setV d t) 12 s) s)
/-- T2A (R211). -/
def execT2a (e : Fin 17) (d a : Fin 16) (func : BitVec 12) (s : State) : Result :=
  .next (runOn e (fun r s =>
    let k := domainOf r func
    match if s.tracking k then (s.bzl[k]).angleAt (s.cycle16 k) r.v[a] else none with
    | none => readQ e d 0xFFFFFFFF true 24 r s
    | some th => readQ e d (BitVec.ofNat 64 (th / 16 % s.cycleAu k)) false 24 r s) s)
/-- APOS (R212). -/
def execApos (e : Fin 17) (d : Fin 16) (func : BitVec 12) (s : State) : Result :=
  .next (runOn e (fun r s =>
    let k := domainOf r func
    let valid := s.flag (BZL_STATE.pos_valid k)
    let x := (s.live k).toNat + 2 ^ 32 * s.dState k + 2 ^ 35 * valid.toNat + 2 ^ 36 * s.get (BZL_STATE.dir k) +
      2 ^ 37 * (s.clamped k).toNat + 2 ^ 38 * s.get (BZL_STATE.rev k)
    readQ e d (BitVec.ofNat 64 x) (!valid) 6 r s) s)
/-- AWIN (R213). -/
def execAwin (e : Fin 17) (d a b : Fin 16) (func : BitVec 12) (s : State) : Result :=
  .next (runOn e (fun r s =>
    let k := domainOf r func
    let cyc := s.cycleAu k
    let start := dbits r.v[a] 31 0 % cyc
    let past (x : Nat) : Nat := (x + cyc - start) % cyc
    let tr := s.tracking k
    let hit := tr && decide (past (s.live k).toNat < past (dbits r.v[b] 31 0))
    readQ e d (BitVec.ofNat 64 hit.toNat) (!tr) 6 { r with flags := setFlag r.flags flagZ (!hit) } s) s)

/-! ### Drafts (R214–R216) -/

/-- The entry a dwr writes (R214). -/
def draftSpec (r : Routine) (angle b dur : Dword) : DraftSpec :=
  { angle := BitVec.ofNat 21 (dbits angle 20 0), act := BitVec.ofNat 2 (dbits b 1 0), facet := Fin.ofNat 256 (dbits b 15 8),
    lead := BitVec.ofNat 2 (dbits b 3 2), drop := b.getLsbD 7, tag := BitVec.ofNat 8 (dbits b 23 16), notify := b.getLsbD 6,
    autoFree := b.getLsbD 5, limp := b.getLsbD 4, owner := r.ch, hostOwn := false, pairEn := b.getLsbD 24,
    pair := Fin.ofNat 256 (dbits b 39 32), dur := loWord dur }

/-- DWR (R214, R215): illegal with a bit of B set that R214 does not list, or an angle at or above the cycle length. -/
def execDwr (e : Fin 17) (d a b : Fin 16) (func : BitVec 12) (s : State) : Result :=
  .next (runOn e (fun r s =>
    let k := domainOf r func
    let x := r.v[b]
    if dbits x 55 40 ≠ 0 ∨ dbits x 31 25 ≠ 0 ∨ s.cycleAu k ≤ dbits r.v[a] 31 0 then illegal e s
    else stageThen e r 1 (.draftWrite k (entryOf func (dbits x 63 56)) (draftSpec r r.v[a] x r.v[d])) s) s)
/-- DCAN. -/
def execDcan (e : Fin 17) (a : Fin 16) (func : BitVec 12) (s : State) : Result :=
  .next (runOn e (fun r s => stageThen e r 1 (.draftCancel (domainOf r func) (entryOf func (dbits r.v[a] 7 0))) s) s)
/-- DFREE. -/
def execDfree (e : Fin 17) (a : Fin 16) (func : BitVec 12) (s : State) : Result :=
  .next (runOn e (fun r s => stageThen e r 1 (.draftFree (domainOf r func) (entryOf func (dbits r.v[a] 7 0))) s) s)
/-- DST (R216). -/
def execDst (e : Fin 17) (d a : Fin 16) (func : BitVec 12) (s : State) : Result :=
  .next (runOn e (fun r s =>
    let x := s.draft (domainOf r func) (entryOf func (dbits r.v[a] 7 0))
    let w := x.spec.angle.toNat * 2 ^ 32 + x.spec.facet.val * 2 ^ 24 + x.spec.hostOwn.toNat * 2 ^ 17 + x.spec.owner.val * 2 ^ 8 +
      x.status.code * 2 ^ 4 + x.reason.toNat
    readQ e d (BitVec.ofNat 64 w) (x.status == .free) 6 r s) s)
/-- DTM (R209, R216). -/
def execDtm (e : Fin 17) (d a : Fin 16) (func : BitVec 12) (s : State) : Result :=
  .next (runOn e (fun r s =>
    let t := draftTime (s.draft (domainOf r func) (entryOf func (dbits r.v[a] 7 0)))
    readQ e d t (t == noTime) 6 r s) s)

/-! ### Analogue (R218–R222) -/

/-- CONV (R219). -/
def execConv (e : Fin 17) (a : Fin 16) (func : BitVec 12) (s : State) : Result :=
  .next (runOn e (fun r s =>
    stageThen e r 1 (.conv (Fin.ofNat 8 (bits func 2 0)) (if func.getLsbD 3 then none else some r.v[a])
      (BitVec.ofNat 8 (bits func 11 4))) s) s)

/-- An instruction that names converter func[4:0]; 24–31 are illegal (R218). -/
def onConverter (e : Fin 17) (func : BitVec 12) (f : Fin 24 → Routine → State → State) (s : State) : State :=
  runOn e (fun r s => if 24 ≤ bits func 4 0 then illegal e s else f (Fin.ofNat 24 (bits func 4 0)) r s) s

/-- CONVU (R220). -/
def execConvu (e : Fin 17) (a : Fin 16) (func : BitVec 12) (s : State) : Result :=
  .next (onConverter e func (fun c r s =>
    let x := r.v[a].toNat
    if x % 16 ≠ 0 ∨ vaultSize ≤ x then illegal e s
    else stageThen e r 1 (.convu c (BitVec.ofNat 2 (bits func 6 5)) (BitVec.ofNat 24 x)) s) s)
/-- RRED (R221). -/
def execRred (e : Fin 17) (d : Fin 16) (func : BitVec 12) (s : State) : Result :=
  .next (onConverter e func (fun c r s =>
    let (x, ok) := s.redField c (Fin.ofNat 4 (bits func 6 5)) (Fin.ofNat 8 (bits func 9 7))
    readQ e d x (!ok) 6 r s) s)
/-- RWIN (R222). -/
def execRwin (e : Fin 17) (a b : Fin 16) (func : BitVec 12) (s : State) : Result :=
  .next (onConverter e func (fun c r s => stageThen e r 1 (.rwin c (Fin.ofNat 4 (bits func 6 5)) r.v[a] r.v[b]) s) s)

/-! ### Log and fabric (R223–R226) -/

/-- NOTE (R224). -/
def execNote (e : Fin 17) (a b : Fin 16) (func : BitVec 12) (s : State) : Result :=
  .next (runOn e (fun r s =>
    stageThen e r 2 (.note (Fin.ofNat 16 (bits func 3 0)) (BitVec.ofNat 8 (bits func 11 4)) s.now r.v[a] r.v[b]) s) s)
/-- SEAL (R225): func bits 11:5 are reserved. -/
def execSeal (e : Fin 17) (a : Fin 16) (func : BitVec 12) (s : State) : Result :=
  .next (runOn e (fun r s =>
    if bits func 11 5 ≠ 0 then illegal e s
    else stageThen e r 1 (.seal (Fin.ofNat 16 (bits func 3 0)) (if func.getLsbD 4 then none else some r.v[a])) s) s)
/-- RPOST (R226): a remote post. -/
def execRpost (e : Fin 17) (a : Fin 16) (_func : BitVec 12) (s : State) : Result :=
  .next (runOn e (fun r s =>
    stageThen e r 1 (.rpost (BitVec.ofNat 6 (dbits r.v[a] 14 9)) (chanOf (dbits r.v[a] 8 0))) s) s)
/-- The remote event form of rpost (R226): to one node, or to all. -/
def execRemoteEvent (e : Fin 17) (a : Fin 16) (func : BitVec 12) (s : State) : Result :=
  .next (runOn e (fun r s =>
    stageThen e r 1 (.revt (if func.getLsbD 10 then none else some (BitVec.ofNat 6 (dbits r.v[a] 14 9)))
      (BitVec.ofNat 5 (bits func 4 0))) s) s)

end Sys2Proof.Machine
end

