-- ==== Sys2Proof/Machine/Legacy.lean ====
section
/-!
DEFINITION. Legacy instructions (spec/07, R194–R197): the mapping of Jengor resources to those of the part. What the Jengor reference
manual gives an instruction (a result, flags, whether a branch is taken) is an operand.
-/
namespace Sys2Proof.Machine
open Sys2Proof

/-- The facet of legacy pin `p` (R195). -/
def legacyFacet (r : Routine) (p : BitVec 6) : Fin 256 := Fin.ofNat 256 (r.ctx.bind.toNat % 256 / 64 * 64 + p.toNat)

/-- The channel of legacy number `n` (R195). -/
def legacyChannel (r : Routine) (n : BitVec 6) : Fin 512 := Fin.ofNat 512 (r.ch.val / 64 * 64 + n.toNat)

/-- The Vault address of parameter word `a`, if R183 allows a 4-byte access there. -/
def legacyAddr (r : Routine) (a : BitVec 22) : Option Nat :=
  vaultAddr (BitVec.ofNat 64 ((r.v[14]).toNat % 2 ^ 24)) (BitVec.ofNat 64 (4 * a.toNat)) 4

/-- A legacy time extended at issue (R196). -/
def legacyTime (now : Time) (t : Word) : Time :=
  let n := now.toNat / 8
  let dl := (t - BitVec.ofNat 32 n).toInt
  BitVec.ofInt 64 (((n : Int) + dl) * 8)

/-- A legacy register write clears bits 63:32 (R195). -/
def legacyPut (r : Routine) (d : Fin 8) (x : Word) : Routine := r.setV (Fin.ofNat 16 d.val) (x.setWidth 64)
def legacyGet (r : Routine) (d : Fin 8) : Word := loWord (r.v[(Fin.ofNat 16 d.val)])

/-- Z, N, C and V replaced; L and Q keep their values. -/
def legacyFlags (f : BitVec 6) (x : BitVec 4) : BitVec 6 := (f &&& 0x30) ||| x.setWidth 6

/-- LEGACY_INSTRUCTION: the effect and the cost of each class (R195–R197). A time written to a counter keeps its 32 bits (R196) and costs
what a pin schedule does; which counter and compare it names is the Jengor manual's (log entry 42). -/
def legacyInstruction (e : Fin 17) (x : LegacyOp) (s : State) : State :=
  runOn e (fun r s =>
    match x with
    | .alu d v f => finish e (legacyPut { r with flags := legacyFlags r.flags f } d v) 2 s
    | .compare f => finish e { r with flags := legacyFlags r.flags f } 2 s
    | .branch taken tgt => if taken then s.putTop e (r.spend s 5 tgt) else finish e r 2 s
    | .paramRead d a =>
      match legacyAddr r a with
      | none => illegal e s
      | some p => issueAccess e r p 4 none (.reg (Fin.ofNat 16 d.val)) 8 (r.pc + 1) s
    | .paramWrite a d =>
      match legacyAddr r a with
      | none => illegal e s
      | some p => stageThen e r 3 (.store p (leBytes 4 (legacyGet r d).toNat)) s
    | .schedule p t act drop tag notify =>
      stageThen e r 3 (.sched (legacyFacet r p)
        { time := some (legacyTime s.now (legacyGet r t)), act := act, drop := drop, tag := tag, notify := notify, origin := none }) s
    | .counter n k t => stageThen e r 3 (.cmpWrite n k (legacyGet r t)) s
    | .flush p => stageThen e r 3 (.flush (legacyFacet r p)) s
    | .safe p => stageThen e r 3 (.safe (legacyFacet r p)) s
    | .release p => stageThen e r 3 (.release (legacyFacet r p)) s
    | .timeRead d => finish e (legacyPut r d (BitVec.ofNat 32 (s.now.toNat / 8))) 3 s
    | .post n => stageThen e r 2 (.post (legacyChannel r n)) s
    | .finish next ctx => commitPoint e r { pc := next, wake := none, sub := none, again := 0 } ctx s) s
def execLegacyInstruction (e : Fin 17) (x : LegacyOp) (s : State) : Result := .next (legacyInstruction e x s)

end Sys2Proof.Machine
end

