-- ==== Sys2Proof/Machine/Trap.lean ====
section
/-!
DEFINITION. Micro-traps (spec/06, spec/09): urgent preemption from the choice of a victim to the trap, the Mint's trap-point limit, and the
repair of a control-store parity error.
-/
namespace Sys2Proof.Machine
open Sys2Proof

/-! ### The victim (R155) -/

/-- Class of an engine's routine as a victim, or none when it is not one: its trap level must be free, and a replay counts as class U
(R424). -/
def State.victimClass (s : State) (e : Fin 17) : Option Nat :=
  match (s.tlr.eng[e]).l0 with
  | some r =>
    if s.trapBusy e || (s.tlr.eng[e]).sel.isSome || s.engActive e == false || r.replay || r.ctx.cls == 3 then none else some r.ctx.cls.toNat
  | none => none

/-- The victim: the lowest class, and among equals the highest engine number. -/
def State.victim (s : State) : Option (Fin 17) :=
  (List.finRange 17).foldl (fun best e =>
    match s.victimClass e with
    | none => best
    | some c =>
      match best with
      | none => some e
      | some b => if c ≤ (s.victimClass b).getD 3 then some e else some b) none

/-- The channel can preempt: it is of class U and ready, or in REPLAY. -/
def State.urgent (s : State) (ch : Fin 512) : Bool := s.replaying ch || (s.ready ch && (s.tlr.ctx[ch]).cls == 3)

/-- The channel chosen under R149, if it can preempt. -/
def State.urgentPick (s : State) : Option (Fin 512) := s.pick.filter s.urgent

/-- The Teller can choose a victim: no active engine is idle, and the victim's quad has had no dispatch in this engine cycle (R149). -/
def State.choice (s : State) : Option (Fin 512 × Fin 17) :=
  if s.dispatching = false ∨ s.flag TLR_CTRL.preempt_en = false ∨ (List.finRange 17).any (fun e => s.engActive e && s.engIdle e) then none
  else
    match s.urgentPick, s.victim with
    | some ch, some e => if s.tlr.dispAt[s.engQuad e] = s.engCycle + 1 then none else some (ch, e)
    | _, _ => none

/-- The choice is made: it is the quad's dispatch of this engine cycle. -/
def choose (ch : Fin 512) (e : Fin 17) (s : State) : State :=
  let s := s.modTlr fun t => { t with dispAt := vmod t.dispAt (s.engQuad e) fun _ => s.engCycle + 1 }
  s.modEng e fun x => { x with sel := some (ch, s.engCycle) }

/-! ### Trap points (R241) -/

/-- The next Mint word of a routine has trp = 1. -/
def State.trapWord (s : State) (m : Micro) : Bool := nf (s.mnt.wordAt m.u).2 61 61 == 1

/-- A routine stands at a trap point: before the first word of an instruction, before a Mint word with trp = 1, or at a word whose access
waits for its first slot. -/
def State.atTrapPoint (s : State) (r : Routine) : Bool :=
  match r.acc, r.micro with
  | some x, _ => x.got.isEmpty
  | none, some m => decide (r.issueAt ≤ s.engCycle) && s.trapWord m
  | none, none => decide (r.issueAt ≤ s.engCycle)

/-- The victim `e`, chosen in engine cycle `c`, has come to where it takes its trap: two cycles after the choice or later (R156, Example 1), at a trap
point; inside a vendor instruction, whose words the spec does not give, twelve cycles after it (log entry 18). -/
def State.trapReady (s : State) (e : Fin 17) : Bool :=
  match (s.tlr.eng[e]).sel, (s.tlr.eng[e]).l0 with
  | some (_, c), some r =>
    decide (c + 2 ≤ s.engCycle) && !s.trapBusy e &&
      (s.atTrapPoint r || (r.acc.isNone && r.micro.isNone && decide (c + 12 ≤ s.engCycle)))
  | _, _ => false

/-- The trap can be taken: a load already granted has brought its data, so that VD is saved valid (R241). -/
def State.trapDue (s : State) (e : Fin 17) : Bool :=
  s.trapReady e && (match ((s.tlr.eng[e]).l0).bind (·.micro) with | some m => decide (m.vdAt ≤ s.engCycle) | none => true)

/-! ### The save (R242) -/

/-- Entry of the dispatch table that the instruction word `w` of a routine names: its valid bit and micro address (R239). -/
def State.entryOf (s : State) (persona : Bool) (w : Word) : Word :=
  if persona then Sparse.get (fun _ => 0) s.mnt.legacy (Config.legacyOpcode w).toNat else s.rd (MNT_DISP (w.toNat / 2 ^ 24))

/-- The micro-state of a routine. At the first word of an instruction the stack is empty and the micro address is the dispatch entry; the
temporaries, lc and VD are undefined there. Inside a vendor instruction all of it is that of vendor words, which are not in the spec: free
values (log entry 57). -/
def microOf (r : Routine) (s : State) : Micro × State :=
  match r.micro with
  | some m => (m, s)
  | none =>
    let w := s.program r.pc
    let (l, s) := freeWords 12 s
    let f (k : Nat) : Nat := (l.getD k 0).toNat
    let m : Micro :=
      { w := w, u := (s.entryOf r.ctx.persona w).setWidth 13, t := Vector.ofFn fun k : Fin 8 => l.getD k 0, lc := BitVec.ofNat 8 (f 8),
        vd := l.getD 9 0, vdAt := 0, stack := [], pend := none }
    if r.acc.isNone ∧ r.issueAt ≤ s.engCycle then (m, s)
    else
      ({ m with u := BitVec.ofNat 13 (f 10), stack := (List.range (f 10 / 2 ^ 13 % 5)).map fun k => BitVec.ofNat 13 (f 11 / 2 ^ (13 * k)),
                pend := if f 10 / 2 ^ 16 % 2 = 1 then some (BitVec.ofNat 16 (f 10 / 2 ^ 17)) else none }, s)

/-- The budget count of the engine cycle in progress (R153). -/
def Routine.countNow (r : Routine) (s : State) : Nat := r.count + s.engCycle - r.issueAt

/-- The micro-state of engine `e` is saved with the given cause (R242). -/
def saveRows (e : Fin 17) (r : Routine) (cause : Nat) (s : State) : State :=
  let (m, s) := microOf r s
  s.modMnt fun x => { x with tsave := vmod x.tsave e fun _ => packRows m r.pc cause (r.countNow s) r.stage.length r.acc.isSome }

/-! ### Urgent preemption (R155, R156) -/

/-- The victim's trap is taken: its micro-state is saved in 8 cycles, the urgent context loads in one, and its first instruction issues in the
ninth cycle after that of the trap. An access that waits is abandoned, and its instruction issues again after the resume. -/
def takeTrap (e : Fin 17) (ch : Fin 512) (ctx fetch : Ecc) (s : State) : State :=
  match (s.tlr.eng[e]).l0 with
  | none => s
  | some v =>
    let s := s.modEng e fun x => { x with sel := none }
    if s.dispatching = false ∨ s.flag TLR_CTRL.preempt_en = false ∨ s.urgent ch = false then s
    else if ctx = .uncorrectable then contextLost ch e s
    else
      let s := if ctx = .corrected then ctxCorrected s else s
      let s := saveRows e v 1 s
      let left := if v.acc.isSome then 0 else v.issueAt - s.engCycle
      let (r, s) := beginRoutine ch e (s.engCycle + 9) s
      let s := s.modEng e fun x => { x with l0 := some { v with acc := none, issueAt := left }, l1 := some r }
      fetchCheck e fetch (s.set (TLR_CH_STAT.state v.ch) chPreempted)

/-- PREEMPTION (R155, R156): a victim at a trap point takes its trap; else an urgent channel chooses its victim. -/
def preemption (ctx fetch : Ecc) (s : State) : State :=
  match (List.finRange 17).find? s.trapDue with
  | some e =>
    match (s.tlr.eng[e]).sel with
    | some (ch, _) => takeTrap e ch ctx fetch s
    | none => s
  | none =>
    match s.choice with
    | some (ch, e) => choose ch e s
    | none => s
def execPreemption (ctx fetch : Ecc) (s : State) : Result := .next (preemption ctx fetch s)

/-- The victim `e` has run a Mint micro-routine for 12 engine cycles since its choice without a trap point (R247). -/
def State.trapLate (s : State) (e : Fin 17) : Bool :=
  match (s.tlr.eng[e]).sel, (s.tlr.eng[e]).l0 with
  | some (_, c), some r => decide (c + 12 ≤ s.engCycle) && !s.trapBusy e && r.micro.isSome && !s.atTrapPoint r
  | _, _ => false

/-- MINT_TRAP_TIMEOUT (R247): the routine is aborted as a Mint fault, and the urgent channel is dispatched to the engine as if it were idle. -/
def mintTrapTimeout (e : Fin 17) (s : State) : State :=
  if s.trapLate e = false then s
  else
    match (s.tlr.eng[e]).sel, ((s.tlr.eng[e]).l0).bind (·.micro) with
    | some (ch, _), some m =>
      let s := mintFault e 8 m.u s
      if s.dispatching && s.urgent ch then
        let (r, s) := beginRoutine ch e (s.engCycle + 2) s
        s.modEng e fun x => { x with l0 := some r }
      else s
    | _, _ => s
def execMintTrapTimeout (e : Fin 17) (s : State) : Result := .next (mintTrapTimeout e s)

/-! ### Parity repair (R241, R244) -/

/-- The trap of a parity error before the next word of level 0: save, rewrite and restore take 22 cycles, not counted in the budget (R243).
A load already granted is waited for first (R241). -/
def repairTrap (e : Fin 17) (r : Routine) (s : State) : State :=
  let now := max r.issueAt s.engCycle
  let at' := match r.micro with | some m => max now m.vdAt | none => now
  let s := saveRows e r 2 s
  let s := s.modEng e fun x => { x with l0 := some { r with issueAt := at' + 22, count := r.count + (at' - now) }, busyTo := at' + 22 }
  ((s.raise MNT_STAT.repair).incSat MNT_STAT.repair_count).fault .csRepair

/-- PARITY_REPAIR: `again` says that the rewritten word fails once more, `master` that the master word is uncorrectable. No word begins, and
so none is checked, while an access waits. -/
def parityRepair (e : Fin 17) (again master : Bool) (s : State) : State :=
  match (s.tlr.eng[e]).l0 with
  | none => s
  | some r =>
    if s.trapBusy e then fence e .nestedTrap s
    else if r.acc.isSome then s
    else if master then ((abortTop e 3 s).raise MNT_STAT.master_err).fault .csMaster
    else if again then fence e .parity (repairTrap e r s)
    else repairTrap e r s
def execParityRepair (e : Fin 17) (again master : Bool) (s : State) : Result := .next (parityRepair e again master s)

end Sys2Proof.Machine
end

