-- ==== Sys2Proof/Machine/Slot.lean ====
section
/-!
DEFINITION. The Vault's slots (spec/10, R254–R259): which requester takes the slot of the present cycle, and the rows that carry an access in
it. A row acts only if the slot of its cycle has not been granted and goes to it.
-/
namespace Sys2Proof.Machine
open Sys2Proof

/-! ### Requests that are ready -/

/-- The commit unit has a Vault write to make: step 1 of the oldest commit is done (R162). -/
def State.commitReady (s : State) : Bool :=
  match s.tlr.commits with
  | c :: _ => c.back.isNone && !c.vault.isEmpty
  | [] => false

/-- The engine requester with number `k` has an access ready (R258): an active engine, or as number 17 the commit unit. -/
def State.engReady (s : State) (k : Nat) : Bool :=
  if h : k < 17 then s.engActive ⟨k, h⟩ && ((s.routine ⟨k, h⟩).bind (·.acc)).isSome else k == 17 && s.commitReady

/-- The ADC writer has a write to make (R282). -/
def State.writerReady (s : State) : Bool := match s.adc.queue with | [] | .frameDone _ :: _ => false | _ => true

/-- The first stream with a staging line to write (R315). -/
def State.lineStream (s : State) : Option (Fin 16) := (List.finRange 16).find? fun m => !((s.dbk.stream[m]).lines).isEmpty

/-- A class of R257 has a request ready. -/
def State.classReady (s : State) (c : Nat) : Bool :=
  match c with
  | 0 => (List.range 18).any s.engReady
  | 1 => s.writerReady
  | 2 => s.dmaHead.isSome
  | 3 => !s.vlt.host.isEmpty
  | 4 => !s.vlt.asy.isEmpty
  | 5 => s.lineStream.isSome
  | 6 => !s.vlt.slo.isEmpty || s.consumerDue || s.bulkDue
  | _ => false

/-! ### Requests of VAULT_ACCESS -/

/-- Number of an engine requester in the round robin of R258; the commit unit is the last. -/
def reqNum : Requester → Nat
  | .engine e => e
  | _ => 17

/-- The requester has a request of its own in the state. -/
def State.ownReady (s : State) (w : Requester) : Bool :=
  match w with
  | .engine _ | .commit => s.engReady (reqNum w)
  | _ => s.classReady (reqCode w)

/-- A request given from outside stands for a requester that has none of its own: the Assayer, the Bezel and Sloulo make no atomic (R260),
and an engine is one of the active ones (R258). -/
def State.counts (s : State) (q : VaultRequest) : Bool :=
  !s.ownReady q.who &&
    (match q.who with | .engine e => s.engActive e | _ => true) &&
    (match q.who, q.op with | .assayer, .atomic _ _ _ | .bezel, .atomic _ _ _ | .sloulo, .atomic _ _ _ => false | _, _ => true)

/-- What the check of the line finds for a requester of the state: it comes with the requests, by requester. -/
def eccFor (reqs : List VaultRequest) (p : Requester → Bool) : LineEcc :=
  match reqs.find? fun q => p q.who with
  | some q => q.ecc
  | none => ⟨0, 0⟩

/-! ### Arbitration (R256–R258) -/

/-- The slot of this cycle: the class that takes it, whether as a pooled slot, and the engine requester in class 0. `reqs` are requests given
from outside. -/
def State.winner (s : State) (reqs : List VaultRequest) : Option (Nat × Bool × Nat) :=
  let reqs := reqs.filter s.counts
  match grantClass s.vlt fun c => s.classReady c || reqs.any fun q => reqCode q.who == c with
  | none => none
  | some (0, pooled) =>
    (nextAfter 18 s.vlt.lastEng fun k => s.engReady k || reqs.any fun q => reqCode q.who == 0 && reqNum q.who == k).map fun k => (0, pooled, k)
  | some (c, pooled) => some (c, pooled, 0)

/-- The slot is granted. -/
def takeSlot (w : Nat × Bool × Nat) (s : State) : State :=
  s.modVlt fun x =>
    { x with granted := true, lastClass := if w.2.1 then w.1 else x.lastClass, lastEng := if w.1 = 0 then w.2.2 else x.lastEng }

/-- A row acts in the slot of its cycle if that slot goes to a requester of which `p` holds. -/
def inSlot (p : Nat × Bool × Nat → Bool) (f : State → State) (s : State) : State :=
  if s.vlt.granted then s
  else
    match s.winner [] with
    | some w => if p w then f (takeSlot w s) else s
    | none => s

/-- The slot of this cycle is idle (R257). -/
def State.idleSlot (s : State) : Bool := !s.vlt.granted && (s.winner []).isNone

/-- A row of the scrubber acts in an idle slot. -/
def inIdleSlot (f : State → State) (s : State) : State :=
  if s.idleSlot then f (s.modVlt fun x => { x with granted := true }) else s

/-! ### The access of each class -/

/-- Two findings on one line together. -/
def bothEcc (a b : LineEcc) : LineEcc := ⟨a.corr ||| b.corr, a.bad ||| b.bad⟩

/-- The checks of a request's lines, with `e` for the next one. -/
def nextEcc (e : LineEcc) : List LineEcc → List LineEcc
  | [] => [e]
  | x :: r => bothEcc x e :: r

/-- The next slot of the request at the front of a class. -/
def busSlot (c : Nat) (e : LineEcc) (s : State) : State :=
  match s.vlt.waiting c with
  | [] => s
  | .read a size above got eccs off to' :: rest => busRead' c a size above got (nextEcc e eccs) off to' rest s
  | .write a bytes eccs :: rest => busWrite' c a bytes (nextEcc e eccs) rest s
  | .atomic w swap v :: rest => atomicApply w swap v e rest s
  | .entry bytes post :: rest => putEntry bytes post e (s.modVlt fun x => x.putWaiting c rest)

/-- Sloulo's access: what waits, then the consumer count, then the mailbox (log entry 62). -/
def fabricSlot (e : LineEcc) (s : State) : State :=
  if !s.vlt.slo.isEmpty then busSlot 6 e s else if s.consumerDue then consumerCountWrite e s else bulkTxRead e s

/-- The oldest Vault access of the DMA engine (R295). -/
def dmaSlot (e : LineEcc) (s : State) : State :=
  match s.dmaHead with
  | some (n, true) => dmaWriteIssue true n e s
  | some (n, false) => dmaReadReturn true n ⟨e, [], none⟩ s
  | none => s

/-- The access of the requester that has the slot. -/
def serve (c k : Nat) (e : LineEcc) (s : State) : State :=
  match c with
  | 0 => if h : k < 17 then accessGrant ⟨k, h⟩ e s else commitVaultWrite e s
  | 1 => writerLineWrite e s
  | 2 => dmaSlot e s
  | 5 => match s.lineStream with | some m => assemblerLineWrite m e s | none => s
  | 6 => fabricSlot e s
  | _ => busSlot c e s

/-! ### VAULT_ACCESS -/

/-- A requester learns of poison (R265). -/
def poisonTold (who : Requester) (addr : Nat) (atomic : Bool) (s : State) : State :=
  match who with
  | .engine e => abortTop e 5 s
  | .commit => if atomic then s.raise VLT_STAT.poison_atom else s
  | .dma n => if (s.dma.chan[n]).xfer.isSome && !s.dmaHalted then busError n 3 (BitVec.ofNat 64 addr) s else s
  | .host => if atomic then s.raise VLT_ATOM_CMD.poison else s
  | _ => s

/-- An access given from outside, in its slot; a read or an atomic returns words, all ones where the word is poisoned (R265). -/
def bankAccess (q : VaultRequest) (s : State) : State :=
  let code := reqCode q.who
  let a := 32 * q.line.val
  match q.op with
  | .read =>
    let (bs, bad, s) := bankRead code a 32 q.ecc s
    let s := if bad then poisonTold q.who a false s else s
    { s with read := bytesToWords (bs.zipIdx.map fun (b, k) => if s.vlt.poisoned ((a + k) / 8) then 0xFF else b) }
  | .write bytes =>
    if code = 1 ∨ code = 4 ∨ code = 5 then bankStore code a (bytes.take 32) q.ecc (countSlot code s)
    else bankWrite code a (bytes.take 32) q.ecc (countSlot code s)
  | .atomic w swap v =>
    let (old, s) := bankAtomic code (4 * q.line.val + w) swap v q.ecc (countSlot code s)
    let s := if old.isNone then poisonTold q.who (a + 8 * w.val) true s else s
    let r := old.getD (BitVec.allOnes 64)
    { s with read := [loWord r, hiWord r] }

/-- VAULT_ACCESS (R254–R259): the slot of this cycle goes to one of the requests that are ready, those of the state and those given from
outside; a cycle has one slot. -/
def vaultAccess (reqs : List VaultRequest) (s : State) : State :=
  if s.vlt.granted then s
  else
    match s.winner reqs with
    | none => s
    | some (c, pooled, k) =>
      let mine (w : Requester) : Bool := reqCode w == c && (c != 0 || reqNum w == k)
      let t := takeSlot (c, pooled, k) s
      if if c = 0 then s.engReady k else s.classReady c then serve c k (eccFor reqs mine) t
      else
        match (reqs.filter s.counts).find? fun q => mine q.who with
        | some q => bankAccess q t
        | none => s
def execVaultAccess (reqs : List VaultRequest) (s : State) : Result := .next (vaultAccess reqs s)

/-! ### The rows of single requesters -/

/-- COMMIT_VAULT_WRITE (R162). -/
def execCommitVaultWrite (ecc : LineEcc) (s : State) : Result :=
  .next (inSlot (fun w => w.1 == 0 && w.2.2 == 17) (commitVaultWrite ecc) s)

/-- WRITER_LINE_WRITE (R282). -/
def execWriterLineWrite (ecc : LineEcc) (s : State) : Result := .next (inSlot (fun w => w.1 == 1) (writerLineWrite ecc) s)

/-- HOST_ATOMIC_APPLY (R261): the host's oldest request is an atomic, and the slot is the host's. -/
def execHostAtomicApply (ecc : LineEcc) (s : State) : Result :=
  .next (inSlot (fun w => w.1 == 3 && (match s.vlt.host with | .atomic _ _ _ :: _ => true | _ => false)) (busSlot 3 ecc) s)

/-- ASSEMBLER_LINE_WRITE (R315). -/
def execAssemblerLineWrite (m : Fin 16) (ecc : LineEcc) (s : State) : Result :=
  .next (inSlot (fun w => w.1 == 5 && s.lineStream == some m) (assemblerLineWrite m ecc) s)

/-- BULK_TX_READ (R372). -/
def execBulkTxRead (ecc : LineEcc) (s : State) : Result :=
  .next (inSlot (fun w => w.1 == 6 && s.vlt.slo.isEmpty && !s.consumerDue) (bulkTxRead ecc) s)

/-- CONSUMER_COUNT_WRITE (R372). -/
def execConsumerCountWrite (ecc : LineEcc) (s : State) : Result :=
  .next (inSlot (fun w => w.1 == 6 && s.vlt.slo.isEmpty && s.consumerDue) (consumerCountWrite ecc) s)

/-- DMA_READ_RETURN (R296): the engine's oldest Vault access in its slot, when it is a read of this channel; else the channel's oldest line
of another space. -/
def execDmaReadReturn (n : Fin 32) (x : DmaReply) (s : State) : Result :=
  .next (if (s.readLineOf false n).isSome then dmaReadReturn false n x s
    else inSlot (fun w => w.1 == 2 && s.dmaHead == some (n, false)) (dmaReadReturn true n x) s)

/-- DMA_WRITE_ISSUE (R297, R299): the same for a line that leaves. -/
def execDmaWriteIssue (n : Fin 32) (ecc : LineEcc) (s : State) : Result :=
  .next (if s.portWriteDue n then dmaWriteIssue false n ecc s
    else inSlot (fun w => w.1 == 2 && s.dmaHead == some (n, true)) (dmaWriteIssue true n ecc) s)

/-! ### The scrubber (R266) -/

/-- SCRUB_READ: the next line, when it is due. -/
def execScrubRead (ecc : LineEcc) (s : State) : Result := .next (if s.scrubDue then inIdleSlot (scrubLine ecc) s else s)

/-- The first corrected word that waits is rewritten. -/
def rewriteWord (s : State) : State := countSlot 7 (s.modVlt fun x => { x with fix := x.fix.drop 1 })

/-- The scrubber has a word to rewrite. -/
def State.rewriteDue (s : State) : Bool := s.flag VLT_CTRL.scrub_en && !s.vlt.fix.isEmpty

/-- SCRUB_REWRITE. -/
def execScrubRewrite (s : State) : Result := .next (if s.rewriteDue then inIdleSlot rewriteWord s else s)

/-- A cycle whose slot nobody has taken adds one to the idle slots of its Tally (VLT_USE). -/
def countIdle (s : State) : State := if s.vlt.granted then s else countSlot 7 s

end Sys2Proof.Machine
end

