-- ==== Sys2Proof/Machine/Tally.lean ====
section
/-!
DEFINITION. The Tally boundary (spec/02, R39): event 88 and the per-Tally accounting of every block.
-/
namespace Sys2Proof.Machine
open Sys2Proof

/-- The stuck detectors of the inputs (R81, R92). -/
def stuckTally (s : State) : State :=
  let s := forAll 256 (fun n s =>
    let on := s.fctMode n != 0
    let lvl := s.flag (FCT_FILT.stuck_lvl n)
    s.modFct n fun f => { f with inp := f.inp.stuckTally on lvl }) s
  forAll 8 (fun n s =>
    let on := s.whlOn n
    let lvl := s.flag (WHL_FILT.stuck_lvl n)
    s.modWhl n fun w => { w with inp := w.inp.stuckTally on lvl }) s

/-- TLR_LOAD: busy engine cycles of the Tally that ends, and their peak. -/
def loadTally (s : State) : State :=
  let n := min s.tlr.busy 65535
  let s := s.set TLR_LOAD.last n
  let s := if s.get TLR_LOAD.peak < n then s.set TLR_LOAD.peak n else s
  s.modTlr fun t => { t with busy := 0 }

/-- TALLY_BOUNDARY: once in the cycle of a boundary. -/
def tallyBoundary (s : State) : State :=
  if s.tb.boundary = false ∨ s.tb.boundaryDone = true then s
  else
    let s := s.modTb fun b => { b with boundaryDone := true }
    let s := forAll 32 countTally (pulse 88 s)
    let s := (vaultTally (stuckTally s)).modVlt fun x => { x with pos := 0 }
    icResample (sloTally (pulseTally (loadTally (adcTally s))))
def execTallyBoundary (s : State) : Result := .next (tallyBoundary s)

end Sys2Proof.Machine
end

