-- ==== Sys2Proof/Machine/Dispatch.lean ====
section
/-!
DEFINITION. The meaning of each command of the opcode table.
-/
namespace Sys2Proof.Machine
open Sys2Proof

def exec (i : Instr) (s : State) : Host.Outcome State Fault Refusal :=
  match i with
  | .registerWrite off v => Sys2Proof.Machine.execRegisterWrite off v s
  | .go late => Sys2Proof.Machine.execGo late s
  | .counterWrap n => Sys2Proof.Machine.execCounterWrap n s
  | .compareWrite n k v => Sys2Proof.Machine.execCompareWrite n k v s
  | .compareDisarm n k => Sys2Proof.Machine.execCompareDisarm n k s
  | .counterMatch n k => Sys2Proof.Machine.execCounterMatch n k s
  | .goatReceive origin cancel tally => Sys2Proof.Machine.execGoatReceive origin cancel tally s
  | .noticeReceive kind => Sys2Proof.Machine.execNoticeReceive kind s
  | .armedEntryArrival n x => Sys2Proof.Machine.execArmedEntryArrival n x s
  | .facetCompareMatch n => Sys2Proof.Machine.execFacetCompareMatch n s
  | .facetCancel n tag => Sys2Proof.Machine.execFacetCancel n tag s
  | .facetFlush n => Sys2Proof.Machine.execFacetFlush n s
  | .facetSafe n => Sys2Proof.Machine.execFacetSafe n s
  | .facetRelease n => Sys2Proof.Machine.execFacetRelease n s
  | .edgeAccept n => Sys2Proof.Machine.execEdgeAccept n s
  | .muteEnd n => Sys2Proof.Machine.execMuteEnd n s
  | .stuckDetect n => Sys2Proof.Machine.execStuckDetect n s
  | .captureRemoval q count => Sys2Proof.Machine.execCaptureRemoval q count s
  | .primaryEdgeDecision d => Sys2Proof.Machine.execPrimaryEdgeDecision d s
  | .secondaryEdgeDecision d => Sys2Proof.Machine.execSecondaryEdgeDecision d s
  | .limpWatchStart d => Sys2Proof.Machine.execLimpWatchStart d s
  | .overdue d => Sys2Proof.Machine.execOverdue d s
  | .keepExpiry d => Sys2Proof.Machine.execKeepExpiry d s
  | .whlEdgeAccept n => Sys2Proof.Machine.execWhlEdgeAccept n s
  | .whlMuteEnd n => Sys2Proof.Machine.execWhlMuteEnd n s
  | .whlStuckDetect n => Sys2Proof.Machine.execWhlStuckDetect n s
  | .vrPeakTimeout n => Sys2Proof.Machine.execVrPeakTimeout n s
  | .draftArrival d k x => Sys2Proof.Machine.execDraftArrival d k x s
  | .draftCancelArrival d k ch => Sys2Proof.Machine.execDraftCancelArrival d k ch s
  | .draftFreeArrival d k ch => Sys2Proof.Machine.execDraftFreeArrival d k ch s
  | .mirrorCellDecision d => Sys2Proof.Machine.execMirrorCellDecision d s
  | .coastSynthesis d => Sys2Proof.Machine.execCoastSynthesis d s
  | .coastEnd d => Sys2Proof.Machine.execCoastEnd d s
  | .wakeTimeReached ch => Sys2Proof.Machine.execWakeTimeReached ch s
  | .dispatch q ctx fetch => Sys2Proof.Machine.execDispatch q ctx fetch s
  | .preemption ctx fetch => Sys2Proof.Machine.execPreemption ctx fetch s
  | .budgetAbort e => Sys2Proof.Machine.execBudgetAbort e s
  | .commitVaultWrite ecc => Sys2Proof.Machine.execCommitVaultWrite ecc s
  | .psRewriteDone c pass => Sys2Proof.Machine.execPsRewriteDone c pass s
  | .illegalInstruction e => Sys2Proof.Machine.execIllegalInstruction e s
  | .nop e => Sys2Proof.Machine.execNop e s
  | .mov e d a => Sys2Proof.Machine.execMov e d a s
  | .add e d a b => Sys2Proof.Machine.execAdd e d a b s
  | .sub e d a b => Sys2Proof.Machine.execSub e d a b s
  | .and e d a b => Sys2Proof.Machine.execAnd e d a b s
  | .or e d a b => Sys2Proof.Machine.execOr e d a b s
  | .xor e d a b => Sys2Proof.Machine.execXor e d a b s
  | .shl e d a b => Sys2Proof.Machine.execShl e d a b s
  | .shr e d a b => Sys2Proof.Machine.execShr e d a b s
  | .sar e d a b => Sys2Proof.Machine.execSar e d a b s
  | .mul e d a b => Sys2Proof.Machine.execMul e d a b s
  | .mulhu e d a b => Sys2Proof.Machine.execMulhu e d a b s
  | .mulsh e d a b => Sys2Proof.Machine.execMulsh e d a b s
  | .divu e d a b => Sys2Proof.Machine.execDivu e d a b s
  | .remu e d a b => Sys2Proof.Machine.execRemu e d a b s
  | .cmp e a b => Sys2Proof.Machine.execCmp e a b s
  | .tst e a b => Sys2Proof.Machine.execTst e a b s
  | .minu e d a b => Sys2Proof.Machine.execMinu e d a b s
  | .maxu e d a b => Sys2Proof.Machine.execMaxu e d a b s
  | .mins e d a b => Sys2Proof.Machine.execMins e d a b s
  | .maxs e d a b => Sys2Proof.Machine.execMaxs e d a b s
  | .ext e d a func => Sys2Proof.Machine.execExt e d a func s
  | .ins e d a func => Sys2Proof.Machine.execIns e d a func s
  | .addi e d a imm => Sys2Proof.Machine.execAddi e d a imm s
  | .andi e d a imm => Sys2Proof.Machine.execAndi e d a imm s
  | .ori e d a imm => Sys2Proof.Machine.execOri e d a imm s
  | .xori e d a imm => Sys2Proof.Machine.execXori e d a imm s
  | .shli e d a imm => Sys2Proof.Machine.execShli e d a imm s
  | .shri e d a imm => Sys2Proof.Machine.execShri e d a imm s
  | .sari e d a imm => Sys2Proof.Machine.execSari e d a imm s
  | .muli e d a imm => Sys2Proof.Machine.execMuli e d a imm s
  | .cmpi e a imm => Sys2Proof.Machine.execCmpi e a imm s
  | .cmpui e a imm => Sys2Proof.Machine.execCmpui e a imm s
  | .ldi e d imm => Sys2Proof.Machine.execLdi e d imm s
  | .movk e d k imm => Sys2Proof.Machine.execMovk e d k imm s
  | .b e off => Sys2Proof.Machine.execB e off s
  | .call e off => Sys2Proof.Machine.execCall e off s
  | .jr e a => Sys2Proof.Machine.execJr e a s
  | .beq e off => Sys2Proof.Machine.execBeq e off s
  | .bne e off => Sys2Proof.Machine.execBne e off s
  | .blt e off => Sys2Proof.Machine.execBlt e off s
  | .bge e off => Sys2Proof.Machine.execBge e off s
  | .bgt e off => Sys2Proof.Machine.execBgt e off s
  | .ble e off => Sys2Proof.Machine.execBle e off s
  | .blo e off => Sys2Proof.Machine.execBlo e off s
  | .bhs e off => Sys2Proof.Machine.execBhs e off s
  | .bhi e off => Sys2Proof.Machine.execBhi e off s
  | .bls e off => Sys2Proof.Machine.execBls e off s
  | .bmi e off => Sys2Proof.Machine.execBmi e off s
  | .bpl e off => Sys2Proof.Machine.execBpl e off s
  | .bvs e off => Sys2Proof.Machine.execBvs e off s
  | .bvc e off => Sys2Proof.Machine.execBvc e off s
  | .blate e off => Sys2Proof.Machine.execBlate e off s
  | .bnlate e off => Sys2Proof.Machine.execBnlate e off s
  | .bqe e off => Sys2Proof.Machine.execBqe e off s
  | .bnqe e off => Sys2Proof.Machine.execBnqe e off s
  | .ldw e d a imm => Sys2Proof.Machine.execLdw e d a imm s
  | .ldd e d a imm => Sys2Proof.Machine.execLdd e d a imm s
  | .ldh e a imm => Sys2Proof.Machine.execLdh e a imm s
  | .ldl e a imm => Sys2Proof.Machine.execLdl e a imm s
  | .stw e d a imm => Sys2Proof.Machine.execStw e d a imm s
  | .std e d a imm => Sys2Proof.Machine.execStd e d a imm s
  | .sth e a imm => Sys2Proof.Machine.execSth e a imm s
  | .stl e a imm => Sys2Proof.Machine.execStl e a imm s
  | .fadd e d a b func => Sys2Proof.Machine.execFadd e d a b func s
  | .fswp e d a b func => Sys2Proof.Machine.execFswp e d a b func s
  | .padd e a b func => Sys2Proof.Machine.execPadd e a b func s
  | .pswp e a b func => Sys2Proof.Machine.execPswp e a b func s
  | .endR e imm ctx => Sys2Proof.Machine.execEndR e imm ctx s
  | .wait e a func ctx => Sys2Proof.Machine.execWait e a func ctx s
  | .yieldR e ctx => Sys2Proof.Machine.execYieldR e ctx s
  | .post e a func => Sys2Proof.Machine.execPost e a func s
  | .trig e func => Sys2Proof.Machine.execTrig e func s
  | .mfs e d func => Sys2Proof.Machine.execMfs e d func s
  | .mts e a func => Sys2Proof.Machine.execMts e a func s
  | .sched e a fs func => Sys2Proof.Machine.execSched e a fs func s
  | .drv e fs func => Sys2Proof.Machine.execDrv e fs func s
  | .fcan e fs func => Sys2Proof.Machine.execFcan e fs func s
  | .fcmdFlush e fs => Sys2Proof.Machine.execFcmdFlush e fs s
  | .fcmdSafe e fs => Sys2Proof.Machine.execFcmdSafe e fs s
  | .fcmdRelease e fs => Sys2Proof.Machine.execFcmdRelease e fs s
  | .fcap e d fs func => Sys2Proof.Machine.execFcap e d fs func s
  | .flvl e d fs => Sys2Proof.Machine.execFlvl e d fs s
  | .ccmp e a func => Sys2Proof.Machine.execCcmp e a func s
  | .cdis e func => Sys2Proof.Machine.execCdis e func s
  | .cval e d func => Sys2Proof.Machine.execCval e d func s
  | .ccap e d func => Sys2Proof.Machine.execCcap e d func s
  | .a2t e d a func => Sys2Proof.Machine.execA2t e d a func s
  | .t2a e d a func => Sys2Proof.Machine.execT2a e d a func s
  | .apos e d func => Sys2Proof.Machine.execApos e d func s
  | .awin e d a b func => Sys2Proof.Machine.execAwin e d a b func s
  | .dwr e d a b func => Sys2Proof.Machine.execDwr e d a b func s
  | .dcan e a func => Sys2Proof.Machine.execDcan e a func s
  | .dfree e a func => Sys2Proof.Machine.execDfree e a func s
  | .dst e d a func => Sys2Proof.Machine.execDst e d a func s
  | .dtm e d a func => Sys2Proof.Machine.execDtm e d a func s
  | .conv e a func => Sys2Proof.Machine.execConv e a func s
  | .convu e a func => Sys2Proof.Machine.execConvu e a func s
  | .rred e d func => Sys2Proof.Machine.execRred e d func s
  | .rwin e a b func => Sys2Proof.Machine.execRwin e a b func s
  | .rpost e a func => Sys2Proof.Machine.execRpost e a func s
  | .remoteEvent e a func => Sys2Proof.Machine.execRemoteEvent e a func s
  | .note e a b func => Sys2Proof.Machine.execNote e a b func s
  | .seal e a func => Sys2Proof.Machine.execSeal e a func s
  | .mintInstruction e w => Sys2Proof.Machine.execMintInstruction e w s
  | .legacyInstruction e x => Sys2Proof.Machine.execLegacyInstruction e x s
  | .mintTrapTimeout e => Sys2Proof.Machine.execMintTrapTimeout e s
  | .hostAtomicApply ecc => Sys2Proof.Machine.execHostAtomicApply ecc s
  | .scrubRead ecc => Sys2Proof.Machine.execScrubRead ecc s
  | .channelTrigger g time tag => Sys2Proof.Machine.execChannelTrigger g time tag s
  | .timeTrigger g => Sys2Proof.Machine.execTimeTrigger g s
  | .angleTargetFire g => Sys2Proof.Machine.execAngleTargetFire g s
  | .eventTrigger g => Sys2Proof.Machine.execEventTrigger g s
  | .slotSample g => Sys2Proof.Machine.execSlotSample g s
  | .urgentRequestArrival c input addr ch => Sys2Proof.Machine.execUrgentRequestArrival c input addr ch s
  | .urgentConversion c => Sys2Proof.Machine.execUrgentConversion c s
  | .writerLineWrite ecc => Sys2Proof.Machine.execWriterLineWrite ecc s
  | .windowClose c r => Sys2Proof.Machine.execWindowClose c r s
  | .windowPublish c r => Sys2Proof.Machine.execWindowPublish c r s
  | .windowSubmit c r start stop => Sys2Proof.Machine.execWindowSubmit c r start stop s
  | .transferLoad n pulsed => Sys2Proof.Machine.execTransferLoad n pulsed s
  | .pacePulse n => Sys2Proof.Machine.execPacePulse n s
  | .dmaReadReturn n x => Sys2Proof.Machine.execDmaReadReturn n x s
  | .dmaWriteIssue n ecc => Sys2Proof.Machine.execDmaWriteIssue n ecc s
  | .assemblerLineWrite m ecc => Sys2Proof.Machine.execAssemblerLineWrite m ecc s
  | .copierArm m => Sys2Proof.Machine.execCopierArm m s
  | .sealArrival m time => Sys2Proof.Machine.execSealArrival m time s
  | .streamFreeze m => Sys2Proof.Machine.execStreamFreeze m s
  | .telemetryPacket t => Sys2Proof.Machine.execTelemetryPacket t s
  | .sourcePending n => Sys2Proof.Machine.execSourcePending n s
  | .delivery t => Sys2Proof.Machine.execDelivery t s
  | .retarget n t => Sys2Proof.Machine.execRetarget n t s
  | .cellTransmit p => Sys2Proof.Machine.execCellTransmit p s
  | .resendTimeout p => Sys2Proof.Machine.execResendTimeout p s
  | .portDown p => Sys2Proof.Machine.execPortDown p s
  | .portUp p => Sys2Proof.Machine.execPortUp p s
  | .portDegraded p => Sys2Proof.Machine.execPortDegraded p s
  | .linkMeasurement p t1 t2 t3 t4 => Sys2Proof.Machine.execLinkMeasurement p t1 t2 t3 t4 s
  | .rootLost acts => Sys2Proof.Machine.execRootLost acts s
  | .routeReceive x => Sys2Proof.Machine.execRouteReceive x s
  | .mirrorSubscribe k => Sys2Proof.Machine.execMirrorSubscribe k s
  | .subReceive node op source mirror => Sys2Proof.Machine.execSubReceive node op source mirror s
  | .rpostDelivery ch => Sys2Proof.Machine.execRpostDelivery ch s
  | .revtDelivery m => Sys2Proof.Machine.execRevtDelivery m s
  | .bulkTxRead ecc => Sys2Proof.Machine.execBulkTxRead ecc s
  | .consumerCountWrite ecc => Sys2Proof.Machine.execConsumerCountWrite ecc s
  | .bulkReceive node data post time => Sys2Proof.Machine.execBulkReceive node data post time s
  | .engineFence e cause => Sys2Proof.Machine.execEngineFence e cause s
  | .psUncorrectable e x => Sys2Proof.Machine.execPsUncorrectable e x s
  | .reintegrationComplete e pass => Sys2Proof.Machine.execReintegrationComplete e pass s
  | .parityRepair e again master => Sys2Proof.Machine.execParityRepair e again master s
  | .vaultAccess reqs => Sys2Proof.Machine.execVaultAccess reqs s
  | .bar2Access off x eccs => Sys2Proof.Machine.execBar2Access off x eccs s
  | .conversionEnd c vin vext => Sys2Proof.Machine.execConversionEnd c vin vext s
  | .dmaPause n p => Sys2Proof.Machine.execDmaPause n p s
  | .busError n kind addr => Sys2Proof.Machine.execBusError n kind addr s
  | .throttleChange temp => Sys2Proof.Machine.execThrottleChange temp s
  | .bar4Read off len eccs => Sys2Proof.Machine.execBar4Read off len eccs s
  | .transmitDone m sfd => Sys2Proof.Machine.execTransmitDone m sfd s
  | .frameReceive m bytes sfd good => Sys2Proof.Machine.execFrameReceive m bytes sfd good s
  | .linkChange m up => Sys2Proof.Machine.execLinkChange m up s
  | .eoi n => Sys2Proof.Machine.execEoi n s
  | .wakePin level => Sys2Proof.Machine.execWakePin level s
  | .linkCellReceive p good x sof => Sys2Proof.Machine.execLinkCellReceive p good x sof s
  | .cellReceive p good seq ack x => Sys2Proof.Machine.execCellReceive p good seq ack x s
  | .census x => Sys2Proof.Machine.execCensus x s
  | .incrementalAdmission x => Sys2Proof.Machine.execIncrementalAdmission x s
  | .qspiRead addr len eccs cut => Sys2Proof.Machine.execQspiRead addr len eccs cut s
  | .qspiWrite addr len bytes => Sys2Proof.Machine.execQspiWrite addr len bytes s
  | .perst low => Sys2Proof.Machine.execPerst low s
  | .resetNRelease hostsel root bootSrc => Sys2Proof.Machine.execResetNRelease hostsel root bootSrc s
  | .firmwareReady bad0 bad1 => Sys2Proof.Machine.execFirmwareReady bad0 bad1 s
  | .ucodeLoaded version ms disp legacy => Sys2Proof.Machine.execUcodeLoaded version ms disp legacy s
  | .fwUpdate ok => Sys2Proof.Machine.execFwUpdate ok s
  | .otpKey ok => Sys2Proof.Machine.execOtpKey ok s
  | .otpCfg ok => Sys2Proof.Machine.execOtpCfg ok s
  | .rollback ok => Sys2Proof.Machine.execRollback ok s
  | .sensorSample temps sups vio ref => Sys2Proof.Machine.execSensorSample temps sups vio ref s
  | .ledgerWrite ok => Sys2Proof.Machine.execLedgerWrite ok s
  | .blockLockGained p => Sys2Proof.Machine.execBlockLockGained p s
  | .jtagAccess x => Sys2Proof.Machine.execJtagAccess x s
  | .pcieConfigRequest x => Sys2Proof.Machine.execPcieConfigRequest x s
  | .pcieLinkUp speed width => Sys2Proof.Machine.execPcieLinkUp speed width s
  | .padTransition pad phase => Sys2Proof.Machine.execPadTransition pad phase s
  | .hstBatchDataWrite v => Sys2Proof.Machine.execHstBatchDataWrite v s
  | .slewWrite src rate => Sys2Proof.Machine.execSlewWrite src rate s
  | .counterCtrlWrite n v => Sys2Proof.Machine.execCounterCtrlWrite n v s
  | .counterValueWrite n v => Sys2Proof.Machine.execCounterValueWrite n v s
  | .counterCapturePop n => Sys2Proof.Machine.execCounterCapturePop n s
  | .clrDrops n => Sys2Proof.Machine.execClrDrops n s
  | .gblGo mask => Sys2Proof.Machine.execGblGo mask s
  | .gblHalt mask => Sys2Proof.Machine.execGblHalt mask s
  | .facetCtrlWrite n v => Sys2Proof.Machine.execFacetCtrlWrite n v s
  | .schedPush n v => Sys2Proof.Machine.execSchedPush n v s
  | .facetUnmute n => Sys2Proof.Machine.execFacetUnmute n s
  | .facetClrCounts n => Sys2Proof.Machine.execFacetClrCounts n s
  | .capClear n => Sys2Proof.Machine.execCapClear n s
  | .filtWrite n v => Sys2Proof.Machine.execFiltWrite n v s
  | .rateWrite n v => Sys2Proof.Machine.execRateWrite n v s
  | .capturePop n => Sys2Proof.Machine.execCapturePop n s
  | .domainEnable d => Sys2Proof.Machine.execDomainEnable d s
  | .domainDisable d => Sys2Proof.Machine.execDomainDisable d s
  | .reseek d => Sys2Proof.Machine.execReseek d s
  | .flipRev d => Sys2Proof.Machine.execFlipRev d s
  | .mapClear d => Sys2Proof.Machine.execMapClear d s
  | .tableDataAccess d w => Sys2Proof.Machine.execTableDataAccess d w s
  | .edgeTimeRead d => Sys2Proof.Machine.execEdgeTimeRead d s
  | .whlUnmute n => Sys2Proof.Machine.execWhlUnmute n s
  | .whlClrCounts n => Sys2Proof.Machine.execWhlClrCounts n s
  | .hostDraftWrite d => Sys2Proof.Machine.execHostDraftWrite d s
  | .hostDraftCancel d => Sys2Proof.Machine.execHostDraftCancel d s
  | .hostDraftFree d => Sys2Proof.Machine.execHostDraftFree d s
  | .draftRead d => Sys2Proof.Machine.execDraftRead d s
  | .draftClrCount d => Sys2Proof.Machine.execDraftClrCount d s
  | .causeSet ch c => Sys2Proof.Machine.execCauseSet ch c s
  | .programStoreWrite k v => Sys2Proof.Machine.execProgramStoreWrite k v s
  | .contextWrite ch off v => Sys2Proof.Machine.execContextWrite ch off v s
  | .channelEnable ch => Sys2Proof.Machine.execChannelEnable ch s
  | .channelDisable ch => Sys2Proof.Machine.execChannelDisable ch s
  | .clrPend ch => Sys2Proof.Machine.execClrPend ch s
  | .hostCause ch => Sys2Proof.Machine.execHostCause ch s
  | .tellerRun run => Sys2Proof.Machine.execTellerRun run s
  | .hostFence e => Sys2Proof.Machine.execHostFence e s
  | .reintegrate e => Sys2Proof.Machine.execReintegrate e s
  | .nanoWordLoad v => Sys2Proof.Machine.execNanoWordLoad v s
  | .nanoAddrWrite v => Sys2Proof.Machine.execNanoAddrWrite v s
  | .microWordAccess w => Sys2Proof.Machine.execMicroWordAccess w s
  | .dispatchEntryWrite k v => Sys2Proof.Machine.execDispatchEntryWrite k v s
  | .hostAtomicGo swap => Sys2Proof.Machine.execHostAtomicGo swap s
  | .hostTrigger g => Sys2Proof.Machine.execHostTrigger g s
  | .groupStop g => Sys2Proof.Machine.execGroupStop g s
  | .groupClrCounts g => Sys2Proof.Machine.execGroupClrCounts g s
  | .gtimeArm g v => Sys2Proof.Machine.execGtimeArm g v s
  | .reducerEnable c r v => Sys2Proof.Machine.execReducerEnable c r v s
  | .groupEnableWrite g v => Sys2Proof.Machine.execGroupEnableWrite g v s
  | .ringEnable v => Sys2Proof.Machine.execRingEnable v s
  | .calibrationGo v => Sys2Proof.Machine.execCalibrationGo v s
  | .dmaArm n => Sys2Proof.Machine.execDmaArm n s
  | .dmaDisarm n => Sys2Proof.Machine.execDmaDisarm n s
  | .dmaAbort n => Sys2Proof.Machine.execDmaAbort n s
  | .dmaClrCounts n => Sys2Proof.Machine.execDmaClrCounts n s
  | .curSrcRead n => Sys2Proof.Machine.execCurSrcRead n s
  | .hostSeal m => Sys2Proof.Machine.execHostSeal m s
  | .sealEvent m => Sys2Proof.Machine.execSealEvent m s
  | .rearm m => Sys2Proof.Machine.execRearm m s
  | .streamClrCount m => Sys2Proof.Machine.execStreamClrCount m s
  | .streamEnable m v => Sys2Proof.Machine.execStreamEnable m v s
  | .frameSend m v => Sys2Proof.Machine.execFrameSend m v s
  | .rxPop m => Sys2Proof.Machine.execRxPop m s
  | .ptpOffsetWrite v => Sys2Proof.Machine.execPtpOffsetWrite v s
  | .pendWithdraw n => Sys2Proof.Machine.execPendWithdraw n s
  | .sourceConfigWrite n v => Sys2Proof.Machine.execSourceConfigWrite n v s
  | .runDozeSelect doze => Sys2Proof.Machine.execRunDozeSelect doze s
  | .bar0BadAccess x => Sys2Proof.Machine.execBar0BadAccess x s
  | .abort => Sys2Proof.Machine.execAbort s
  | .batchApply => Sys2Proof.Machine.execBatchApply s
  | .tallyBoundary => Sys2Proof.Machine.execTallyBoundary s
  | .gtbLowRead => Sys2Proof.Machine.execGtbLowRead s
  | .pllLockLoss => Sys2Proof.Machine.execPllLockLoss s
  | .pllRelock => Sys2Proof.Machine.execPllRelock s
  | .goAtArm => Sys2Proof.Machine.execGoAtArm s
  | .goAtCancel => Sys2Proof.Machine.execGoAtCancel s
  | .goAtRelease => Sys2Proof.Machine.execGoAtRelease s
  | .safeNFall => Sys2Proof.Machine.execSafeNFall s
  | .safeNRise => Sys2Proof.Machine.execSafeNRise s
  | .globalSafeRelease => Sys2Proof.Machine.execGlobalSafeRelease s
  | .safeLock => Sys2Proof.Machine.execSafeLock s
  | .ioRelease => Sys2Proof.Machine.execIoRelease s
  | .commitStep3 => Sys2Proof.Machine.execCommitStep3 s
  | .clrPeak => Sys2Proof.Machine.execClrPeak s
  | .mintLock => Sys2Proof.Machine.execMintLock s
  | .mintHide => Sys2Proof.Machine.execMintHide s
  | .scrubRewrite => Sys2Proof.Machine.execScrubRewrite s
  | .vaultClrPeak => Sys2Proof.Machine.execVaultClrPeak s
  | .frameClose => Sys2Proof.Machine.execFrameClose s
  | .calibrationComplete => Sys2Proof.Machine.execCalibrationComplete s
  | .burstStart => Sys2Proof.Machine.execBurstStart s
  | .dmaRestart => Sys2Proof.Machine.execDmaRestart s
  | .blockClose => Sys2Proof.Machine.execBlockClose s
  | .bar4Write => Sys2Proof.Machine.execBar4Write s
  | .txtsPop => Sys2Proof.Machine.execTxtsPop s
  | .parkEntry => Sys2Proof.Machine.execParkEntry s
  | .deepParkEntry => Sys2Proof.Machine.execDeepParkEntry s
  | .parkWake => Sys2Proof.Machine.execParkWake s
  | .deepParkWake => Sys2Proof.Machine.execDeepParkWake s
  | .aonAlarm => Sys2Proof.Machine.execAonAlarm s
  | .readmit => Sys2Proof.Machine.execReadmit s
  | .alignHold => Sys2Proof.Machine.execAlignHold s
  | .helloSend => Sys2Proof.Machine.execHelloSend s
  | .qspiWriteApply => Sys2Proof.Machine.execQspiWriteApply s
  | .qspiStatus => Sys2Proof.Machine.execQspiStatus s
  | .qspiUnknownOpcode => Sys2Proof.Machine.execQspiUnknownOpcode s
  | .hotReset => Sys2Proof.Machine.execHotReset s
  | .resetNAssert => Sys2Proof.Machine.execResetNAssert s
  | .pllLock => Sys2Proof.Machine.execPllLock s
  | .vaultClearDone => Sys2Proof.Machine.execVaultClearDone s
  | .daybookTrained => Sys2Proof.Machine.execDaybookTrained s
  | .mailboxInfo => Sys2Proof.Machine.execMailboxInfo s
  | .ledgerRead => Sys2Proof.Machine.execLedgerRead s
  | .ledgerNote => Sys2Proof.Machine.execLedgerNote s
  | .fwRestart => Sys2Proof.Machine.execFwRestart s
  | .ucodeLoad => Sys2Proof.Machine.execUcodeLoad s
  | .progLoad => Sys2Proof.Machine.execProgLoad s
  | .mintLoad => Sys2Proof.Machine.execMintLoad s
  | .fwBoot => Sys2Proof.Machine.execFwBoot s
  | .dbgChal => Sys2Proof.Machine.execDbgChal s
  | .dbgResp => Sys2Proof.Machine.execDbgResp s
  | .mailboxUnknownOpcode => Sys2Proof.Machine.execMailboxUnknownOpcode s
  | .mailboxResponse => Sys2Proof.Machine.execMailboxResponse s
  | .debugClose => Sys2Proof.Machine.execDebugClose s
  | .watchdogRestart => Sys2Proof.Machine.execWatchdogRestart s
  | .faultEdge => Sys2Proof.Machine.execFaultEdge s
  | .pulseToggle => Sys2Proof.Machine.execPulseToggle s
  | .asyClockStop => Sys2Proof.Machine.execAsyClockStop s

end Sys2Proof.Machine
end

