-- ==== Sys2Proof/Machine/ChannelDecode.lean ====
section
/-!
DEFINITION. The decoding of channel instructions (spec/07, R174–R176; spec/08, spec/09): the command that an instruction word is when
it issues on an engine. The word of a Mint opcode stays whole.
-/
namespace Sys2Proof.Machine
open Sys2Proof

/-- The forms of fcmd (R204): 3 is reserved. -/
def fcmdOf (e : Fin 17) (fs : FacetSel) (k : Nat) : Instr :=
  match k with
  | 0 => .fcmdFlush e fs
  | 1 => .fcmdSafe e fs
  | 2 => .fcmdRelease e fs
  | _ => .illegalInstruction e

/-- The instruction of word `w` on engine `e`; the block itself finds no error in the context RAM. An opcode that no table lists is illegal
(R176). -/
def decodeChannel (e : Fin 17) (w : Word) : Instr :=
  let d : Fin 16 := Fin.ofNat 16 (w.toNat / 2 ^ 20)
  let a : Fin 16 := Fin.ofNat 16 (w.toNat / 2 ^ 16)
  let b : Fin 16 := Fin.ofNat 16 (w.toNat / 2 ^ 12)
  let func : BitVec 12 := w.setWidth 12
  let imm : BitVec 16 := w.setWidth 16
  let off : BitVec 24 := w.setWidth 24
  match w.toNat / 2 ^ 24 with
  | 0x00 => .nop e
  | 0x01 => .mov e d a
  | 0x02 => .add e d a b
  | 0x03 => .sub e d a b
  | 0x04 => .and e d a b
  | 0x05 => .or e d a b
  | 0x06 => .xor e d a b
  | 0x07 => .shl e d a b
  | 0x08 => .shr e d a b
  | 0x09 => .sar e d a b
  | 0x0A => .mul e d a b
  | 0x0B => .mulhu e d a b
  | 0x0C => .mulsh e d a b
  | 0x0D => .divu e d a b
  | 0x0E => .remu e d a b
  | 0x11 => .minu e d a b
  | 0x12 => .maxu e d a b
  | 0x13 => .mins e d a b
  | 0x14 => .maxs e d a b
  | 0x0F => .cmp e a b
  | 0x10 => .tst e a b
  | 0x15 => .ext e d a func
  | 0x16 => .ins e d a func
  | 0x20 => .addi e d a imm
  | 0x21 => .andi e d a imm
  | 0x22 => .ori e d a imm
  | 0x23 => .xori e d a imm
  | 0x24 => .shli e d a imm
  | 0x25 => .shri e d a imm
  | 0x26 => .sari e d a imm
  | 0x27 => .muli e d a imm
  | 0x28 => .cmpi e a imm
  | 0x29 => .cmpui e a imm
  | 0x30 => .ldi e d imm
  | 0x31 => .movk e d (BitVec.ofNat 4 (w.toNat / 65536)) imm
  | 0x40 => .b e off
  | 0x41 => .call e off
  | 0x42 => .jr e a
  | 0x44 => .beq e off
  | 0x45 => .bne e off
  | 0x46 => .blt e off
  | 0x47 => .bge e off
  | 0x48 => .bgt e off
  | 0x49 => .ble e off
  | 0x4A => .blo e off
  | 0x4B => .bhs e off
  | 0x4C => .bhi e off
  | 0x4D => .bls e off
  | 0x4E => .bmi e off
  | 0x4F => .bpl e off
  | 0x50 => .bvs e off
  | 0x51 => .bvc e off
  | 0x52 => .blate e off
  | 0x53 => .bnlate e off
  | 0x54 => .bqe e off
  | 0x55 => .bnqe e off
  | 0x60 => .ldw e d a imm
  | 0x61 => .ldd e d a imm
  | 0x62 => .ldh e a imm
  | 0x63 => .ldl e a imm
  | 0x64 => .stw e d a imm
  | 0x65 => .std e d a imm
  | 0x66 => .sth e a imm
  | 0x67 => .stl e a imm
  | 0x68 => .fadd e d a b func
  | 0x69 => .fswp e d a b func
  | 0x6A => .padd e a b func
  | 0x6B => .pswp e a b func
  | 0x80 => .sched e a (.reg b) func
  | 0x81 => .sched e a .bound func
  | 0x82 => .drv e (.reg b) func
  | 0x83 => .drv e .bound func
  | 0x84 => .fcan e (.reg b) func
  | 0x85 => .fcan e .bound func
  | 0x86 => fcmdOf e (.reg b) (func.toNat % 4)
  | 0x87 => fcmdOf e .bound (func.toNat % 4)
  | 0x88 => .fcap e d (.reg b) func
  | 0x89 => .fcap e d .bound func
  | 0x8A => .flvl e d (.reg b)
  | 0x8B => .flvl e d .bound
  | 0x8C => .ccmp e a func
  | 0x8D => .cdis e func
  | 0x8E => .cval e d func
  | 0x8F => .ccap e d func
  | 0xA0 => .a2t e d a func
  | 0xA1 => .t2a e d a func
  | 0xA2 => .apos e d func
  | 0xA3 => .awin e d a b func
  | 0xA4 => .dwr e d a b func
  | 0xA5 => .dcan e a func
  | 0xA6 => .dfree e a func
  | 0xA7 => .dst e d a func
  | 0xA8 => .dtm e d a func
  | 0xC0 => .conv e a func
  | 0xC1 => .convu e a func
  | 0xC2 => .rred e d func
  | 0xC3 => .rwin e a b func
  | 0xD0 => .endR e imm .clean
  | 0xD1 => .wait e a func .clean
  | 0xD2 => .yieldR e .clean
  | 0xD3 => .post e a func
  | 0xD4 => .trig e func
  | 0xD5 => .mfs e d func
  | 0xD6 => .mts e a func
  | 0xD7 => if func.getLsbD 11 then .remoteEvent e a func else .rpost e a func
  | 0xD8 => .note e a b func
  | 0xD9 => .seal e a func
  | op => if 0xE0 ≤ op then .mintInstruction e w else .illegalInstruction e

end Sys2Proof.Machine
end

