-- ==== Sys2Proof/Machine/Tick.lean ====
section
/-!
DEFINITION. Time (R6, R33, R38): what the block itself does in the present timebase cycle, as commands of its own that fall due, and the
advance to the next cycle once none is left. Which of the rows the block gives to itself is log entry 1.
-/
namespace Sys2Proof.Machine
open Sys2Proof

/-- A command that falls due, with the state that has given it out. -/
abbrev Due := Option (Instr × State)

def dueIf (c : Bool) (i : Instr) (s : State) : Due := if c then some (i, s) else none

/-- The first index for which a command falls due. -/
def dueFirst (n : Nat) (p : Fin n → Bool) (i : Fin n → Instr) (s : State) : Due :=
  ((List.finRange n).find? p).map fun k => (i k, s)

/-- The place of an arrival among those of its cycle: effects of engine commits; then entries armed by the Bezel (R465); then a channel's draft
writes, cancels and frees (R134); then register writes of the host's batch and of DMA. -/
def landingRank : Instr → Nat
  | .armedEntryArrival _ x => if x.origin.isSome then 1 else 0
  | .draftArrival _ _ _ | .draftCancelArrival _ _ _ | .draftFreeArrival _ _ _ => 2
  | .registerWrite _ _ => 3
  | _ => 0

/-- An effect on its way lands in its cycle (R19). -/
def dueLanding (s : State) : Due :=
  ((List.range 4).findSome? fun k => s.inflight.find? fun x => decide (x.1 ≤ s.tb.cyc) && landingRank x.2 == k).map
    fun x => (x.2, { s with inflight := s.inflight.erase x })

/-- An armed compare of a counter that is reached. -/
def dueCompare (s : State) : Due :=
  (List.finRange 32).findSome? fun n => dueFirst 4 (fun k => ((s.cnt[n]).cmp[k]).due (s.rd (CNT_VAL n))) (.counterMatch n ·) s

/-- Facets: stuck inputs, accepted edges, ends of mutes (R76, R79, R81). -/
def dueInput (s : State) : Due :=
  (List.finRange 256).findSome? fun n =>
    let p := (s.fct[n]).inp
    if s.fctMode n != 0 && p.stuckDue (s.get (FCT_FILT.stuck_lim n)) then some (.stuckDetect n, s)
    else if (p.dueFlight s.tb.cyc).isSome then some (.edgeAccept n, s)
    else dueIf (p.muteNow && !p.muteLatched && decide (p.muteUntil ≤ s.tally)) (.muteEnd n) s

/-- Facets: compare units (R63). -/
def dueOutput (s : State) : Due :=
  dueFirst 256 (fun n => (s.fct[n]).queue.any s.actsNow || !(s.fct[n]).lateNow.isEmpty) .facetCompareMatch s

/-- WHL inputs (R91, R92). -/
def dueWheel (s : State) : Due :=
  (List.finRange 8).findSome? fun n =>
    let p := (s.whl[n]).inp
    if s.whlOn n && p.stuckDue (s.get (WHL_FILT.stuck_lim n)) then some (.whlStuckDetect n, s)
    else if (p.dueFlight s.tb.cyc).isSome then some (.whlEdgeAccept n, s)
    else if p.muteNow && !p.muteLatched && decide (p.muteUntil ≤ s.tally) then some (.whlMuteEnd n, s)
    else dueIf (s.get (WHL_CFG.mode n) == 1 && decide (65536 ≤ s.tally - (s.whl[n]).peakTally) && s.get (WHL_STAT.peak n) != 0)
      (.vrPeakTimeout n) s

/-- A waiting primary edge can be decided. -/
def State.primaryDue (s : State) (d : Fin 8) : Bool :=
  match (s.bzl[d]).priIn with
  | e :: _ => e.reverse.isSome && !(s.dState d != stLimp && s.heldBack d e.time)
  | [] => false

/-- A waiting secondary edge can be decided. -/
def State.secondaryDue (s : State) (d : Fin 8) : Bool :=
  match (s.bzl[d]).nextSec with
  | some e => !(s.dState d == stLimp && e.wheel == 0 && s.heldBack d e.time)
  | none => false

/-- The Bezel: decisions in the order primary, overdue, secondary (R100). -/
def dueDomain (s : State) : Due :=
  (List.finRange 8).findSome? fun d =>
    if s.limpWatchDue d then some (.limpWatchStart d, s)
    else if s.primaryDue d then some (.primaryEdgeDecision d, s)
    else if s.overdueDue d then some (.overdue d, s)
    else if s.secondaryDue d then some (.secondaryEdgeDecision d, s)
    else if s.keepDue d then some (.keepExpiry d, s)
    else if !(s.bzl[d]).cells.isEmpty then some (.mirrorCellDecision d, s)
    else if s.coastMissed d then
      (if s.flag (BZL_MIR_COAST.en d) && !s.coastOver d then some (.coastSynthesis d, s) else some (.coastEnd d, s))
    else none

/-- Sample groups (R271–R275). -/
def dueGroup (s : State) : Due :=
  (List.finRange 8).findSome? fun g =>
    let x := s.adc.grp[g]
    if s.timeDue g then some (.timeTrigger g, s)
    else if (match x.targets with | (t, _) :: _ => decide (t < s.nextNow) | [] => false) then some (.angleTargetFire g, s)
    else if (match x.evt with | some t => decide (t < s.nextNow) | none => false) then some (.eventTrigger g, s)
    else dueIf (s.slotDue g) (.slotSample g) s

/-- A closed window can be published (R284, R287). -/
def State.publishDue (s : State) (c : Fin 24) (r : Fin 4) : Bool :=
  match ((s.adc.conv[c]).red[r]).closed with
  | some (t, _) => !(match (s.adc.conv[c]).run with | some v => decide (v.at' < t) | none => false) && !s.parkHold
  | none => false

/-- A conversion has reached the end of its time (R270) and the outside has not ended it: the voltages are free (log entry 47). -/
def dueEnd (s : State) : Due :=
  ((List.finRange 24).find? fun c => match (s.adc.conv[c]).run with | some v => decide (v.at' + 1600 < s.nextNow) | none => false).map fun c =>
    let (vin, s) := s.fresh 34
    let (vext, s) := s.fresh 32
    (.conversionEnd c vin.toInt vext.toNat, s)

/-- Converters and reducers. -/
def dueConverter (s : State) : Due :=
  (List.finRange 24).findSome? fun c =>
    if s.urgentDue c then some (.urgentConversion c, s)
    else (List.finRange 4).findSome? fun r =>
      if (s.closeDue c r).isSome then some (.windowClose c r, s) else dueIf (s.publishDue c r) (.windowPublish c r) s

/-- The next command of the acquisition block as a whole. -/
def dueAdc (s : State) : Due :=
  if s.frameDue then some (.frameClose, s)
  else dueIf (match s.adc.cal with | some p => decide (2 ^ p.e ≤ p.taken) | none => false) .calibrationComplete s

/-- Channels whose wake time has come (R146), looked at in the cycle of a boundary. -/
def dueWake (s : State) : Due :=
  if s.tb.boundary then
    dueFirst 512 (fun ch => (s.tlr.ctx[ch]).wake != noTime && decide ((s.tlr.ctx[ch]).wake ≤ s.now)) .wakeTimeReached s
  else none

/-- Dispatch and preemption (R149, R155, R247); the block itself finds no ECC error. -/
def dueTeller (s : State) : Due :=
  match (List.finRange 17).find? s.trapLate with
  | some e => some (.mintTrapTimeout e, s)
  | none =>
    if (List.finRange 17).any s.trapDue || s.choice.isSome then some (.preemption .clean .clean, s)
    else if s.dispatching = false || s.pick.isNone then none
    else dueFirst 4 (fun q => s.tlr.dispAt[q] != s.engCycle + 1 && (s.idleEngine q).isSome) (.dispatch · .clean .clean) s

/-- The command that word `w` is on engine `e` (R176, R194, R239): the dispatch entry of its opcode must be valid. -/
def fetched (e : Fin 17) (r : Routine) (w : Word) (s : State) : Instr :=
  if fieldOf (s.entryOf r.ctx.persona w) (MNT_DISP.valid 0) = 0 then .illegalInstruction e
  else if r.ctx.persona then
    match Config.legacyDecode w ((List.finRange 8).map fun (k : Fin 8) => loWord (r.v[(k.castLE (by decide) : Fin 16)])) (r.flags.setWidth 4) with
    | some (.finish next _) => .legacyInstruction e (.finish next .clean)
    | some x => .legacyInstruction e x
    | none => .illegalInstruction e
  else decodeChannel e w

/-- What engine `e` does next (R153, R176): its abort, the next word of a Mint instruction, or the next instruction. It waits while an access of its
own does (R185), and at a trap point until its trap is taken (R241). -/
def dueIssue (s : State) (e : Fin 17) : Due :=
  match s.routine e with
  | none => none
  | some r =>
    if s.overBudget r then some (.budgetAbort e, s)
    else if s.engCycle < r.issueAt || r.acc.isSome || s.trapReady e then none
    else
      match r.micro with
      | some m => dueIf (decide (s.vdReady m ≤ s.engCycle)) (.mintInstruction e m.w) s
      | none => some (fetched e r (s.program r.pc) s, s)

def dueEngine (s : State) : Due := (List.finRange 17).findSome? (dueIssue s)

/-- Effects of the oldest commit that need no Vault slot (R162). -/
def dueCommit (s : State) : Due :=
  match s.tlr.commits with
  | c :: _ => dueIf (c.back.isNone && c.vault.isEmpty && !(s.tlr.trigDone && (match c.step3 with | .trig _ :: _ => true | _ => false)))
      .commitStep3 s
  | [] => none

/-- A reply with no error, as the block's own memories give. -/
def cleanReply : DmaReply := ⟨⟨0, 0⟩, [], none⟩

/-- DMA: idle checks, bursts, and lines that need no Vault slot. -/
def dueDma (s : State) : Due :=
  ((dueFirst 32 s.loadDue (.transferLoad · false) s).orElse fun _ =>
    dueIf (!s.dmaHalted && s.dma.burst != s.tb.cyc + 1 && s.arbitrate.isSome) .burstStart s).orElse fun _ =>
    (dueFirst 32 s.portReadDue (.dmaReadReturn · cleanReply) s).orElse fun _ => dueFirst 32 s.portWriteDue (.dmaWriteIssue · ⟨0, 0⟩) s

/-- Daybook copying and telemetry (R319, R329). -/
def dueCopy (s : State) : Due :=
  ((List.finRange 16).findSome? fun m => dueIf (s.nextCopy m).isSome (.copierArm m) s).orElse fun _ =>
    dueFirst 8 s.tlmDue .telemetryPacket s

/-- The host's posted writes over QSPI (R391), and the end of its frames on the line (R326). -/
def dueHost (s : State) : Due :=
  (dueIf (s.windows && !s.host.qspi.isEmpty && (!s.host.qspiOut || s.vlt.host.isEmpty)) .qspiWriteApply s).orElse fun _ =>
    (List.finRange 2).findSome? fun m =>
      match (s.eth.mac[m]).air with
      | some (_, t, true) => dueIf (s.airDone m) (.transmitDone m (t + 448)) s
      | _ => none

/-- Deliveries of the interrupt controller (R335). -/
def dueDelivery (s : State) : Due := dueFirst 35 s.deliveryDue .delivery s

/-- Ports of the fabric (R352, R356). -/
def duePort (s : State) : Due :=
  (List.finRange 4).findSome? fun p =>
    if s.portDownDue p then some (.portDown p, s)
    else if s.portUpDue p then some (.portUp p, s)
    else if s.portDegradedDue p then some (.portDegraded p, s)
    else dueIf (s.resendDue p) (.resendTimeout p) s

/-- The root is lost (R362). Whether another backup root with a lower UID is reached is not part of the node's state: a free value
(log entry 43). -/
def dueRoot (s : State) : Due :=
  if s.rootLostDue then
    let (b, s) := s.fresh 1
    some (.rootLost (b == 1), s)
  else none

def dueFabric (s : State) : Due := ((duePort s).orElse fun _ => dueIf s.holdDue .alignHold s).orElse fun _ => dueRoot s

/-- The Vault slot of this cycle (R256–R258), as the row of its winner; an idle slot is the scrubber's (R266). -/
def dueSlot (s : State) : Due :=
  if s.vlt.granted then none
  else
    match s.winner [] with
    | some (0, _, 17) => some (.commitVaultWrite ⟨0, 0⟩, s)
    | some (1, _, _) => some (.writerLineWrite ⟨0, 0⟩, s)
    | some (5, _, _) => some (match s.lineStream with | some m => .assemblerLineWrite m ⟨0, 0⟩ | none => .vaultAccess [], s)
    | some (6, _, _) =>
      some (if !s.vlt.slo.isEmpty then .vaultAccess [] else if s.consumerDue then .consumerCountWrite ⟨0, 0⟩ else .bulkTxRead ⟨0, 0⟩, s)
    | some (3, _, _) => some (match s.vlt.host with | .atomic _ _ _ :: _ => .hostAtomicApply ⟨0, 0⟩ | _ => .vaultAccess [], s)
    | some _ => some (.vaultAccess [], s)
    | none => if s.rewriteDue then some (.scrubRewrite, s) else dueIf s.scrubDue (.scrubRead ⟨0, 0⟩) s

/-- Power transitions (R343, R344). -/
def duePower (s : State) : Due :=
  if s.power = pwEntering ∧ s.parkReady = true then some (.parkEntry, s)
  else dueIf ((s.power == pwPark && s.parkWakeCause.isSome) || s.power == pwLeaving) .parkWake s

/-- What falls due first in a cycle while the clocks run: the boundary, inputs, and the Bezel's decisions (R39, R57, R81, R134). -/
def firstRules : List (State → Due) :=
  [fun s => dueIf (s.tb.boundary && (match s.goAt with | some q => decide (q.tally ≤ s.tally) | none => false)) .goAtRelease s,
   fun s => dueIf (s.tb.boundary && !s.tb.boundaryDone) .tallyBoundary s,
   fun s => dueIf s.toggleDue .pulseToggle s,
   fun s => dueIf s.blockDue .blockClose s,
   fun s => dueFirst 16 s.freezeDue .streamFreeze s,
   dueInput, dueWheel, dueDomain]

/-- What falls due after them (R28, R134, R465): the batch, arrivals, facet outcomes; then the blocks that act on what has come. -/
def restRules : List (State → Due) :=
  [fun s => dueIf s.batchDue .batchApply s,
   dueLanding, dueCompare, dueOutput, dueEnd, dueConverter, dueGroup, dueAdc, dueWake, dueCommit, dueTeller, dueEngine, dueDma, dueSlot,
   dueCopy, dueHost, dueDelivery, dueFabric, duePower,
   fun s => dueIf (s.asyReady && !s.asyEdges.isEmpty) .faultEdge s]

/-- What falls due while the clocks stand. -/
def stoppedRules : List (State → Due) :=
  [fun s => dueIf (s.deepParked && s.pinWake) .deepParkWake s,
   fun s => dueIf (s.deepParked && s.alarmWake) .aonAlarm s,
   fun s => dueIf (s.asyReady && !s.asyEdges.isEmpty) .faultEdge s]

def firstDue (l : List (State → Due)) (s : State) : Due := l.findSome? fun r => r s

/-- The first command that falls due. Entries that wait for their arming cycle arm once the decisions are made (R126, R134). -/
def State.due (s : State) : Due :=
  if s.flag TB_STAT.pll_lock then (firstDue firstRules s).orElse fun _ => firstDue restRules (armWaiting s) else firstDue stoppedRules s

/-! ### The end of a cycle -/

/-- A hold or a change of mode that began in this cycle removes what stands at its end (R465); FLUSH is raised once for it. -/
def endPurge (n : Fin 256) (s : State) : State :=
  if (s.fct[n]).purge then
    (if (s.justSet (FCT_STAT n)).getLsbD 4 then removeEntries n (fun _ => true) .dropped 12 s else flushQueue n s).modFct n fun f =>
      { f with purge := false }
  else s

/-- Input paths sample the level at the end of the cycle (R77, R92). -/
def endSample (s : State) : State :=
  let g := s
  let s := { s with fct := Vector.ofFn fun n =>
    let p : InPath := { (s.fct[n]).inp with first := g.firstMove n }
    { s.fct[n] with inp := p.sample (g.get (FCT_FILT.len n)) g.tb.cyc g.now (g.fctMode n != 0) (g.padLevel n) } }
  { s with whl := Vector.ofFn fun n =>
    { s.whl[n] with inp := (s.whl[n]).inp.sample (g.get (WHL_FILT.len n)) g.tb.cyc g.now (g.whlOn n) (s.whl[n]).ext } }

/-- The angle from which a counter of angle ticks counts on, when a write has made it begin in this cycle (R45). -/
def State.countFrom (s : State) (n : Fin 32) : Option Nat :=
  let d : Fin 8 := Fin.ofNat 8 (s.get (CNT_CTRL.sel n))
  if s.get (CNT_CTRL.src n) = 2 ∧ (s.cnt[n]).theta = none ∧ s.tracking d = true then some (s.liveTheta d) else (s.cnt[n]).theta

/-- Compares take what was written in this cycle (R49, R50); the control words stand as the next cycle counts by them (R45). -/
def endCounters (s : State) : State :=
  let g := s
  { s with cnt := Vector.ofFn fun n =>
    { s.cnt[n] with cmp := (s.cnt[n]).cmp.map (Compare.settle (g.rd (CNT_VAL n))), ctlPrev := g.rd (CNT_CTRL n), raised := false,
                    theta := g.countFrom n } }

/-- Sources whose inputs are asserted become PENDING in the next cycle (R334). -/
def endSources (s : State) : State :=
  ((List.finRange 1024).filter s.pendDue).foldl (fun s n => s.post (s.tb.cyc + 1) (.sourcePending n)) s

def endCycle (s : State) : State :=
  let s := openWindows (armWaiting s)
  let s := forAll 32 takeCounts (forAll 256 takeCaptures (placeArrivals (forAll 256 endPurge s)))
  let s := endCounters (endSample s)
  forAll 8 tlmWork (forAll 16 ageStream (endSources s))

/-! ### The beginning of a cycle -/

/-- Clocks: GTB takes this cycle's increment, or the value it steps to, which never lies behind (R35); the next increment follows TB_SLEW (R33,
R38, R39). -/
def beginTime (s : State) : State :=
  let b := s.tb
  let t := match b.load with | some (x, _) => if s.nextNow < x then x else s.nextNow | none => s.nextNow
  let (acc, inc) := b.slewStep (s.rd TB_SLEW)
  let s := { s with tb := { b with gtb := t, acc := acc, inc := inc, cyc := b.cyc + 1, boundary := tallyOf t != tallyOf b.gtb, boundaryDone := false,
                                   load := none } }
  match b.load with
  | some (_, cause) => stepMarks cause s
  | none => s

/-- What lasted one cycle ends; the slot that nobody took was idle. -/
def beginClear (s : State) : State :=
  let s := countIdle s
  { s with pulses := [], out := [], setNow := [], goNow := 0, haltNow := 0, tlr := { s.tlr with trigDone := false, again := [] },
           bzl := s.bzl.map fun x => { x with armed := 0 },
           vlt := { s.vlt with pos := s.vlt.pos + 1, granted := false }, ic := { s.ic with fresh := [] },
           health := { s.health with done' := s.health.done' && s.tb.boundary, whole := s.health.whole && s.flag TLR_CTRL.run } }

/-- The two earliest entries hold the compare units for a cycle, whatever arrives in it (R61, R62, R66). -/
def holdUnits (l : List Armed) : List Armed := l.zipIdx.map fun (a, k) => { a with inUnit := decide (k < 2) }

/-- Facets as they stand at the start of a cycle (R62, R66, R68, R69, R72, R465). -/
def beginFacets (s : State) : State :=
  let g := s
  { s with fct := Vector.ofFn fun n =>
    { s.fct[n] with freed := 0, lateNow := (s.fct[n]).lateNext, lateNext := [], frozen := g.held n, wasOut := g.fctOutput n, edges := [],
                    moves := [], queue := holdUnits (s.fct[n]).queue } }

/-- Pin actions of one counter and compare, in the order of R52. -/
def pinOrder (l : List PinAction) : List PinAction :=
  (List.finRange 32).flatMap fun n => (List.finRange 4).flatMap fun k => l.filter fun a => a.counter == n && a.compare == k

/-- Counter pin actions of the cycle before act at phase 0 (R51, R52). -/
def beginPins (s : State) : State := (pinOrder s.pinActs).foldl (fun s a => applyPinAction a s) { s with pinActs := [] }

/-- Divider and angle counting (R42, R44): a domain that does not track gives no angle to count. -/
def beginCounters (s : State) : State :=
  let s := forAll 32 countDivider s
  forAll 8 (fun d s =>
    if s.tracking d then countDomain d false s
    else forAll 32 (fun n s =>
      if s.ctlWas n (CNT_CTRL.src n) = 2 ∧ s.ctlWas n (CNT_CTRL.sel n) % 8 = d.val then s.modCnt n fun c => { c with theta := none } else s) s) s

/-- Engine cycles in which engines were busy (TLR_LOAD), when one has ended. -/
def beginLoad (old : Nat) (s : State) : State :=
  if s.engCycle = old then s
  else
    let n := ((List.finRange 17).filter fun e => !s.engIdle e).length
    s.modTlr fun t => { t with busy := t.busy + n }

/-- Cell times (R350): 25.6 ns each; and HELLO every 64 Tallies on a root (R362). -/
def beginCells (s : State) : State :=
  let c := s.tb.cyc
  let s := if c * 10 / 256 = (c - 1) * 10 / 256 then s
    else forAll 4 (fun p s => if s.portState p = portDownSt then s else s.post c (.cellTransmit p)) s
  if s.tb.boundary ∧ s.tally % 64 = 0 ∧ s.flag SLO_STAT.root = true then s.post c .helloSend else s

/-- A step of Deep Park entry in each cycle (R345). -/
def beginPower (s : State) : State := if s.power = pwDeepEntry then s.post s.tb.cyc .deepParkEntry else s

def beginCycle (s : State) : State :=
  let old := s.engCycle
  let dma := s.dma.pulses
  let s := attachReserve (beginFacets (globalHoldCycle (beginClear (beginTime s))))
  let s := forAll 17 (fun e s => s.resume e) (commitStep1 (beginLoad old (beginCounters (beginPins s))))
  let s := dma.foldl (fun s e => pulse e s) (s.modDma fun x => { x with pulses := [] })
  beginPower (beginCells (adcCycle (macCycle (dmaCycle s))))

/-! ### A tick -/

/-- With the clocks stopped a tick is one AON cycle (R40). -/
def aonTick (s : State) : State := { s.modTb fun b => { b with aon := b.aon + 1 } with out := [] }

/-- What an empty queue does (log entry 1): while RESET_N is low nothing; a command that falls due takes its place in the queue; with none
due, time moves on. -/
def tick (s : State) : State :=
  if s.resetLow then s
  else
    match s.due with
    | some (c, t) => { t with pending := [c] }
    | none => if s.flag TB_STAT.pll_lock then beginCycle (endCycle s) else aonTick s

end Sys2Proof.Machine
end

