-- ==== Sys2Proof/Safety.lean ====
section
/-!
DEFINITION. The terms the statements use: the canonical form of the stored data, what a command gives, and an instruction on an
engine before and after it.
-/
namespace Sys2Proof.Machine
open Sys2Proof

/-! ### Canonical form of the stored data -/

/-- The program store is in canonical form. -/
def Teller.wf (x : Teller) : Bool := Sparse.wf (fun _ => (0 : Word)) x.prog

/-- Register words and memories are in canonical form, so that equal contents are equal data. -/
def State.wf (s : State) : Bool := Sparse.wf resetWord s.regs && s.vlt.wf && s.dbk.wf && s.tlr.wf

/-! ### What a command gives -/

/-- The command answers a next state, of which `P` holds. -/
def Gives (c : Instr) (s : State) (P : State → Prop) : Prop := ∃ t, exec c s = .next t ∧ P t

/-- The command answers a next state that differs from `s` in nothing. -/
def Nothing (c : Instr) (s : State) : Prop := exec c s = .next s

/-- Register words other than those at the offsets listed read as before. -/
def OnlyRegs (l : List Nat) (s t : State) : Prop := ∀ off, off ∉ l → t.rd off = s.rd off

/-- Nothing but register words and the marks of bits set in this cycle differs. -/
def RegsOnly (s t : State) : Prop := t = { s with regs := t.regs, setNow := t.setNow }

/-- Nothing but register words, the marks of bits set in this cycle and Ledger edges differs: what a change of registers that may
report a fault can reach. -/
def ReportOnly (s t : State) : Prop := t = { s with regs := t.regs, setNow := t.setNow, asyEdges := t.asyEdges }

/-- The bytes of the Vault are as before. -/
def VaultKept (s t : State) : Prop := ∀ a, t.vlt.byte a = s.vlt.byte a

/-- The bytes of the Daybook are as before. -/
def DaybookKept (s t : State) : Prop := ∀ a, t.dbk.byte a = s.dbk.byte a

/-- The Assayer can carry out the mailbox command `op`, which has at least `args` argument words (R398, R399, R408). -/
def Running (op args : Nat) (s : State) : Prop :=
  ∃ c, s.asy.cmd = some c ∧ c.op.toNat = op ∧ args ≤ c.len ∧ s.asy.result = none ∧ s.asyReady = true ∧ s.flag ASY_STAT.rom_mode = false

/-! ### Instructions on an engine (R153, R177, R178) -/

/-- Engine `e` runs routine `r`, which waits for no access and is in no Mint instruction, and the cycle in which the next instruction issues lies
within the budget. -/
def Issues (e : Fin 17) (r : Routine) (s : State) : Prop :=
  s.routine e = some r ∧ r.count ≤ r.budget ∧ r.acc = none ∧ r.micro = none

/-- The state once `r` has begun: its channel has left those that wait since the boundary (R431). -/
def begun (r : Routine) (s : State) : State :=
  if r.count = 1 then { s with tlr := { s.tlr with waiting := s.tlr.waiting.filter (· != r.ch) } } else s

/-- The state after an instruction of `cost` cycles on engine `e` that leaves the routine as `x` and goes on at `pc`. -/
def retire (e : Fin 17) (cost : Nat) (pc : BitVec 16) (x : Routine) (s : State) : State :=
  s.putTop e { x with pc := pc, count := x.count + cost, issueAt := max x.issueAt s.engCycle + cost }

/-- The same where the instruction reaches nothing but its routine `r`. -/
def after (e : Fin 17) (r : Routine) (cost : Nat) (pc : BitVec 16) (x : Routine) (s : State) : State := retire e cost pc x (begun r s)

/-- Six flags as one value (R142). -/
def packFlags (z n c v l q : Bool) : BitVec 6 :=
  BitVec.ofNat 6 (z.toNat + 2 * n.toNat + 4 * c.toNat + 8 * v.toNat + 16 * l.toNat + 32 * q.toNat)

/-- The routine with Z and N of the result `x`, C and V as given, L and Q kept (R179). -/
def withFlags (r : Routine) (x : Dword) (c v : Bool) : Routine :=
  { r with flags := packFlags (x == 0) x.msb c v (r.flags.getLsbD 4) (r.flags.getLsbD 5) }

/-- The routine with result `x` in D, and its flags. -/
def withResult (r : Routine) (d : Fin 16) (x : Dword) (c v : Bool) : Routine := { withFlags r x c v with v := r.v.set d x }

/-- The byte at address `p` as a routine sees it that finds `b` in the Vault: that of its youngest staged plain store over it (R160). -/
def seenByte (stage : List Effect) (p : Nat) (b : Byte) : Byte :=
  (stage.reverse.findSome? fun f => match f with
    | .store a bs => if a ≤ p ∧ p < a + bs.length then some (bs.getD (p - a) 0) else none
    | _ => none).getD b

/-- The slot of this cycle is free and goes to engine `e`, whose routine waits for an access (R256–R258); as a pooled slot or not. -/
def GoesTo (e : Fin 17) (pooled : Bool) (reqs : List VaultRequest) (s : State) : Prop :=
  s.vlt.granted = false ∧ s.engReady e = true ∧ s.winner reqs = some (0, pooled, e.val)

/-- What the check of the line finds for engine `e`: it comes with the requests. -/
def slotEcc (e : Fin 17) (reqs : List VaultRequest) : LineEcc := eccFor reqs fun w => reqCode w == 0 && reqNum w == e.val

end Sys2Proof.Machine
end

