-- ==== Sys2Proof/Certificates/Slice0/Obligations.lean ====
section
/-!
DEFINITION. The statements for the provers.
-/
open Sys2Proof Sys2Proof.Machine

/-! ### Channel instructions (spec/07, spec/08) -/

/-- Part of R179, R180: the register-register ALU instructions that write D, with result, C, V and cycles. `A`, `B` are the operands; Z and N are those of
the result, L and Q keep their values, and nothing but the engine's routine changes. That divu and remu clear C is log entry 33. -/
def Obligations.AluRegisterResults : Prop :=
  ∀ (e : Fin 17) (d a b : Fin 16) (r : Routine) (s : State), Issues e r s →
    let A := r.v[a]
    let B := r.v[b]
    let n := B.toNat % 64
    let V := r.flags.getLsbD 3
    let goes (cost : Nat) (x : Dword) (c v : Bool) : Host.Outcome State Fault Refusal :=
      .next (after e r cost (r.pc + 1) (withResult r d x c v) s)
    exec (.add e d a b) s = goes 1 (A + B) (decide (2 ^ 64 ≤ A.toNat + B.toNat)) (decide ((A + B).toInt ≠ A.toInt + B.toInt)) ∧
    exec (.sub e d a b) s = goes 1 (A - B) (decide (A.toNat < B.toNat)) (decide ((A - B).toInt ≠ A.toInt - B.toInt)) ∧
    exec (.and e d a b) s = goes 1 (A &&& B) false false ∧
    exec (.or e d a b) s = goes 1 (A ||| B) false false ∧
    exec (.xor e d a b) s = goes 1 (A ^^^ B) false false ∧
    exec (.shl e d a b) s = goes 1 (BitVec.ofNat 64 (A.toNat * 2 ^ n)) (decide (A.toNat * 2 ^ n / 2 ^ 64 % 2 = 1)) V ∧
    exec (.shr e d a b) s = goes 1 (BitVec.ofNat 64 (A.toNat / 2 ^ n)) (decide (n ≠ 0 ∧ A.toNat / 2 ^ (n - 1) % 2 = 1)) V ∧
    exec (.sar e d a b) s = goes 1 (BitVec.ofInt 64 (A.toInt / 2 ^ n)) (decide (n ≠ 0 ∧ A.toNat / 2 ^ (n - 1) % 2 = 1)) V ∧
    exec (.mul e d a b) s = goes 3 (BitVec.ofNat 64 (A.toNat * B.toNat)) (decide (A.toNat * B.toNat / 2 ^ 64 ≠ 0))
      (decide (A.toInt * B.toInt < -2 ^ 63 ∨ 2 ^ 63 ≤ A.toInt * B.toInt)) ∧
    exec (.mulhu e d a b) s = goes 3 (BitVec.ofNat 64 (A.toNat * B.toNat / 2 ^ 64)) false false ∧
    exec (.mulsh e d a b) s = goes 3 (BitVec.ofInt 64 (A.toInt * B.toInt / 2 ^ 64)) false false ∧
    exec (.divu e d a b) s = (if B = 0 then goes 36 (BitVec.allOnes 64) false true else goes 36 (BitVec.ofNat 64 (A.toNat / B.toNat)) false false) ∧
    exec (.remu e d a b) s = (if B = 0 then goes 36 A false true else goes 36 (BitVec.ofNat 64 (A.toNat % B.toNat)) false false) ∧
    exec (.minu e d a b) s = goes 1 (BitVec.ofNat 64 (min A.toNat B.toNat)) false false ∧
    exec (.maxu e d a b) s = goes 1 (BitVec.ofNat 64 (max A.toNat B.toNat)) false false ∧
    exec (.mins e d a b) s = goes 1 (BitVec.ofInt 64 (min A.toInt B.toInt)) false false ∧
    exec (.maxs e d a b) s = goes 1 (BitVec.ofInt 64 (max A.toInt B.toInt)) false false

/-- Part of R179, R180: the ALU instructions with an immediate, ext and ins. -/
def Obligations.AluImmediateResults : Prop :=
  ∀ (e : Fin 17) (d a : Fin 16) (imm : BitVec 16) (func : BitVec 12) (r : Routine) (s : State), Issues e r s →
    let A := r.v[a]
    let S : Dword := BitVec.ofInt 64 imm.toInt
    let Z : Dword := BitVec.ofNat 64 imm.toNat
    let n := imm.toNat % 64
    let pos := func.toNat % 64
    let len := if func.toNat / 64 = 0 then 64 else func.toNat / 64
    let V := r.flags.getLsbD 3
    let goes (cost : Nat) (x : Dword) (c v : Bool) : Host.Outcome State Fault Refusal :=
      .next (after e r cost (r.pc + 1) (withResult r d x c v) s)
    exec (.addi e d a imm) s = goes 1 (A + S) (decide (2 ^ 64 ≤ A.toNat + S.toNat)) (decide ((A + S).toInt ≠ A.toInt + imm.toInt)) ∧
    exec (.andi e d a imm) s = goes 1 (A &&& Z) false false ∧
    exec (.ori e d a imm) s = goes 1 (A ||| Z) false false ∧
    exec (.xori e d a imm) s = goes 1 (A ^^^ Z) false false ∧
    exec (.shli e d a imm) s = goes 1 (BitVec.ofNat 64 (A.toNat * 2 ^ n)) (decide (A.toNat * 2 ^ n / 2 ^ 64 % 2 = 1)) V ∧
    exec (.shri e d a imm) s = goes 1 (BitVec.ofNat 64 (A.toNat / 2 ^ n)) (decide (n ≠ 0 ∧ A.toNat / 2 ^ (n - 1) % 2 = 1)) V ∧
    exec (.sari e d a imm) s = goes 1 (BitVec.ofInt 64 (A.toInt / 2 ^ n)) (decide (n ≠ 0 ∧ A.toNat / 2 ^ (n - 1) % 2 = 1)) V ∧
    exec (.muli e d a imm) s = goes 3 (BitVec.ofNat 64 (A.toNat * S.toNat)) (decide (A.toNat * S.toNat / 2 ^ 64 ≠ 0))
      (decide (A.toInt * imm.toInt < -2 ^ 63 ∨ 2 ^ 63 ≤ A.toInt * imm.toInt)) ∧
    exec (.ext e d a func) s = goes 1 (BitVec.ofNat 64 (A.toNat / 2 ^ pos % 2 ^ len)) false false ∧
    Gives (.ins e d a func) s (fun t => ∃ x : Dword,
      (∀ k < 64, x.getLsbD k = if pos ≤ k ∧ k < pos + len then A.getLsbD (k - pos) else r.v[d].getLsbD k) ∧
      t = after e r 1 (r.pc + 1) (withResult r d x false false) s)

/-- Part of R179: moves, compares and nop. Compares write flags alone; moves write no flag. -/
def Obligations.MovesAndCompares : Prop :=
  ∀ (e : Fin 17) (d a b : Fin 16) (imm : BitVec 16) (k : BitVec 4) (r : Routine) (s : State), Issues e r s →
    let A := r.v[a]
    let B := r.v[b]
    let S : Dword := BitVec.ofInt 64 imm.toInt
    let Z : Dword := BitVec.ofNat 64 imm.toNat
    let goes (x : Routine) : Host.Outcome State Fault Refusal := .next (after e r 1 (r.pc + 1) x s)
    let cmp (B : Dword) : Host.Outcome State Fault Refusal :=
      goes (withFlags r (A - B) (decide (A.toNat < B.toNat)) (decide ((A - B).toInt ≠ A.toInt - B.toInt)))
    exec (.nop e) s = goes r ∧
    exec (.mov e d a) s = goes { r with v := r.v.set d A } ∧
    exec (.ldi e d imm) s = goes { r with v := r.v.set d S } ∧
    Gives (.movk e d k imm) s (fun t => ∃ x : Dword,
      (∀ j < 64, x.getLsbD j = if j / 16 = k.toNat % 4 then imm.getLsbD (j % 16) else r.v[d].getLsbD j) ∧
      t = after e r 1 (r.pc + 1) { r with v := r.v.set d x } s) ∧
    exec (.cmp e a b) s = cmp B ∧
    exec (.cmpi e a imm) s = cmp S ∧
    exec (.cmpui e a imm) s = cmp Z ∧
    exec (.tst e a b) s = goes (withFlags r (A &&& B) false false)

/-- R177, R178, R181, R182: branches, by the flags Z (bit 0), N (1), C (2), V (3), L (4), Q (5); a taken branch costs 4 cycles, another 1; no flag
changes, and CALL alone writes a register. -/
def Obligations.Branches : Prop :=
  ∀ (e : Fin 17) (a : Fin 16) (off : BitVec 24) (r : Routine) (s : State), Issues e r s →
    let z := r.flags.getLsbD 0
    let n := r.flags.getLsbD 1
    let c := r.flags.getLsbD 2
    let v := r.flags.getLsbD 3
    let target := BitVec.ofNat 16 (r.pc.toNat + off.toNat)
    let goes (taken : Bool) : Host.Outcome State Fault Refusal :=
      .next (if taken then after e r 4 target r s else after e r 1 (r.pc + 1) r s)
    exec (.b e off) s = goes true ∧
    exec (.call e off) s = .next (after e r 4 target { r with v := r.v.set 15 (BitVec.ofNat 64 ((r.pc.toNat + 1) % 65536)) } s) ∧
    exec (.jr e a) s = .next (after e r 4 (BitVec.ofNat 16 r.v[a].toNat) r s) ∧
    exec (.beq e off) s = goes z ∧ exec (.bne e off) s = goes (!z) ∧
    exec (.blt e off) s = goes (n != v) ∧ exec (.bge e off) s = goes (n == v) ∧
    exec (.bgt e off) s = goes (!z && n == v) ∧ exec (.ble e off) s = goes (z || n != v) ∧
    exec (.blo e off) s = goes c ∧ exec (.bhs e off) s = goes (!c) ∧
    exec (.bhi e off) s = goes (!c && !z) ∧ exec (.bls e off) s = goes (c || z) ∧
    exec (.bmi e off) s = goes n ∧ exec (.bpl e off) s = goes (!n) ∧
    exec (.bvs e off) s = goes v ∧ exec (.bvc e off) s = goes (!v) ∧
    exec (.blate e off) s = goes (r.flags.getLsbD 4) ∧ exec (.bnlate e off) s = goes (!r.flags.getLsbD 4) ∧
    exec (.bqe e off) s = goes (r.flags.getLsbD 5) ∧ exec (.bnqe e off) s = goes (!r.flags.getLsbD 5)

/-- Part of R183–R185: stores and posted atomics. An address below 0x0100_0000 that is aligned to the access stages the store, in cycle count 1, and no
register or flag changes; any other is an illegal instruction. A routine with 32 entries staged is aborted with code 2 instead (R159). -/
def Obligations.StoresAreStaged : Prop :=
  ∀ (e : Fin 17) (d a b : Fin 16) (imm : BitVec 16) (func : BitVec 12) (r : Routine) (s : State), Issues e r s → r.stage.length < 32 →
    let addr := (r.v[a] + BitVec.ofInt 64 imm.toInt).toNat
    let addr' := (r.v[a] + BitVec.ofInt 64 func.toInt).toNat
    let dword (k : Fin 16) : List Byte := (List.range 8).map fun j => BitVec.ofNat 8 (r.v[k].toNat / 2 ^ (8 * j))
    let goes (p n : Nat) (x : Effect) : State :=
      if p < 0x1000000 ∧ p % n = 0 then after e r 1 (r.pc + 1) { r with stage := r.stage ++ [x] } s else abortTop e 3 (begun r s)
    exec (.stw e d a imm) s = .next (goes addr 4 (.store addr ((dword d).take 4))) ∧
    exec (.std e d a imm) s = .next (goes addr 8 (.store addr (dword d))) ∧
    exec (.sth e a imm) s = .next (goes addr 32 (.store addr (dword 8 ++ dword 9 ++ dword 10 ++ dword 11))) ∧
    exec (.stl e a imm) s = .next (goes addr 64 (.store addr (dword 8 ++ dword 9 ++ dword 10 ++ dword 11 ++ dword 12 ++ dword 13 ++
      dword 14 ++ dword 15))) ∧
    exec (.padd e a b func) s = .next (goes addr' 8 (.atomic addr' false r.v[b])) ∧
    exec (.pswp e a b func) s = .next (goes addr' 8 (.atomic addr' true r.v[b]))

/-- Part of R159, R192, R193, R202–R204, R207, R214, R219, R222, R226: the instructions that stage an effect with no condition but room; each adds its one
entry, costs its cycles, and changes no register; sched alone writes a flag, L. Rests in part on choices of the model, log entry 21. -/
def Obligations.EffectsAreStaged : Prop :=
  ∀ (e : Fin 17) (a b : Fin 16) (n : Fin 256) (fs : FacetSel) (func : BitVec 12) (r : Routine) (s : State), Issues e r s →
    r.stage.length < 32 → facetOf r fs = some n →
    let f := func.toNat
    let A := r.v[a]
    let spec (time : Option Time) : ArmSpec := ⟨time, BitVec.ofNat 2 f, func.getLsbD 2, BitVec.ofNat 8 (f / 16), func.getLsbD 3, none⟩
    let late := decide (A < s.now ∨ 2 ^ 39 ≤ (A - s.now).toNat)
    let d := domainOf r func
    let entry := Fin.ofNat 256 (f % 256 + A.toNat % 256)
    let stages (cost : Nat) (r' : Routine) (x : Effect) : Host.Outcome State Fault Refusal :=
      .next (after e r cost (r.pc + 1) { r' with stage := r.stage ++ [x] } s)
    exec (.sched e a fs func) s = stages 1 { r with flags := setFlag r.flags 4 late } (.sched n (spec (some A))) ∧
    exec (.drv e fs func) s = stages 1 r (.sched n (spec none)) ∧
    (f % 16 = 0 → exec (.fcan e fs func) s = stages 1 r (.cancel n (BitVec.ofNat 8 (f / 16)))) ∧
    exec (.fcmdFlush e fs) s = stages 1 r (.flush n) ∧
    exec (.fcmdSafe e fs) s = stages 1 r (.safe n) ∧
    exec (.fcmdRelease e fs) s = stages 1 r (.release n) ∧
    exec (.ccmp e a func) s = stages 1 r (.cmpWrite (Fin.ofNat 32 f) (Fin.ofNat 4 (f / 32)) (loWord A)) ∧
    exec (.cdis e func) s = stages 1 r (.cmpDisarm (Fin.ofNat 32 f) (Fin.ofNat 4 (f / 32))) ∧
    exec (.dcan e a func) s = stages 1 r (.draftCancel d entry) ∧
    exec (.dfree e a func) s = stages 1 r (.draftFree d entry) ∧
    exec (.conv e a func) s = stages 1 r
      (.conv (Fin.ofNat 8 f) (if func.getLsbD 3 then none else some A) (BitVec.ofNat 8 (f / 16))) ∧
    (f % 32 < 24 → A.toNat % 16 = 0 → A.toNat < 0x1000000 →
      exec (.convu e a func) s = stages 1 r (.convu (Fin.ofNat 24 (f % 32)) (BitVec.ofNat 2 (f / 32)) (BitVec.ofNat 24 A.toNat))) ∧
    (f % 32 < 24 → exec (.rwin e a b func) s = stages 1 r (.rwin (Fin.ofNat 24 (f % 32)) (Fin.ofNat 4 (f / 32)) A r.v[b])) ∧
    exec (.note e a b func) s = stages 2 r (.note (Fin.ofNat 16 f) (BitVec.ofNat 8 (f / 16)) s.now A r.v[b]) ∧
    (f / 32 = 0 → exec (.seal e a func) s = stages 1 r (.seal (Fin.ofNat 16 f) (if func.getLsbD 4 then none else some A))) ∧
    exec (.post e a func) s = stages 1 r (.post (Fin.ofNat 512 (if func.getLsbD 11 then f else A.toNat))) ∧
    exec (.rpost e a func) s = stages 1 r (.rpost (BitVec.ofNat 6 (A.toNat / 512)) (Fin.ofNat 512 A.toNat)) ∧
    exec (.remoteEvent e a func) s = stages 1 r
      (.revt (if func.getLsbD 10 then none else some (BitVec.ofNat 6 (A.toNat / 512))) (BitVec.ofNat 5 f)) ∧
    exec (.trig e func) s = stages 1 r (.trig (BitVec.ofNat 5 f))

/-- Part of R183–R185, R258: an immediate load or fetch-and-op whose address is in the Vault and aligned issues: its routine waits with that access for
the engine's slot, and nothing else changes. R160, R184, R187: when a slot goes to the engine whose routine waits for a load, the next line of the
access is read; the access waits on, or, if that was its last line, the bytes with those of the youngest staged store in their place come, little-
endian, into D or into v8 on, and the routine goes on after its cost and the cycles since its issue. No flag changes, and no byte of the Vault. Rests
in part on choices of the model, log entries 6 and 7. -/
def Obligations.LoadsRead : Prop :=
  ∀ (e : Fin 17) (d a b : Fin 16) (imm : BitVec 16) (func : BitVec 12) (reqs : List VaultRequest) (pooled : Bool) (r : Routine) (s : State),
    let p := (r.v[a] + BitVec.ofInt 64 imm.toInt).toNat
    let q := (r.v[a] + BitVec.ofInt 64 func.toInt).toNat
    let waits (addr n : Nat) (op : Option (Bool × Dword)) (into : LoadTo) (cost : Nat) : Host.Outcome State Fault Refusal :=
      .next ((begun r s).putTop e { r with issueAt := max r.issueAt s.engCycle, acc := some ⟨addr, n, op, [], into, cost, r.pc + 1, s.now⟩ })
    let ok (addr n : Nat) : Prop := addr < 0x1000000 ∧ addr % n = 0
    (Issues e r s →
      (ok p 4 → exec (.ldw e d a imm) s = waits p 4 none (.reg d) 6) ∧
      (ok p 8 → exec (.ldd e d a imm) s = waits p 8 none (.reg d) 6) ∧
      (ok p 32 → exec (.ldh e a imm) s = waits p 32 none .line 7) ∧
      (ok p 64 → exec (.ldl e a imm) s = waits p 64 none .line 8) ∧
      (ok q 8 → exec (.fadd e d a b func) s = waits q 8 (some (false, r.v[b])) (.reg d) 8 ∧
        exec (.fswp e d a b func) s = waits q 8 (some (true, r.v[b])) (.reg d) 8)) ∧
    (∀ x : Access, s.routine e = some r → r.micro = none → r.acc = some x → x.atomic = none → x.size ≤ 64 → x.got.length < x.size →
      GoesTo e pooled reqs s →
      let from' := x.addr + x.got.length
      let n := min (x.size - x.got.length) (32 - from' % 32)
      let one := lineCheck 0 (from' / 32) (slotEcc e reqs) (countSlot 0 (takeSlot (0, pooled, e.val) s))
      let got := x.got ++ (List.range n).map fun k => s.vlt.byte (from' + k)
      let has (v : Dword) (at' : Nat) : Prop :=
        ∀ k < 8, (v.toNat / 2 ^ (8 * k)) % 256 = if at' + k < got.length then (seenByte r.stage (x.addr + at' + k) (got.getD (at' + k) 0)).toNat else 0
      let ends (v : Vector Dword 16) : State := one.putTop e
        { r with v := v, pc := x.pc, count := r.count + x.cost + (s.engCycle - r.issueAt), issueAt := max r.issueAt s.engCycle + x.cost, acc := none }
      one.vlt.anyPoison from' n = false → VaultKept s one ∧
        (got.length < x.size → exec (.vaultAccess reqs) s = .next (one.putTop e { r with acc := some { x with got := got } })) ∧
        (x.size ≤ got.length → x.into = .reg d → Gives (.vaultAccess reqs) s fun t => ∃ y, has y 0 ∧ t = ends (r.v.set d y)) ∧
        (x.size ≤ got.length → x.into = .line → Gives (.vaultAccess reqs) s fun t => ∃ v : Vector Dword 16,
          (∀ j : Fin 16, if 8 ≤ j.val ∧ j.val < 8 + got.length / 8 then has v[j] (8 * (j.val - 8)) else v[j] = r.v[j]) ∧ t = ends v))

/-- Part of R186, R260: when a slot goes to the engine whose routine waits for a fetch-and-op on a word that is not poisoned, D takes the old value, and
the word takes the sum (wrapping) or the operand, unless an image load guards the line (R408); no other byte changes. Rests in part on choices of the
model, log entries 6 and 7. -/
def Obligations.FetchAndOp : Prop :=
  ∀ (e : Fin 17) (d : Fin 16) (swap : Bool) (w : Dword) (reqs : List VaultRequest) (pooled : Bool) (x : Access) (r : Routine) (s : State),
    s.wf = true → s.routine e = some r → r.micro = none → r.acc = some x → x.atomic = some (swap, w) → x.size = 8 → x.got = [] → x.into = .reg d →
    x.addr % 8 = 0 → GoesTo e pooled reqs s →
    let one := lineCheck 0 (x.addr / 32) (eccWord (slotEcc e reqs) (x.addr / 8)) (countSlot 0 (takeSlot (0, pooled, e.val) s))
    let old := s.vlt.word (x.addr / 8)
    let new := if swap then w else old + w
    one.vlt.poisoned (x.addr / 8) = false →
    Gives (.vaultAccess reqs) s (fun t =>
      t.routine e = some { r with v := r.v.set d old, pc := x.pc, count := r.count + x.cost + (s.engCycle - r.issueAt),
                                  issueAt := max r.issueAt s.engCycle + x.cost, acc := none } ∧
      ∀ k, t.vlt.byte k =
        if x.addr ≤ k ∧ k < x.addr + 8 ∧ s.guardedAt x.addr 8 = false then BitVec.ofNat 8 (new.toNat / 2 ^ (8 * (k - x.addr))) else s.vlt.byte k)

/-- Part of R153, R176, R183, R265: where an immediate access stops: an address above the Vault or misaligned aborts with code 3 at issue, and a poisoned
word aborts with code 5 in the slot; while an access waits no instruction of the routine issues. Rests in part on choices of the model, log entries 6
and 7. -/
def Obligations.LoadsStop : Prop :=
  ∀ (e : Fin 17) (d a b : Fin 16) (imm : BitVec 16) (func : BitVec 12) (reqs : List VaultRequest) (pooled : Bool) (r : Routine) (s : State),
    let p := (r.v[a] + BitVec.ofInt 64 imm.toInt).toNat
    let q := (r.v[a] + BitVec.ofInt 64 func.toInt).toNat
    let bad (addr n : Nat) : Prop := 0x1000000 ≤ addr ∨ addr % n ≠ 0
    let illegal' : Host.Outcome State Fault Refusal := .next (abortTop e 3 (begun r s))
    (Issues e r s →
      (bad p 4 → exec (.ldw e d a imm) s = illegal') ∧ (bad p 8 → exec (.ldd e d a imm) s = illegal') ∧
      (bad p 32 → exec (.ldh e a imm) s = illegal') ∧ (bad p 64 → exec (.ldl e a imm) s = illegal') ∧
      (bad q 8 → exec (.fadd e d a b func) s = illegal' ∧ exec (.fswp e d a b func) s = illegal')) ∧
    (∀ x : Access, s.routine e = some r → r.acc = some x → x.got.length < x.size → GoesTo e pooled reqs s →
      let from' := x.addr + x.got.length
      let n := min (x.size - x.got.length) (32 - from' % 32)
      let slot := countSlot 0 (takeSlot (0, pooled, e.val) s)
      let one := lineCheck 0 (from' / 32) (slotEcc e reqs) slot
      let word := lineCheck 0 (x.addr / 32) (eccWord (slotEcc e reqs) (x.addr / 8)) slot
      (x.atomic = none → one.vlt.anyPoison from' n = true → exec (.vaultAccess reqs) s = .next (abortTop e 5 (poisonRead one))) ∧
      (x.atomic.isSome = true → word.vlt.poisoned (x.addr / 8) = true → exec (.vaultAccess reqs) s = .next (abortTop e 5 (poisonRead word)))) ∧
    (s.routine e = some r → r.acc.isSome = true ∨ r.budget < r.count → Nothing (.nop e) s ∧ Nothing (.ldw e d a imm) s ∧ Nothing (.fswp e d a b func) s)

/-- Part of R171, R172, R205–R208: special registers, the facet and counter reads. A position past the queue's end sets Q and gives the no-entry value; an
entry read by the channel that owns the queue is marked for removal. Rests in part on choices of the model, log entry 21. -/
def Obligations.SpecialFacetAndCounterReads : Prop :=
  ∀ (e : Fin 17) (d a : Fin 16) (fs : FacetSel) (func : BitVec 12) (n : Fin 256) (r : Routine) (s : State), Issues e r s →
    let f := func.toNat
    let m := Fin.ofNat 32 f
    let put (x : Dword) : Routine := { r with v := r.v.set d x }
    let goes (cost : Nat) (x : Routine) : Host.Outcome State Fault Refusal := .next (after e r cost (r.pc + 1) x s)
    let q (b : Bool) (x : Dword) (reads : List (CapQueue × Nat)) : Routine :=
      { r with v := r.v.set d x, flags := setFlag r.flags 5 b, reads := reads }
    let spr (k : Nat) : Host.Outcome State Fault Refusal → Prop := fun o => f = k → exec (.mfs e d func) s = o
    let wb (x : Context) : Host.Outcome State Fault Refusal := goes 1 { r with wb := x }
    spr 0 (goes 1 (put (BitVec.ofNat 64 r.cause.toNat))) ∧
    spr 1 (goes 2 (put s.now)) ∧
    spr 2 (goes 1 (put (BitVec.ofNat 64 r.ctx.bind.toNat))) ∧
    spr 3 (goes 1 (put (BitVec.ofNat 64 (r.budget - r.count)))) ∧
    (f = 4 → s.get SLO_STAT.node_id < 64 → exec (.mfs e d func) s = goes 1 (put (BitVec.ofNat 64 (s.get SLO_STAT.node_id * 512 + r.ch)))) ∧
    spr 5 (goes 1 (put (BitVec.ofNat 64 r.ctx.persona.toNat))) ∧
    spr 6 (goes 1 (put (BitVec.ofNat 64 r.ctx.adom.toNat))) ∧
    (7 ≤ f → exec (.mfs e d func) s = .next (abortTop e 3 (begun r s))) ∧
    (f = 2 → exec (.mts e a func) s = wb { r.wb with bind := BitVec.ofNat 9 r.v[a].toNat }) ∧
    (f = 3 → exec (.mts e a func) s = wb { r.wb with budget := BitVec.ofNat 11 r.v[a].toNat }) ∧
    (f = 5 → exec (.mts e a func) s = wb { r.wb with persona := r.v[a].getLsbD 0 }) ∧
    (f = 6 → exec (.mts e a func) s = wb { r.wb with adom := BitVec.ofNat 3 r.v[a].toNat }) ∧
    (f ∉ [2, 3, 5, 6] → exec (.mts e a func) s = .next (abortTop e 3 (begun r s))) ∧
    (facetOf r fs = some n → exec (.flvl e d fs) s = goes 6 (put (BitVec.ofNat 64 ((facetLevel n s).toNat % 2 ^ 19)))) ∧
    (facetOf r fs = some n → (s.fct[n]).caps.length ≤ f % 8 →
      exec (.fcap e d fs func) s = goes 6 (q true (if func.getLsbD 3 then BitVec.ofNat 64 ((s.fct[n]).caps.length * 256) else noTime) r.reads)) ∧
    (∀ c, facetOf r fs = some n → (s.fct[n]).caps[f % 8]? = some c →
      exec (.fcap e d fs func) s = goes 6 (q false
        (if func.getLsbD 3 then BitVec.ofNat 64 ((s.fct[n]).caps.length * 256 + 2 + c.rising.toNat) else c.time)
        (if s.flag (FCT_CTRL.cap_owner n) ∧ s.get (FCT_BIND.channel n) = r.ch then markRead (.facet n) (f % 8) r.reads else r.reads))) ∧
    (facetOf r fs = none → exec (.flvl e d fs) s = .next (abortTop e 3 (begun r s)) ∧
      exec (.fcap e d fs func) s = .next (abortTop e 3 (begun r s))) ∧
    exec (.cval e d func) s = goes 6 (put (BitVec.ofNat 64 (s.rd (CNT_VAL m)).toNat)) ∧
    ((s.cnt[m]).caps.length ≤ f / 32 % 4 → exec (.ccap e d func) s = goes 6 (q true (if func.getLsbD 7 then 0 else noTime) r.reads)) ∧
    (∀ c, (s.cnt[m]).caps[f / 32 % 4]? = some c →
      exec (.ccap e d func) s = goes 6 (q false (if func.getLsbD 7 then BitVec.ofNat 64 c.count.toNat else c.time)
        (if s.flag (CNT_BIND.en m) ∧ s.get (CNT_BIND.channel m) = r.ch then markRead (.counter m) (f / 32 % 4) r.reads else r.reads)))

/-- Part of R209–R216, R221: the angle, draft and reducer reads, and dwr; each sets its flags and costs its cycles. The functions named are those the
rules give: the projected time of an angle, the running angle at a time, the live position, the draft's fields. Rests in part on choices of the model,
log entry 21. -/
def Obligations.AngleAndDraftInstructions : Prop :=
  ∀ (e : Fin 17) (d a b : Fin 16) (func : BitVec 12) (r : Routine) (s : State), Issues e r s →
    let k := domainOf r func
    let A := r.v[a].toNat
    let B := r.v[b].toNat
    let cyc := s.cycleAu k
    let dom := s.bzl[k]
    let entry := s.draft k (Fin.ofNat 256 (func.toNat % 256 + A % 256))
    let goes (cost : Nat) (x : Dword) (f : BitVec 6) : Host.Outcome State Fault Refusal :=
      .next (after e r cost (r.pc + 1) { r with v := r.v.set d x, flags := f } s)
    let quiet (cost : Nat) (x : Dword) (q : Bool) : Host.Outcome State Fault Refusal := goes cost x (setFlag r.flags 5 q)
    (A % 2 ^ 32 < cyc → s.tracking k = true → ∀ t, t = dom.timeOf (targetOf (s.cycle16 k) dom.thetaK (A % 2 ^ 32)) → t ≠ noTime →
      exec (.a2t e d a func) s = goes 12 t (setFlag (setFlag r.flags 5 false) 4 (decide (t < s.now)))) ∧
    (cyc ≤ A % 2 ^ 32 ∨ s.tracking k = false → exec (.a2t e d a func) s = goes 12 noTime (setFlag (setFlag r.flags 5 true) 4 false)) ∧
    (∀ th, s.tracking k = true → dom.angleAt (s.cycle16 k) r.v[a] = some th →
      exec (.t2a e d a func) s = quiet 24 (BitVec.ofNat 64 (th / 16 % cyc)) false) ∧
    (s.tracking k = false ∨ dom.angleAt (s.cycle16 k) r.v[a] = none → exec (.t2a e d a func) s = quiet 24 0xFFFFFFFF true) ∧
    exec (.apos e d func) s = quiet 6 (BitVec.ofNat 64 ((s.live k).toNat + 2 ^ 32 * s.dState k + 2 ^ 35 * (s.flag (BZL_STATE.pos_valid k)).toNat +
      2 ^ 36 * s.get (BZL_STATE.dir k) + 2 ^ 37 * (s.clamped k).toNat + 2 ^ 38 * s.get (BZL_STATE.rev k))) (!s.flag (BZL_STATE.pos_valid k)) ∧
    (∀ hit : Bool, (hit = true ↔ s.tracking k = true ∧
        ((s.live k).toNat + cyc - A % 2 ^ 32 % cyc) % cyc < (B % 2 ^ 32 + cyc - A % 2 ^ 32 % cyc) % cyc) →
      exec (.awin e d a b func) s = goes 6 (BitVec.ofNat 64 hit.toNat) (setFlag (setFlag r.flags 0 (!hit)) 5 (!s.tracking k))) ∧
    (B / 2 ^ 40 % 2 ^ 16 = 0 → B / 2 ^ 25 % 2 ^ 7 = 0 → A % 2 ^ 32 < cyc → r.stage.length < 32 →
      exec (.dwr e d a b func) s = .next (after e r 1 (r.pc + 1) { r with stage := r.stage ++
        [.draftWrite k (Fin.ofNat 256 (func.toNat % 256 + B / 2 ^ 56)) (draftSpec r r.v[a] r.v[b] r.v[d])] } s)) ∧
    (B / 2 ^ 40 % 2 ^ 16 ≠ 0 ∨ B / 2 ^ 25 % 2 ^ 7 ≠ 0 ∨ cyc ≤ A % 2 ^ 32 → exec (.dwr e d a b func) s = .next (abortTop e 3 (begun r s))) ∧
    exec (.dst e d a func) s = quiet 6 (BitVec.ofNat 64 (entry.spec.angle.toNat * 2 ^ 32 + entry.spec.facet * 2 ^ 24 +
      entry.spec.hostOwn.toNat * 2 ^ 17 + entry.spec.owner * 2 ^ 8 + entry.status.code * 16 + entry.reason.toNat)) (entry.status == .free) ∧
    exec (.dtm e d a func) s = quiet 6 (draftTime entry) (draftTime entry == noTime) ∧
    (func.toNat % 32 < 24 → exec (.rred e d func) s =
      let x := s.redField (Fin.ofNat 24 (func.toNat % 32)) (Fin.ofNat 4 (func.toNat / 32)) (Fin.ofNat 8 (func.toNat / 128))
      quiet 6 x.1 (!x.2)) ∧
    (24 ≤ func.toNat % 32 → exec (.rred e d func) s = .next (abortTop e 3 (begun r s)))

/-- Part of R154, R161, R176, R188–R191: a routine's end. The channel is COMMITTING, the engine is free or goes on with the routine it was taken from, and
the commit unit holds the commit behind those before it, with nothing written back or sent yet. When no other commit is in hand, its first step, in
the cycle after, writes back the registers and flags with the next pc and the values of MTS; WAIT replaces the subscription and, with bit 11, the wake
time; YIELD raises its causes again after the commit. A context error found at the end aborts with code 4. An illegal instruction aborts its routine:
nothing staged goes anywhere, the causes are pending again, and the channel shows fault code 3 in FAULTED, or DISABLED when it has been disabled.
Rests in part on choices of the model, log entry 18. -/
def Obligations.RoutineEndings : Prop :=
  ∀ (e : Fin 17) (a : Fin 16) (imm : BitVec 16) (func : BitVec 12) (ctx : Ecc) (r : Routine) (s : State), Issues e r s → s.wf = true →
    let resumes := (s.tlr.eng[e]).l1.isSome && (s.tlr.eng[e]).l0.isSome
    let old := s.tlr.ctx[r.ch]
    let ends (pc : BitVec 16) (again : BitVec 19) (wake : Option Time) (sub : Option (Option Byte)) (t : State) : Prop :=
      t.get (TLR_CH_STAT.state r.ch) = 5 ∧ t.tlr.ctx = s.tlr.ctx ∧ t.tlr.chan = s.tlr.chan ∧ t.inflight = s.inflight ∧ VaultKept s t ∧
      (t.routine e).isSome = resumes ∧ (ctx = .corrected → t.flag TLR_STAT.ctx_corr = true) ∧
      t.tlr.commits = s.tlr.commits ++ [⟨r.ch, some (r, ⟨pc, wake, sub, again⟩), (r.stage.map Effect.vaultParts).flatten,
        r.stage.filter Effect.isLog ++ r.stage.filter Effect.isPost, s.now, again, []⟩] ∧
      (s.tlr.commits = [] →
        let u := commitStep1 t
        u.tlr.ctx[r.ch] = { r.wb with v := r.v, flags := r.flags, pc := pc, cls := old.cls, wake := wake.getD old.wake } ∧
        (u.tlr.chan[r.ch]).sub = (match sub with | none => (s.tlr.chan[r.ch]).sub | some n => n.map fun n => (n, s.tb.cyc + 1)) ∧
        u.tlr.commits.map (·.back) = [none] ∧ VaultKept s u)
    let lost : Host.Outcome State Fault Refusal := .next (abortTop e 4 (begun r s))
    (ctx ≠ .uncorrectable →
      Gives (.endR e imm ctx) s (ends imm 0 none none) ∧
      Gives (.yieldR e ctx) s (ends (r.pc + 1) r.cause none none) ∧
      (func.getLsbD 9 = false ∧ func.getLsbD 8 = false →
        Gives (.wait e a func ctx) s (ends (r.pc + 1) 0 (if func.getLsbD 11 then some r.v[a] else none)
          (some (if func.getLsbD 10 then some (BitVec.ofNat 8 func.toNat) else none))))) ∧
    (ctx = .uncorrectable → exec (.endR e imm ctx) s = lost ∧ exec (.yieldR e ctx) s = lost ∧
      (func.getLsbD 9 = false ∧ func.getLsbD 8 = false → exec (.wait e a func ctx) s = lost)) ∧
    (func.getLsbD 9 = true ∨ func.getLsbD 8 = true → exec (.wait e a func ctx) s = .next (abortTop e 3 (begun r s))) ∧
    Gives (.illegalInstruction e) s (fun t =>
      t.inflight = s.inflight ∧ t.tlr.commits = s.tlr.commits ∧ t.tlr.ctx = s.tlr.ctx ∧ VaultKept s t ∧
      t.get (TLR_CH_STAT.fault r.ch) = 3 ∧
      t.get (TLR_CH_STAT.state r.ch) = (if s.flag (TLR_CH_CTL.en r.ch) then 7 else 0) ∧
      t.rd (TLR_CH_PEND r.ch) = s.rd (TLR_CH_PEND r.ch) ||| BitVec.ofNat 32 r.cause.toNat ∧
      t.rd TLR_FAULT = BitVec.ofNat 32 (2 ^ 31 + e * 2 ^ 16 + 3 * 2 ^ 12 + r.ch) ∧
      t.flag (bitFld FLT_STAT 2) = true ∧ (t.routine e).isSome = resumes)

/-- Part of R194–R197: legacy instructions by their class. A write of a legacy register clears bits 63:32; a pin stands for a facet of the 64 at
FACET_BIND, a channel number for one of the 64 of the routine's own; a time for a pin is extended at issue, one for a counter keeps its 32 bits. A
parameter read waits for its slot as a load does. Rests in part on choices of the model, log entries 7, 42 and 53. -/
def Obligations.LegacyInstructions : Prop :=
  ∀ (e : Fin 17) (d : Fin 8) (v : Word) (f : BitVec 4) (tgt nxt : BitVec 16) (p : BitVec 6) (act : BitVec 2) (drop notify : Bool) (tag : Byte)
    (a : BitVec 22) (n : Fin 32) (k : Fin 4) (ctx : Ecc) (r : Routine) (s : State), Issues e r s → r.stage.length < 32 →
    let run (x : LegacyOp) : Host.Outcome State Fault Refusal := exec (.legacyInstruction e x) s
    let fl : BitVec 6 := packFlags (f.getLsbD 0) (f.getLsbD 1) (f.getLsbD 2) (f.getLsbD 3) (r.flags.getLsbD 4) (r.flags.getLsbD 5)
    let reg (d : Fin 8) (x : Nat) : Vector Dword 16 := r.v.set (Fin.ofNat 16 d.val) (BitVec.ofNat 64 (x % 2 ^ 32))
    let facet := Fin.ofNat 256 (r.ctx.bind.toNat % 256 / 64 * 64 + p.toNat)
    let addr : Nat := r.v[(14 : Fin 16)].toNat % 2 ^ 24 + 4 * a.toNat
    let goes (cost : Nat) (x : Routine) : Host.Outcome State Fault Refusal := .next (after e r cost (r.pc + 1) x s)
    let stages (cost : Nat) (x : Effect) : Host.Outcome State Fault Refusal := goes cost { r with stage := r.stage ++ [x] }
    run (.alu d v f) = goes 2 { r with v := reg d v.toNat, flags := fl } ∧
    run (.compare f) = goes 2 { r with flags := fl } ∧
    run (.branch true tgt) = .next (after e r 5 tgt r s) ∧
    run (.branch false tgt) = goes 2 r ∧
    run (.timeRead d) = goes 3 { r with v := reg d (s.now.toNat / 8) } ∧
    run (.schedule p d act drop tag notify) = stages 3 (.sched facet ⟨some (legacyTime s.now (loWord r.v[Fin.ofNat 16 d.val])), act, drop, tag, notify, none⟩) ∧
    run (.counter n k d) = stages 3 (.cmpWrite n k (loWord r.v[Fin.ofNat 16 d.val])) ∧
    run (.flush p) = stages 3 (.flush facet) ∧ run (.safe p) = stages 3 (.safe facet) ∧ run (.release p) = stages 3 (.release facet) ∧
    run (.post p) = stages 2 (.post (Fin.ofNat 512 (r.ch / 64 * 64 + p.toNat))) ∧
    (addr < 0x1000000 → addr % 4 = 0 → run (.paramWrite a d) =
      stages 3 (.store addr ((List.range 4).map fun j => BitVec.ofNat 8 (r.v[Fin.ofNat 16 d.val].toNat / 2 ^ (8 * j))))) ∧
    (addr < 0x1000000 → addr % 4 = 0 → run (.paramRead d a) = .next ((begun r s).putTop e { r with
      issueAt := max r.issueAt s.engCycle, acc := some ⟨addr, 4, none, [], .reg (Fin.ofNat 16 d.val), 8, r.pc + 1, s.now⟩ })) ∧
    (0x1000000 ≤ addr ∨ addr % 4 ≠ 0 → run (.paramWrite a d) = .next (abortTop e 3 (begun r s)) ∧
      run (.paramRead d a) = .next (abortTop e 3 (begun r s))) ∧
    (s.wf = true → ctx ≠ .uncorrectable → Gives (.legacyInstruction e (.finish nxt ctx)) s (fun t =>
      t.get (TLR_CH_STAT.state r.ch) = 5 ∧ VaultKept s t ∧ ∃ c, t.tlr.commits = s.tlr.commits ++ [c] ∧ c.ch = r.ch ∧ c.back = some (r, ⟨nxt, none, none, 0⟩)))

/-- Part of R231–R240, R245–R247, R250: a customer opcode whose dispatch entry is not valid is illegal. With one that is, the first word of its routine
runs on ten free values drawn for the micro-state that begins undefined: a word D ← A + B that ends the instruction adds in one cycle and writes no
flag; a word of sequence 7 is a Mint fault of cause 2. The next word of an instruction in progress finds the micro-state of the one before: a word t0
← A + B that goes on changes t0 and the address alone, and a return on an empty stack is a Mint fault of cause 5. A victim without a trap point for
twelve cycles is aborted, and the urgent channel runs on its engine. Rests in part on choices of the model, log entries 5, 20 and 57. -/
def Obligations.MintInstructions : Prop :=
  ∀ (e : Fin 17) (w : Word) (u : BitVec 13) (n : BitVec 11) (r : Routine) (s : State),
    let op := w.toNat / 2 ^ 24
    let entry (k : Nat) : Prop := 0xE0 ≤ op ∧ s.flag (MNT_DISP.valid op) = true ∧ s.get (MNT_DISP.uaddr op) = u.toNat ∧
      s.mnt.uword u = n ++ BitVec.ofNat 13 k
    let adds (d : Nat) : Prop := s.mnt.nword n = BitVec.ofNat 128 (17 * 2 ^ 123 + 18 * 2 ^ 115 + 2 ^ 99 + d * 2 ^ 93)
    let begins : State := { begun r s with free := s.free + 10 }
    let sum (w : Word) : Dword := r.v[w.toNat / 2 ^ 16 % 16] + r.v[w.toNat / 2 ^ 12 % 16]
    (Issues e r s →
      (op < 0xE0 ∨ s.flag (MNT_DISP.valid op) = false → exec (.mintInstruction e w) s = .next (abortTop e 3 (begun r s))) ∧
      (entry 0x1800 → adds 1 → exec (.mintInstruction e w) s = .next (begins.putTop e
        { r with v := r.v.set (w.toNat / 2 ^ 20 % 16) (sum w), pc := r.pc + 1, count := r.count + 1, issueAt := max r.issueAt s.engCycle + 1 })) ∧
      (entry 0x1C00 → exec (.mintInstruction e w) s = .next (mintFault e 2 u begins))) ∧
    (∀ m : Micro, s.routine e = some r → r.count ≤ r.budget → r.acc = none → r.micro = some m → m.u = u →
      (s.mnt.uword u = n ++ BitVec.ofNat 13 0 → adds 3 → 0x1800 ≤ u.toNat → u.toNat < 0x1FFF →
        exec (.mintInstruction e w) s = .next (s.putTop e { r with
          count := r.count + 1, issueAt := max r.issueAt s.engCycle + 1, micro := some { m with t := vmod m.t 0 fun _ => sum m.w, u := u + 1 } })) ∧
      (s.mnt.uword u = n ++ BitVec.ofNat 13 0xC00 → adds 3 → m.stack = [] → exec (.mintInstruction e w) s = .next (mintFault e 5 u s))) ∧
    (s.trapLate e = false → Nothing (.mintTrapTimeout e) s) ∧
    (∀ (ch : Fin 512) (c : Nat) (m : Micro), s.trapLate e = true → (s.tlr.eng[e]).sel = some (ch, c) → ((s.tlr.eng[e]).l0).bind (·.micro) = some m →
      let f := mintFault e 8 m.u s
      exec (.mintTrapTimeout e) s = .next (if f.dispatching && f.urgent ch then
        let x := beginRoutine ch e (s.engCycle + 2) f
        x.2.modEng e fun y => { y with l0 := some x.1 } else f))

/-! ### Registers, the host batch, time and counters (spec/00–02) -/

/-- R10, R11: what a write leaves of each bit of a register word, by the bit's access code: an RW bit takes the written value (one under a set lock does
not), a W1C bit written 1 clears unless the part has set it in this cycle, a W1S bit written 1 sets, and every other bit keeps its value. The word has
no reserved encoding, and a bit one code at most. -/
def Obligations.AccessCodes : Prop :=
  ∀ (r : RegWord) (lk : Bool) (new old v : Word) (k : Nat), k < 32 → r.bad = [] →
    let has (m : Nat) : Bool := m.testBit k
    (has r.rwl = true → has r.rw = true) → (has r.w1c = true → has r.rw = false ∧ has r.w1s = false) → (has r.w1s = true → has r.rw = false) →
    (∀ j, r.rwl.testBit j = true → r.rw.testBit j = true) →
    (accessWrite r lk new old v).getLsbD k =
      if has r.rw && !(lk && has r.rwl) then v.getLsbD k
      else if has r.w1c then old.getLsbD k && (!v.getLsbD k || new.getLsbD k)
      else if has r.w1s then old.getLsbD k || v.getLsbD k
      else old.getLsbD k

/-- Part of R8, R12: register words in a state in canonical form. A word written is read back, no other word changes, a field set is read back and leaves
the word's other bits, and the form is kept. Rests in part on choices of the model, log entry 10. -/
def Obligations.RegistersReadBack : Prop :=
  ∀ (s : State) (off : Nat) (w : Word) (f : Fld) (v : Nat), s.wf = true → f.lo ≤ f.hi → f.hi < 32 →
    (s.wr off w).rd off = w ∧ OnlyRegs [off] s (s.wr off w) ∧ (s.wr off w).wf = true ∧
    (s.set f v).get f = v % 2 ^ (f.hi - f.lo + 1) ∧ OnlyRegs [f.off] s (s.set f v) ∧ (s.set f v).wf = true ∧
    (∀ k < 32, k < f.lo ∨ f.hi < k → ((s.set f v).rd f.off).getLsbD k = (s.rd f.off).getLsbD k) ∧
    (f.lo = f.hi → (s.raise f).flag f = true ∧ (s.raise f).wf = true)

/-- Part of R9, R10, R12, R26, R393: a write of the register window. It always completes; a batch due at this boundary acts before it. An offset that is
no multiple of 4, or that no block has, takes nothing. A register that has no behaviour of its own acts by its fields' access codes and on nothing
else; a register whose write is a command of its own does what that command does. One register of each kind in every block is named. Rests in part on
choices of the model, log entry 14. -/
def Obligations.PlainRegisterWrites : Prop :=
  ∀ (s : State) (v : Word) (n : Fin 32) (k : Fin 4) (f : Fin 256) (d : Fin 8) (m : Fin 16) (e : Fin 2) (ch : Fin 512) (x : Fin 1024) (i : BitVec 16) (off w : Nat),
    let b := settleBatch off s
    let does (c : Instr) : Prop := exec (.registerWrite off v) s = exec c b
    Gives (.registerWrite off v) s (fun t => t = if 0x1C0000 ≤ off ∧ off < 0x1D0000 then hstWrite off v s else if msixArea off then msixWrite off v s else busWrite off v b) ∧
    (off % 4 ≠ 0 ∨ (0xB4000 ≤ off ∧ off < 0xC0000) ∨ (0x1D0000 ≤ off ∧ off < 0x1E0000) ∨ 0x1E2000 ≤ off → exec (.registerWrite off v) s = .next b) ∧
    (off ∈ [GBL_GO_AT_MASK, GBL_GO_AT_TALLY, GBL_GO_AT_TALLY + 4, GBL_SCRATCH, TB_CTRL, CNT_BIND n, FCT_BIND f, FCT_SCHED_TIME f, FCT_SCHED_TIME f + 4,
       FCT_ROUTE n, FCT_STAT f, BZL_BIND d, BZL_TBL_IDX d, BZL_DFT_W0 d, WHL_STAT d, TLR_STAT, MNT_UADDR, VLT_ROT, VLT_SCRUB, ADC_GPER d, ADC_CAL_TGT,
       DMA_GSTAT, DBK_WIN, DBK_SEAL_TIME m, ETH_CTRL e, ETH_PTP_GAIN, ETH_TLM_IP d, IC_CTRL, IC_STORM, SLO_PUB k, SLO_PORT_STAT k, FLT_STAT, PWR_ALARM,
       ASY_TLIM, HST_BATCH_ADDR, HST_BATCH_TALLY] → exec (.registerWrite off v) s = .next (b.plainWrite off v)) ∧
    (off = GBL_GO → does (.gblGo v)) ∧ (off = GBL_HALT → does (.gblHalt v)) ∧ (off = TB_SLEW → does (.slewWrite .host v)) ∧
    (off = CNT_CMP n k → does (.compareWrite n k v)) ∧ (off = CNT_CTRL n → does (.counterCtrlWrite n v)) ∧ (off = CNT_VAL n → does (.counterValueWrite n v)) ∧
    (off = FCT_CTRL f → does (.facetCtrlWrite f v)) ∧ (off = FCT_FILT f → does (.filtWrite f v)) ∧ (off = FCT_RATE f → does (.rateWrite f v)) ∧
    (off = FCT_SCHED_CMD f → does (.schedPush f v)) ∧ (off = BZL_TBL_DATA d → does (.tableDataAccess d (some v))) ∧
    (off = 0xA0000 + 0xA0 * ch + w → w < 0xA0 → w % 4 = 0 → does (.contextWrite ch w v)) ∧
    (off = 0xC0000 + 4 * i.toNat → does (.programStoreWrite i v)) ∧
    (off = MNT_UDATA → does (.microWordAccess (some v))) ∧ (off = MNT_NADDR → does (.nanoAddrWrite v)) ∧ (off = MNT_NDATA 3 → does (.nanoWordLoad v)) ∧
    (off = MNT_DISP f → does (.dispatchEntryWrite f v)) ∧ (off = VLT_ATOM_CMD → v = 1 → does (.hostAtomicGo false)) ∧
    (off = ETH_PTP_OFS → does (.ptpOffsetWrite v)) ∧ (off = IC_EOI → v.toNat = x → does (.eoi x)) ∧ (off = IC_SRC x → does (.sourceConfigWrite x v)) ∧
    (off = HST_BATCH_DATA → does (.hstBatchDataWrite v))

/-- Part of R25–R30: the host batch. An entry goes in at HST_BATCH_ADDR, which moves on, or is dropped on overflow; GO is empty, busy, rejected, late or
taken; ABORT is in time or late; and at its boundary the entries act in order as register writes, those of a draft window later in the cycle. Rests in
part on choices of the model, log entries 2 and 61. -/
def Obligations.HostBatchCommands : Prop :=
  ∀ (s : State) (v : Word),
    let h := s.hst
    let a := s.get HST_BATCH_ADDR.offset
    let T := (s.rd64 HST_BATCH_TALLY).toNat
    let withHst (x : HostBatch) : State := { s with hst := x }
    (h.fill.length < 64 → exec (.hstBatchDataWrite v) s =
      .next ((withHst { h with fill := h.fill ++ [(4 * a, v)] }).set HST_BATCH_ADDR.offset (a + 1))) ∧
    (64 ≤ h.fill.length → exec (.hstBatchDataWrite v) s = .next ((withHst { h with overflow := true }).raise HST_BATCH_STAT.overflow)) ∧
    (∀ late, h.fill = [] → Nothing (.go late) s) ∧
    (∀ late, h.fill ≠ [] → h.pend.isSome = true → exec (.go late) s = .next (s.raise HST_BATCH_STAT.go_busy)) ∧
    (∀ late, h.fill ≠ [] → h.pend = none → h.overflow = true ∨ (∃ x ∈ h.fill, batchable x.1 = false) →
      exec (.go late) s = .next ((withHst { h with fill := [], overflow := false }).raise HST_BATCH_STAT.reject)) ∧
    (h.fill ≠ [] → h.pend = none → h.overflow = false → (∀ x ∈ h.fill, batchable x.1 = true) →
      (∀ late, s.tally + 2 ≤ T → exec (.go late) s = .next (withHst { h with fill := [], pend := some ⟨T, h.fill⟩ })) ∧
      (T ≤ s.tally + 1 →
        exec (.go false) s = .next { s.raise HST_BATCH_STAT.late with hst := { h with fill := [], pend := some ⟨s.tally + 2, h.fill⟩ } } ∧
        exec (.go true) s = .next { s.raise HST_BATCH_STAT.late with hst := { h with fill := [] } })) ∧
    (h.pend = none → exec .abort s = .next (withHst { h with fill := [], overflow := false })) ∧
    (∀ p, h.pend = some p → s.tally + 1 < p.tally → exec .abort s = .next (withHst { h with fill := [], overflow := false, pend := none })) ∧
    (∀ p, h.pend = some p → p.tally ≤ s.tally + 1 →
      exec .abort s = .next ((withHst { h with fill := [], overflow := false }).raise HST_BATCH_STAT.abort_late)) ∧
    (∀ p, h.pend = some p → p.tally ≤ s.tally → exec .batchApply s = .next
      ((p.entries.foldl (fun t x => if draftWindow x.1 then t.post t.tb.cyc (.registerWrite x.1 x.2) else busWrite x.1 x.2 t)
        (withHst { h with pend := none })).wr64 HST_BATCH_LAST (BitVec.ofNat 64 p.tally))) ∧
    (∀ p, h.pend = some p → s.tally < p.tally → Nothing .batchApply s) ∧
    (h.pend = none → Nothing .batchApply s)

/-- Part of R22, R34, R37–R41: the timebase's commands. At a boundary event 88 pulses and the per-Tally accounting restarts, once in its cycle. A rate
beyond ±2,000 ppm saturates; after a loss of lock GTB steps, in the next cycle and never back, to the held value advanced by the AON count. Rests in
part on choices of the model, log entry 2. -/
def Obligations.TimebaseCommands : Prop :=
  ∀ (s : State) (src : SlewOwner) (rate : Word),
    let own := s.get TB_CTRL.slew_src = match src with | .host => 0 | .ptp => 1 | .sloulo => 2
    let G := s.tb.gtb.toNat
    (exec .gtbLowRead s = .next { ((s.wr (TB_GTB + 4) (hiWord s.tb.gtb)).wr64 TB_TALLY (BitVec.ofNat 64 (G / 8000))) with read := [loWord s.tb.gtb] }) ∧
    (s.tb.boundary = false ∨ s.tb.boundaryDone = true → Nothing .tallyBoundary s) ∧
    (s.tb.boundary = true → s.tb.boundaryDone = false → Gives .tallyBoundary s (fun t =>
      88 ∈ t.pulses ∧ t.tb.boundaryDone = true ∧ t.vlt.pos = 0 ∧ t.vlt.use = Vector.replicate 8 0 ∧ t.tlr.busy = 0 ∧ t.tb.gtb = s.tb.gtb ∧ VaultKept s t)) ∧
    (¬ own → Nothing (.slewWrite src rate) s) ∧
    (own → -68719476 ≤ rate.toInt → rate.toInt ≤ 68719476 → exec (.slewWrite src rate) s = .next (s.wr TB_SLEW rate)) ∧
    (own → 68719476 < rate.toInt → exec (.slewWrite src rate) s = .next ((s.wr TB_SLEW (wordOfInt 68719476)).raise TB_STAT.slew_sat)) ∧
    (own → rate.toInt < -68719476 → exec (.slewWrite src rate) s = .next ((s.wr TB_SLEW (wordOfInt (-68719476))).raise TB_STAT.slew_sat)) ∧
    (s.flag TB_STAT.pll_lock = true → exec .pllLockLoss s =
      .next ((({ s.set TB_STAT.pll_lock 0 with tb := { s.tb with aon := 0 } } : State)).fault .pll)) ∧
    (s.wf = true → s.flag TB_STAT.pll_lock = false → s.flag FLT_BOOT.pll = true → s.get PWR_STAT.state ≠ 6 → Gives .pllRelock s (fun t =>
      let x : Time := BitVec.ofNat 64 (G + s.tb.aon.toNat * 1953125 / 8)
      let u := beginTime t
      t.tb = { s.tb with load := some (x, 3) } ∧ t.flag TB_STAT.pll_lock = true ∧ VaultKept s t ∧
      u.now = (if t.nextNow < x then x else t.nextNow) ∧ u.flag TB_STAT.noncont = true ∧ u.get TB_STAT.step_cause = 3 ∧ u.rd64 TB_RESUME_GTB = u.now)) ∧
    (s.wf = true → s.flag FLT_BOOT.pll = false → s.get PWR_STAT.state ≠ 5 → Gives .pllLock s (fun t =>
      t.tb.gtb = 0 ∧ t.tb.inc = 8 ∧ t.tb.boundary = true ∧ t.flag TB_STAT.pll_lock = true ∧ t.flag FLT_BOOT.pll = true ∧ VaultKept s t))

/-- Part of R42–R53, R55: a counter's commands. A compare value written, or a disarm, takes effect at the end of its cycle, with the late test against the
count there. A write of the control word restarts the divider when it changes the source, the divider, the selection or the edge, or starts the
counter, and clears the count with zero_on_go; angle ticks are counted on from the angle at the end of the cycle. A stopped counter takes a value,
with the late test on its armed compares. A compare that is due ends, reports, and asks for its actions, and no other counter or compare changes. The
capture queue gives its oldest entry. Rests in part on choices of the model, log entries 2 and 60. -/
def Obligations.CounterCommands : Prop :=
  ∀ (s : State) (n : Fin 32) (k : Fin 4) (v : Word), s.wf = true →
    let cnt (f : Counter → Counter) (s : State) : State := { s with cnt := vmod s.cnt n f }
    let nxt (x : Option Word) (c : Counter) : Counter := { c with cmp := vmod c.cmp k fun y => { y with nxt := some x } }
    let ended (u : State) : Compare := (((endCounters u).cnt[n]).cmp)[k]
    let t := s.plainWrite (CNT_CTRL n) v
    let same := ((s.rd (CNT_CTRL n) ^^^ t.rd (CNT_CTRL n)) &&& 0xFFFFFFCE) = 0
    let starts := t.flag (CNT_CTRL.run n) = true ∧ s.flag (CNT_CTRL.run n) = false
    let restart (c : Counter) : Counter := { c with divPhase := 0, theta := none }
    let count := (s.rd (CNT_VAL n)).toNat
    (Gives (.compareWrite n k v) s fun u => u = cnt (nxt (some v)) (s.wr (CNT_CMP n k) v) ∧
      ended u = ⟨some (v, decide (2 ^ 31 ≤ (v - s.rd (CNT_VAL n)).toNat)), none⟩) ∧
    (Gives (.compareDisarm n k) s fun u => u = cnt (nxt none) s ∧ ended u = ⟨none, none⟩) ∧
    (Gives (.counterCtrlWrite n v) s fun u =>
      (starts → u = cnt restart (if t.flag (CNT_CTRL.zero_on_go n) then t.wr (CNT_VAL n) 0 else t)) ∧
      (¬ starts → u = if same then t else cnt restart t) ∧
      (starts ∨ ¬ same → u.get (CNT_CTRL.src n) = 2 → ∀ d : Fin 8, d = Fin.ofNat 8 (u.get (CNT_CTRL.sel n)) →
        ((endCounters u).cnt[n]).theta = if u.tracking d then some (u.liveTheta d) else none)) ∧
    (s.flag (CNT_CTRL.run n) = true → exec (.counterValueWrite n v) s = .next (s.raise (CNT_STAT.wr_ignored n))) ∧
    (s.flag (CNT_CTRL.run n) = false → exec (.counterValueWrite n v) s = .next (cnt (fun c => { c with cmp := c.cmp.map fun y =>
      { y with cur := y.cur.map fun (w, l) => (w, l || decide (2 ^ 31 ≤ (w - v).toNat)) } }) (s.wr (CNT_VAL n) v))) ∧
    (count = 2 ^ 32 - 1 → fieldOf (s.cnt[n]).ctlPrev (CNT_CTRL.run n) = 1 →
      exec (.counterWrap n) s = .next ((s.wr (CNT_VAL n) 0).raise (CNT_STAT.wrap n))) ∧
    (count ≠ 2 ^ 32 - 1 ∨ fieldOf (s.cnt[n]).ctlPrev (CNT_CTRL.run n) ≠ 1 → Nothing (.counterWrap n) s) ∧
    (∀ c l, ((s.cnt[n]).cmp[k]).cur = some (c, l) → (c.toNat = count ∨ 2 ^ 31 ≤ (c - s.rd (CNT_VAL n)).toNat) →
      Gives (.counterMatch n k) s (fun u => ((u.cnt[n]).cmp[k]).cur = none ∧ (∀ m : Fin 32, u.rd (CNT_VAL m) = s.rd (CNT_VAL m)) ∧
        (∀ (m : Fin 32) (j : Fin 4), m ≠ n ∨ j ≠ k → (u.cnt[m]).cmp[j] = (s.cnt[m]).cmp[j]) ∧ u.fct = s.fct ∧ VaultKept s u ∧
        u.flag (bitFld (CNT_STAT n) k) = true ∧ u.flag (bitFld (CNT_STAT n) (4 + k)) = (l || s.flag (bitFld (CNT_STAT n) (4 + k))) ∧
        (s.flag (CNT_CMPCTL.evt n k) = true → n.val ∈ u.pulses) ∧ (s.flag (CNT_CMPCTL.evt n k) = false → u.pulses = s.pulses) ∧
        (s.flag (CNT_CMPCTL.svc n k) = true → s.flag (CNT_BIND.en n) = true → (s.cnt[n]).raised = false →
          u.flag (bitFld (TLR_CH_PEND (chanOf (s.get (CNT_BIND.channel n)))) 6) = true) ∧
        u.pinActs = s.pinActs ++ if s.get (CNT_CMPCTL.pin_act n k) = 0 then []
          else [⟨n, k, Fin.ofNat 256 (s.get (CNT_CMPCTL.facet n k)), BitVec.ofNat 2 (s.get (CNT_CMPCTL.pin_act n k))⟩])) ∧
    (((s.cnt[n]).cmp[k]).cur = none → Nothing (.counterMatch n k) s) ∧
    (∀ c l, ((s.cnt[n]).cmp[k]).cur = some (c, l) → c.toNat ≠ count → (c - s.rd (CNT_VAL n)).toNat < 2 ^ 31 → Nothing (.counterMatch n k) s) ∧
    ((s.cnt[n]).caps = [] → exec (.counterCapturePop n) s =
      .next { (s.wr (CNT_CAP_TIME n + 4) 0xFFFFFFFF).wr (CNT_CAP_VAL n) 0 with read := [0xFFFFFFFF] }) ∧
    (∀ c l, (s.cnt[n]).caps = c :: l → exec (.counterCapturePop n) s = .next
      { ((cnt (fun x => { x with caps := l }) s).wr (CNT_CAP_TIME n + 4) (hiWord c.time)).wr (CNT_CAP_VAL n) c.count with read := [loWord c.time] }) ∧
    exec (.clrDrops n) s = .next (s.set (CNT_CAP_CTRL.drops n) 0)

/-- R56–R58: GBL_GO and GBL_HALT set and clear run for the counters of the mask and for no other; a release armed by GBL_GO_AT does the same at its
boundary. In a cycle in which both act on a counter the GO applies. Arming, cancelling and receiving a release, and the notices that come back. Rests
in part on choices of the model, log entry 3. -/
def Obligations.GoAndHalt : Prop :=
  ∀ (s : State) (m : Word) (node : Fin 64) (tally : Dword), s.wf = true →
    let T := (s.rd64 GBL_GO_AT_TALLY).toNat
    let R := tally.toNat
    let arms (q : GoAtReq) (s : State) : State := ({ s with goAt := some q }).raise GBL_GO_AT_STAT.pending
    let drops : State := ({ s with goAt := none }).set GBL_GO_AT_STAT.pending 0
    let run (t : State) (n : Fin 32) : Bool := t.flag (CNT_CTRL.run n)
    let starts (m : Word) (t : State) : Prop := (∀ n : Fin 32, run t n = (m.getLsbD n || run s n)) ∧
      (∀ n : Fin 32, (m.getLsbD n = true → run s n = false → s.haltNow.getLsbD n = false → s.flag (CNT_CTRL.zero_on_go n) = true →
        t.rd (CNT_VAL n) = 0) ∧ (m.getLsbD n = false ∨ run s n = true ∨ s.haltNow.getLsbD n = true ∨ s.flag (CNT_CTRL.zero_on_go n) = false →
        t.rd (CNT_VAL n) = s.rd (CNT_VAL n))) ∧ VaultKept s t
    Gives (.gblGo m) s (starts m) ∧
    Gives (.gblHalt m) s (fun t => (∀ n : Fin 32, run t n = (run s n && !(m.getLsbD n && !s.goNow.getLsbD n))) ∧
      (∀ n : Fin 32, t.rd (CNT_VAL n) = s.rd (CNT_VAL n)) ∧ VaultKept s t) ∧
    (∀ q, s.goAt = some q → s.tb.boundary = true → q.tally ≤ s.tally →
      Gives .goAtRelease s (fun t => starts q.mask t ∧ t.goAt = none ∧ t.flag GBL_GO_AT_STAT.done' = true ∧ t.flag GBL_GO_AT_STAT.pending = false)) ∧
    (s.goAt.isSome = true → exec .goAtArm s = .next (s.raise GBL_GO_AT_STAT.busy)) ∧
    (s.goAt = none → T ≤ s.tally + 1 → exec .goAtArm s = .next (s.raise GBL_GO_AT_STAT.late)) ∧
    (s.goAt = none → s.tally + 2 ≤ T → s.flag GBL_GO_AT_CTRL.fabric = false → exec .goAtArm s = .next (arms ⟨s.rd GBL_GO_AT_MASK, T, none, false⟩ s)) ∧
    (s.goAt = none → Nothing .goAtCancel s) ∧
    (∀ q, s.goAt = some q → s.tally < q.tally → q.fabric = false → exec .goAtCancel s = .next drops) ∧
    (∀ q, s.goAt = some q → q.tally ≤ s.tally → Nothing .goAtCancel s) ∧
    (s.flag GBL_GO_AT_CTRL.accept_remote = true → s.goAt = none → s.tally + 2 ≤ R →
      exec (.goatReceive node false tally) s = .next (arms ⟨s.rd GBL_GO_AT_MASK, R, some node, false⟩ s)) ∧
    (s.flag GBL_GO_AT_CTRL.accept_remote = false → exec (.goatReceive node false tally) s = .next (sendNotice node .refused tally s)) ∧
    (s.flag GBL_GO_AT_CTRL.accept_remote = true → s.goAt.isSome = true →
      exec (.goatReceive node false tally) s = .next (sendNotice node .busy tally (s.raise GBL_GO_AT_STAT.busy))) ∧
    (s.flag GBL_GO_AT_CTRL.accept_remote = true → s.goAt = none → R ≤ s.tally + 1 →
      exec (.goatReceive node false tally) s = .next (sendNotice node .late tally (s.raise GBL_GO_AT_STAT.late))) ∧
    (s.goDone = some (node, R) → exec (.goatReceive node true tally) s = .next (sendNotice node .cancelLate tally s)) ∧
    (∀ q, s.goDone ≠ some (node, R) → s.goAt = some q → q.remote = some node → q.tally = R →
      (s.tally + 1 < R → exec (.goatReceive node true tally) s = .next drops) ∧
      (R ≤ s.tally + 1 → exec (.goatReceive node true tally) s = .next (sendNotice node .cancelLate tally s))) ∧
    (s.goDone ≠ some (node, R) → s.goAt = none → Nothing (.goatReceive node true tally) s) ∧
    exec (.noticeReceive .refused) s = .next (s.raise GBL_GO_AT_STAT.remote_refused) ∧
    exec (.noticeReceive .late) s = .next (s.raise GBL_GO_AT_STAT.remote_late) ∧
    exec (.noticeReceive .busy) s = .next (s.raise GBL_GO_AT_STAT.remote_late) ∧
    exec (.noticeReceive .cancelLate) s = .next (s.raise GBL_GO_AT_STAT.remote_late)

/-! ### Facets and wheel inputs (spec/03, spec/04) -/

/-- Part of R61, R62, R68, R132: an entry arrives at a facet. It takes its place after every entry of an earlier or equal time; a facet that was no output
at the start of the cycle, or that has been held since, drops it with `blocked`; with four places taken a LATE_DROP entry is discarded and a LATE_FIRE
one acts in the next cycle. The entry of a draft that is no longer ARMED is nothing. A push of FCT_SCHED_CMD is the arrival of its fields. Rests in
part on choices of the model, log entry 15. -/
def Obligations.ArmedEntriesArrive : Prop :=
  ∀ (s : State) (n : Fin 256) (x : ArmSpec) (v : Word),
    let f := s.fct[n]
    let a : Armed := ⟨x.time.getD s.nextNow, x.act, x.drop, x.tag, x.notify, x.origin, false⟩
    let open' := f.wasOut = true ∧ (f.frozen = false ∨ s.held n = false)
    let t := s.plainWrite (FCT_SCHED_CMD n) v
    (x.origin = none → open' → f.queue.length + f.freed < 4 → Gives (.armedEntryArrival n x) s (fun u =>
      u = { s with fct := u.fct } ∧ (∀ m : Fin 256, m ≠ n → u.fct[m] = s.fct[m]) ∧ ∃ l r, f.queue = l ++ r ∧ u.fct[n] = { f with queue := l ++ a :: r } ∧
        (∀ b ∈ l, b.time.toNat ≤ a.time.toNat) ∧ (∀ b, r.head? = some b → a.time.toNat < b.time.toNat))) ∧
    (x.origin = none → ¬ open' → exec (.armedEntryArrival n x) s = .next (s.raise (FCT_STAT.blocked n))) ∧
    (x.origin = none → open' → 4 ≤ f.queue.length + f.freed → s.wf = true → Gives (.armedEntryArrival n x) s (fun u =>
      u.flag (FCT_STAT.late n) = true ∧ u.flag (FCT_STAT.qfull n) = true ∧ (u.fct[n]).queue = f.queue ∧
      (x.drop = true → u.flag (FCT_STAT.late_drop n) = true ∧ u.fct = s.fct) ∧
      (x.drop = false → (u.fct[n]).lateNext = f.lateNext ++ [a]))) ∧
    (∀ d i, x.origin = some (d, i) → (s.draft d i).status ≠ .armed → Nothing (.armedEntryArrival n x) s) ∧
    (fieldOf v (FCT_SCHED_CMD.push n) = 0 → exec (.schedPush n v) s = .next t) ∧
    (fieldOf v (FCT_SCHED_CMD.push n) ≠ 0 → exec (.schedPush n v) s = exec (.armedEntryArrival n
      ⟨if t.flag (FCT_SCHED_CMD.now n) then none else some (t.rd64 (FCT_SCHED_TIME n)), BitVec.ofNat 2 (t.get (FCT_SCHED_CMD.act n)),
        t.flag (FCT_SCHED_CMD.policy n), BitVec.ofNat 8 (t.get (FCT_SCHED_CMD.tag n)), t.flag (FCT_SCHED_CMD.notify n), none⟩) t)

/-- Part of R63–R66, R68: the one entry of the queue that acts in this cycle leaves it. On time it acts at its phase and sets match; behind, it sets late,
and LATE_DROP discards it where LATE_FIRE acts at phase 0. A change back at the time of the change before leaves no pulse; the place stays taken until
the next cycle. Rests in part on choices of the model, log entry 15. -/
def Obligations.FacetCompareActs : Prop :=
  ∀ (s : State) (n : Fin 256) (a : Armed), s.wf = true → (s.fct[n]).queue.filter s.actsNow = [a] → (s.fct[n]).lateNow = [] →
    let f := s.fct[n]
    let d := ((a.time - s.now).toNat) % 2 ^ 40
    let level := if a.act = 1 then true else if a.act = 2 then false else if a.act = 3 then !f.out else f.out
    let changes (t : Time) : List (Time × Bool) := if level = f.out then f.edges
      else if (f.edges.getLast?.map (·.1)) = some t then f.edges.dropLast else f.edges ++ [(t, level)]
    Gives (.facetCompareMatch n) s (fun u =>
      (u.fct[n]).queue = f.queue.filter (fun b => !s.actsNow b) ∧ (u.fct[n]).freed = f.freed + 1 ∧ (u.fct[n]).hold = f.hold ∧ (u.fct[n]).caps = f.caps ∧ (u.fct[n]).inp = f.inp ∧
      (∀ m : Fin 256, m ≠ n → u.fct[m] = s.fct[m]) ∧ VaultKept s u ∧
      (d < s.tb.inc → (u.fct[n]).out = level ∧ u.flag (FCT_STAT.match' n) = true ∧
        (u.fct[n]).edges = changes (s.now + BitVec.ofNat 64 (min d 7))) ∧
      (s.tb.inc ≤ d → u.flag (FCT_STAT.late n) = true ∧ (u.fct[n]).out = (if a.drop then f.out else level) ∧
        (u.fct[n]).edges = (if a.drop then f.edges else changes s.now) ∧ (a.drop = true → u.flag (FCT_STAT.late_drop n) = true)))

/-- Part of R69, R72, R74, R465: cancel, flush, and the facet's own hold. What acts in this very cycle stays; of the rest a cancel removes the entries of
its tag and a flush every one. A hold flushes, and its end loads the output register from safe_lvl when no other hold remains. Rests in part on
choices of the model, log entry 15. -/
def Obligations.FacetQueueAndHold : Prop :=
  ∀ (s : State) (n : Fin 256) (tag : Byte), s.wf = true →
    let f := s.fct[n]
    let others (u : State) : Prop := (∀ m : Fin 256, m ≠ n → u.fct[m] = s.fct[m]) ∧ VaultKept s u ∧ u.tb = s.tb
    Gives (.facetCancel n tag) s (fun u => others u ∧ (u.fct[n]).queue = f.queue.filter (fun b => b.tag != tag || s.actsNow b) ∧ (u.fct[n]).out = f.out) ∧
    Gives (.facetFlush n) s (fun u => others u ∧ (u.fct[n]).queue = f.queue.filter s.actsNow ∧ (u.fct[n]).out = f.out ∧
      ((∃ b ∈ f.queue, s.actsNow b = false) → u.flag (FCT_STAT.flushed n) = true)) ∧
    Gives (.facetSafe n) s (fun u => others u ∧ (u.fct[n]).hold = true ∧ u.held n = true ∧ (u.fct[n]).out = f.out ∧
      (s.held n = false → (u.fct[n]).queue = f.queue.filter s.actsNow ∧ (u.fct[n]).purge = true) ∧ (s.held n = true → (u.fct[n]).queue = f.queue)) ∧
    (f.hold = true → Gives (.facetRelease n) s (fun u => others u ∧ u.regs = s.regs ∧ u.fct[n] =
      { f with hold := false, out := if s.flag FCT_GSAFE.held || s.parkHold then f.out else decide (s.get (FCT_CTRL.safe_lvl n) = 1) })) ∧
    (f.hold = false → Nothing (.facetRelease n) s)

/-- Part of R70–R75: SAFE_N and the global hold. While SAFE_N is low every output pad is at its safe level, unless io_hold keeps the levels that Deep Park
latched. SAFE_N is synchronised while the clock runs. After the rise the hold ends in the next cycle with latch = 0, or by a release; a release is
ignored while SAFE_N is low. Rests in part on choices of the model, log entries 15 and 17. -/
def Obligations.SafeStates : Prop :=
  ∀ s : State, s.wf = true →
    let safe (u : State) (n : Fin 256) : Option Bool := match u.get (FCT_CTRL.safe_lvl n) with | 0 => some false | 1 => some true | _ => none
    Gives .safeNFall s (fun u => u.safeN = false ∧ u.flag FCT_GSAFE.safe_n = false ∧
      (s.flag TB_STAT.pll_lock = true → u.flag FCT_GSAFE.held = true ∧ u.flag FCT_GSAFE.seen = true ∧
        (s.flag FCT_GSAFE.held = false → ∀ n : Fin 256, (u.fct[n]).queue = (s.fct[n]).queue.filter s.actsNow)) ∧
      (s.flag TB_STAT.pll_lock = false → u = { (s.set FCT_GSAFE.safe_n 0) with safeN := false }) ∧
      (s.flag FCT_GSAFE.io_hold = false → ∀ n : Fin 256, u.fctOutput n = true → u.padDrive n (u.fct[n]).out = safe u n) ∧ VaultKept s u) ∧
    exec .safeNRise s = .next (({ s with safeN := true }).raise FCT_GSAFE.safe_n) ∧
    (s.flag FCT_GSAFE.held = true → s.flag FCT_GSAFE.safe_n = true → s.flag FCT_GSAFE.latch = false → exec .globalSafeRelease s = .next (globalHoldCycle s)) ∧
    (s.flag FCT_GSAFE.held = false ∨ s.flag FCT_GSAFE.safe_n = false ∨ s.flag FCT_GSAFE.latch = true → globalHoldCycle s = s) ∧
    (s.flag FCT_GSAFE.safe_n = true → Gives .globalSafeRelease s (fun u => u.flag FCT_GSAFE.held = false ∧ OnlyRegs [FCT_GSAFE] s u ∧ VaultKept s u ∧
      ∀ n : Fin 256, (u.fct[n]).queue = (s.fct[n]).queue ∧ (u.fct[n]).hold = (s.fct[n]).hold ∧
        (u.fct[n]).out = if s.flag FCT_GSAFE.held = true ∧ s.parkHold = false ∧ (s.fct[n]).hold = false then decide (s.get (FCT_CTRL.safe_lvl n) = 1) else (s.fct[n]).out)) ∧
    (s.flag FCT_GSAFE.safe_n = false → Nothing .globalSafeRelease s) ∧
    exec .safeLock s = .next (s.raise FCT_GSAFE.lock) ∧
    exec .ioRelease s = .next (s.set FCT_GSAFE.io_hold 0)

/-- Part of R76, R79–R82, R83, R92, R464: a transition whose acceptance is due is the accepted level. The limiter judges it: muted it does nothing more,
one too many in its Tally begins a mute, and an accepted one is a capture of the selected polarity at its own time. Rests in part on choices of the
model, log entry 2. -/
def Obligations.EdgesAccepted : Prop :=
  ∀ (s : State) (n : Fin 256) (w : Fin 8) (x : Flight),
    let p := (s.fct[n]).inp
    let k := tallyOf x.time
    let seen := if p.limTally = k then p.limCount else 0
    let max' := s.get (FCT_RATE.max n)
    let due := p.dueFlight s.tb.cyc = some x
    let judged := x.silent = false ∧ ¬ (p.muteNow = true ∧ p.muteLatched = true) ∧ p.muteUntil ≤ k
    let taken (f : Facet) : Facet := { f with inp := { f.inp with flight := f.inp.flight.drop 1 }.setLevel s.tb.boundary x.level }
    (due → x.silent = true ∨ (p.muteNow = true ∧ p.muteLatched = true) ∨ k < p.muteUntil → exec (.edgeAccept n) s = .next { s with fct := vmod s.fct n taken }) ∧
    (due → judged → max' = 0 ∨ seen < max' → s.wf = true → Gives (.edgeAccept n) s (fun u => (u.fct[n]).inp.filt = x.level ∧ (u.fct[n]).inp.flight = p.flight.drop 1 ∧
        (max' ≠ 0 → (u.fct[n]).inp.limTally = k ∧ (u.fct[n]).inp.limCount = seen + 1) ∧ (u.fct[n]).inp.muteNow = p.muteNow ∧
        (u.fct[n]).fresh = (s.fct[n]).fresh ++
          (if (s.get (FCT_CTRL.cap_edge n)).testBit (if x.level then 0 else 1) then [⟨x.time, x.level⟩] else []) ∧ (u.fct[n]).out = (s.fct[n]).out ∧ VaultKept s u)) ∧
    (due → judged → max' ≠ 0 → max' ≤ seen → s.wf = true → Gives (.edgeAccept n) s (fun u => u.flag (FCT_STAT.muted n) = true ∧ VaultKept s u ∧
        u.get (FCT_RATE.mute_cnt n) = min (s.get (FCT_RATE.mute_cnt n) + 1) 65535 ∧ (u.fct[n]).fresh = (s.fct[n]).fresh ∧
        (u.fct[n]).inp = { (taken s.fct[n]).inp with
          limTally := k, limCount := seen, muteLatched := s.flag (FCT_RATE.latch n),
          muteUntil := if s.flag (FCT_RATE.latch n) then 0 else k + s.get (FCT_RATE.hold n) + 1,
          muteNow := s.flag (FCT_RATE.latch n) || decide (s.tally < k + s.get (FCT_RATE.hold n) + 1) })) ∧
    (p.dueFlight s.tb.cyc = none → Nothing (.edgeAccept n) s) ∧
    ((s.whl[w]).inp.dueFlight s.tb.cyc = some x → Gives (.whlEdgeAccept w) s (fun u => (u.whl[w]).inp.filt = x.level ∧
      (u.whl[w]).inp.flight = (s.whl[w]).inp.flight.drop 1 ∧ (∀ m : Fin 8, m ≠ w → u.whl[m] = s.whl[m]) ∧ u.fct = s.fct ∧ VaultKept s u)) ∧
    ((s.whl[w]).inp.dueFlight s.tb.cyc = none → Nothing (.whlEdgeAccept w) s)

/-- Part of R76–R82, R84–R88, R91, R92, R110: the inputs' other commands: mutes, the stuck detector, the writes of their registers, the capture queue as
the host and a commit take from it, counts cleared, a pad that changes, and the signal of a wheel input: a Hall input's level, a VR input's timing
edges and peak. Rests in part on choices of the model, log entries 2, 13 and 59. -/
def Obligations.InputCommands : Prop :=
  ∀ (s : State) (n : Fin 256) (w : Fin 8) (m : Fin 32) (v : Word) (k : Nat),
    let f := s.fct[n]
    let fct (g : Facet → Facet) (s : State) : State := { s with fct := vmod s.fct n g }
    let whl (g : Wheel → Wheel) (s : State) : State := { s with whl := vmod s.whl w g }
    let stuckRegs (s : State) : Nat × Nat := (s.get (FCT_FILT.stuck_lim n), s.get (FCT_FILT.stuck_lvl n))
    let tf := s.plainWrite (FCT_FILT n) v
    let tr := s.plainWrite (FCT_RATE n) v
    (f.inp.muteNow = true → f.inp.muteLatched = false → f.inp.muteUntil ≤ s.tally →
      exec (.muteEnd n) s = .next (fct (fun f => { f with inp := { f.inp with muteNow := false } }) s)) ∧
    (f.inp.muteNow = false ∨ f.inp.muteLatched = true ∨ s.tally < f.inp.muteUntil → Nothing (.muteEnd n) s) ∧
    (f.inp.muteNow = false ∨ f.inp.muteLatched = false → Nothing (.facetUnmute n) s) ∧
    (f.inp.muteNow = true → f.inp.muteLatched = true → exec (.facetUnmute n) s = .next (fct (fun f => { f with inp := f.inp.endMute }) s)) ∧
    ((s.whl[w]).inp.muteNow = true → (s.whl[w]).inp.muteLatched = false → (s.whl[w]).inp.muteUntil ≤ s.tally →
      exec (.whlMuteEnd w) s = .next (whl (fun x => { x with inp := { x.inp with muteNow := false } }) s)) ∧
    ((s.whl[w]).inp.muteNow = true → (s.whl[w]).inp.muteLatched = true →
      exec (.whlUnmute w) s = .next (whl (fun x => { x with inp := x.inp.endMute }) s)) ∧
    (s.get (FCT_CTRL.mode n) ≠ 0 → 0 < s.get (FCT_FILT.stuck_lim n) → s.get (FCT_FILT.stuck_lim n) ≤ f.inp.stuckCount → f.inp.stuckFired = false → s.wf = true →
      Gives (.stuckDetect n) s (fun u => u.flag (FCT_STAT.stuck n) = true ∧ (u.fct[n]).inp = { f.inp with stuckFired := true } ∧ VaultKept s u)) ∧
    (f.inp.stuckFired = true → Nothing (.stuckDetect n) s) ∧
    exec (.filtWrite n v) s = .next (if stuckRegs tf = stuckRegs s then tf else fct (fun f => { f with inp := f.inp.stuckRestart }) tf) ∧
    exec (.rateWrite n v) s = .next (if tr.get (FCT_RATE.max n) = 0 then fct (fun f => { f with inp := f.inp.endMute }) tr else tr) ∧
    (let t := s.plainWrite (FCT_CTRL n) v
     (t.get (FCT_CTRL.mode n) = s.get (FCT_CTRL.mode n) → exec (.facetCtrlWrite n v) s = .next t) ∧
     (t.get (FCT_CTRL.mode n) ≠ s.get (FCT_CTRL.mode n) → Gives (.facetCtrlWrite n v) s (fun u =>
       (u.fct[n]).queue = f.queue.filter s.actsNow ∧ (u.fct[n]).purge = true ∧ (u.fct[n]).caps = f.caps ∧
       (u.fct[n]).out = f.out ∧ (u.fct[n]).hold = f.hold ∧ (∀ j : Fin 256, j ≠ n → u.fct[j] = s.fct[j]) ∧ VaultKept s u ∧
       (u.fct[n]).inp = if s.get (FCT_CTRL.mode n) = 0 then { f.inp with starting := true, flight := [], run := none }
         else if t.get (FCT_CTRL.mode n) = 0 then { InPath.reset with
           limTally := f.inp.limTally, limCount := f.inp.limCount, muteNow := f.inp.muteNow,
           muteLatched := f.inp.muteLatched, muteUntil := f.inp.muteUntil, past := f.inp.past } else f.inp))) ∧
    (f.caps = [] → exec (.capturePop n) s = .next { ((s.wr (FCT_CAP_TIME n + 4) 0xFFFFFFFF).set (FCT_CAP_INFO.valid n) 0) with read := [0xFFFFFFFF] }) ∧
    (∀ c l, f.caps = c :: l → exec (.capturePop n) s = .next
      { ((((if s.flag (FCT_CTRL.cap_owner n) then s else fct (fun f => { f with caps := l }) s).wr (FCT_CAP_TIME n + 4) (hiWord c.time)).raise
          (FCT_CAP_INFO.valid n)).set (FCT_CAP_INFO.pol n) c.rising.toNat) with read := [loWord c.time] }) ∧
    exec (.captureRemoval (.facet n) k) s = .next (fct (fun f => { f with caps := f.caps.drop k }) s) ∧
    exec (.captureRemoval (.counter m) k) s = .next { s with cnt := vmod s.cnt m fun c => { c with caps := c.caps.drop k } } ∧
    exec (.capClear n) s = .next (fct (fun f => { f with caps := [] }) s) ∧
    exec (.facetClrCounts n) s = .next ((s.set (FCT_CAP_INFO.drops n) 0).set (FCT_RATE.mute_cnt n) 0) ∧
    exec (.whlClrCounts w) s = .next (s.set (WHL_RATE.mute_cnt w) 0) ∧
    (∀ (l : Option Bool) (ph : Fin 8), exec (.padTransition (.facet n l) ph) s =
      .next (fct (fun f => { f with ext := l, moves := f.moves ++ [(s.now + BitVec.ofNat 64 ph, f.ext)] }) s)) ∧
    (∀ (mv : Int) (ph : Fin 8),
      let x := s.whl[w]
      let t := s.now + BitVec.ofNat 64 ph
      let dc (y : Int) : Option Time := if 2000 < y.natAbs then x.dcFrom <|> some t else none
      let lvl := if 2000 ≤ mv then true else if mv ≤ 800 then false else x.ext
      let marked (b : Bool) : InPath := if b = x.ext then x.inp else { x.inp with first := x.inp.first <|> some t }
      let y : Int := max (-4500) (min 4500 mv)
      let rising := s.flag (WHL_CFG.vr_pol w)
      let th : Int := 10 * max (s.get (WHL_CFG.min_thr w)) (s.get (WHL_CFG.thr_frac w) * s.get (WHL_STAT.peak w) / 256)
      let crosses := if rising = true then x.volts < 0 ∧ 0 ≤ y else 0 < x.volts ∧ y ≤ 0
      let arms := if rising = true then y < -th else th < y
      (s.get (WHL_CFG.mode w) ≠ 1 → s.get (WHL_CFG.mode w) ≠ 2 →
        exec (.padTransition (.whl w mv) ph) s = .next (whl (fun x => { x with dcFrom := dc mv, volts := mv }) s)) ∧
      (s.get (WHL_CFG.mode w) = 2 →
        exec (.padTransition (.whl w mv) ph) s = .next (whl (fun x => { x with dcFrom := dc mv, volts := mv, ext := lvl, inp := marked lvl }) s)) ∧
      (s.get (WHL_CFG.mode w) = 1 → crosses → x.armed = true → exec (.padTransition (.whl w mv) ph) s =
        .next (whl (fun x => { x with dcFrom := dc y, volts := y, armed := false, top := some y.natAbs, ext := true, peakTally := tallyOf t, inp := marked true })
          (match x.top with | some p => s.set (WHL_STAT.peak w) (min (p / 10) 65535) | none => s))) ∧
      (s.get (WHL_CFG.mode w) = 1 → ¬ (crosses ∧ x.armed = true) → exec (.padTransition (.whl w mv) ph) s =
        .next (whl (fun x => { x with
          dcFrom := dc y, volts := y, armed := x.armed || decide arms, top := x.top.map (max y.natAbs),
          ext := x.ext && !decide arms, inp := marked (x.ext && !decide arms) }) s)))

/-! ### The Bezel: domains, drafts, mirrors (spec/04, spec/05) -/

/-- Part of R96–R104, R109, R114, R116 (T8, T9, T10, T13, T18): decisions of a local domain on the oldest waiting edge: a forward edge in SYNC within its
window advances the domain by a slot, one outside it is a violation and LOST; a reverse edge takes SYNC to REVERSE and GAP_FOUND to SEEK; a LOST
domain that seeks again starts at the edge. Leaving SYNC withdraws every draft. A secondary edge in SYNC that matches an entry gives the cam phase;
one that matches none sets cam_err. A decision takes over the settings as they stand. Rests in part on choices of the model, log entries 2 and 32. -/
def Obligations.WheelDecisions : Prop :=
  ∀ (s : State) (d : Fin 8) (t : Time) (back : Bool) (l : List PriEdge) (w : Fin 4) (rising : Bool), s.wf = true → d.val < 4 →
    let x := s.bzl[d]
    let T := t.toNat - (x.lastPri.getD t).toNat
    let j := s.nextSlot d x.slot
    let P := match x.pred with | some p => p.p | none => 0
    let now := takeSettings d s
    let ends (u : State) : Prop := (u.bzl[d]).priIn = l ∧ u.rd64 (BZL_EDGE_TIME d) = t ∧ VaultKept s u ∧ (u.bzl[d]).cfg = (now.bzl[d]).cfg
    let noDraft (u : State) : Prop := ∀ i, (u.draft d i).status ≠ .draft
    let first : Prop := x.priIn = ⟨t, some back⟩ :: l
    (x.priIn = [] → s.tracking d = false → Nothing (.primaryEdgeDecision d) s) ∧
    (first → back = false → s.dState d = stSync → s.heldBack d t = false → inWindow (now.window d j) T P 1 = true →
      Gives (.primaryEdgeDecision d) s (fun u => ends u ∧ u.dState d = stSync ∧ (u.bzl[d]).slot = j ∧ (u.bzl[d]).tK = t ∧
        u.flag (BZL_STATE.dir d) = false)) ∧
    (first → back = false → s.dState d = stSync → s.heldBack d t = false → inWindow (now.window d j) T P 1 = false →
      Gives (.primaryEdgeDecision d) s (fun u => ends u ∧ u.dState d = stLost ∧ u.flag (BZL_FLAGS.violation d) = true ∧ noDraft u)) ∧
    (first → back = true → s.dState d = stSync → s.heldBack d t = false → (∀ b, x.lastPri = some b → 3200 ≤ t.toNat - b.toNat) →
      Gives (.primaryEdgeDecision d) s (fun u => ends u ∧ u.dState d = stReverse ∧ u.get (BZL_STATE.dir d) = 1 ∧ noDraft u)) ∧
    (first → back = true → s.dState d = stGap → s.heldBack d t = false →
      Gives (.primaryEdgeDecision d) s (fun u => ends u ∧ u.dState d = stSeek ∧ u.flag (BZL_STATE.pos_valid d) = false ∧ (u.bzl[d]).search.last = some t)) ∧
    (first → s.dState d = stLost → now.syncFlag d (BZL_SYNC.auto_reseek d) = true →
      Gives (.primaryEdgeDecision d) s (fun u => ends u ∧ u.dState d = stSeek ∧ (u.bzl[d]).search.last = some t)) ∧
    (first → s.dState d = stLost → now.syncFlag d (BZL_SYNC.auto_reseek d) = false →
      Gives (.primaryEdgeDecision d) s (fun u => (u.bzl[d]).priIn = l ∧ u.dState d = stLost)) ∧
    (x.nextSec = none → s.tracking d = false → Nothing (.secondaryEdgeDecision d) s) ∧
    (∀ th k ph, x.nextSec = some ⟨w, t, rising⟩ → s.dState d = stSync → placeAu s d t = some th → camMatch s d w rising th = some (k, ph) →
      Gives (.secondaryEdgeDecision d) s (fun u => u.rd (BZL_CAM_LAST d w) = wordOfInt ph ∧ u.rd64 (BZL_CAM_TIME d w) = t ∧
        u.get (BZL_CAM_INFO.idx d w) = k % 64 ∧ u.dState d = stSync ∧ (w = 0 → u.flag (BZL_STATE.cam_track d) = true))) ∧
    (∀ th, x.nextSec = some ⟨w, t, rising⟩ → w ≠ 0 → s.dState d = stSync → placeAu s d t = some th → camMatch s d w rising th = none →
      Gives (.secondaryEdgeDecision d) s (fun u => u.flag (BZL_FLAGS.cam_err d) = true ∧ u.dState d = stSync))

/-- Part of R81, R91, R99, R105–R107, R110 (T8, T11, T12, T23): what time and the stuck detectors bring: an overdue edge loses the primary wheel, to SEEK
from GAP_FOUND, and from SYNC to LIMP_CAM where limp is enabled and the cam tracks, else to STALL; a kept position expires; a limp watch begins; a WHL
input is stuck; a VR peak is too old. Rests in part on choices of the model, log entries 2, 13 and 32. -/
def Obligations.TimedOutDomains : Prop :=
  ∀ (s : State) (d n : Fin 8), s.wf = true → d.val < 4 →
    let limp := s.syncFlag d (BZL_SYNC.limp_en d) && s.flag (BZL_STATE.cam_track d)
    let noDraft (u : State) : Prop := ∀ i, (u.draft d i).status ≠ .draft
    let lost (u : State) : Prop := u.flag (BZL_FLAGS.overdue d) = true ∧ VaultKept s u
    let p := (s.whl[n]).inp
    let due := s.get (WHL_CFG.mode n) ≠ 0 ∧ 0 < s.get (WHL_FILT.stuck_lim n) ∧ s.get (WHL_FILT.stuck_lim n) ≤ p.stuckCount ∧ p.stuckFired = false
    (s.overdueDue d = false → s.tracking d = false → Nothing (.overdue d) s) ∧
    (s.overdueDue d = true → s.dState d = stGap → Gives (.overdue d) s (fun u => lost u ∧ u.dState d = stSeek)) ∧
    (s.overdueDue d = true → s.dState d = stSync → limp = false → Gives (.overdue d) s (fun u => lost u ∧ u.dState d = stStall ∧ noDraft u)) ∧
    (s.overdueDue d = true → s.dState d = stSync → limp = true → Gives (.overdue d) s (fun u => lost u ∧ u.dState d = stLimp ∧
      ∀ i, (u.draft d i).status = .draft → (s.draft d i).spec.limp = true)) ∧
    (s.keepDue d = true → Gives (.keepExpiry d) s (fun u => u.dState d = stStall ∧ u.flag (BZL_STATE.pos_valid d) = false)) ∧
    (s.keepDue d = false → Nothing (.keepExpiry d) s) ∧
    (s.limpWatchDue d = true → Gives (.limpWatchStart d) s (fun u =>
      u = { s with bzl := u.bzl } ∧ u.bzl[d] = { s.bzl[d] with watch := { LimpWatch.reset with on := true } } ∧ ∀ e : Fin 8, e ≠ d → u.bzl[e] = s.bzl[e])) ∧
    (s.limpWatchDue d = false → Nothing (.limpWatchStart d) s) ∧
    (due → Gives (.whlStuckDetect n) s (fun u => u.flag (WHL_STAT.stuck n) = true ∧ (u.whl[n]).inp = { p with stuckFired := true } ∧
      (s.flag (BZL_CTRL.en d) = true → s.priSource d = .whl n → u.flag (BZL_FLAGS.pri_stuck d) = true))) ∧
    (p.stuckFired = true → Nothing (.whlStuckDetect n) s) ∧
    (s.get (WHL_CFG.mode n) = 1 → 65536 ≤ s.tally - (s.whl[n]).peakTally → exec (.vrPeakTimeout n) s = .next (s.set (WHL_STAT.peak n) 0)) ∧
    (s.get (WHL_CFG.mode n) ≠ 1 ∨ s.tally - (s.whl[n]).peakTally < 65536 → Nothing (.vrPeakTimeout n) s)

/-- Part of R90, R93, R96, R103 (T1, T15, T26), R113, R118, R466: the host's commands on a domain. Rests in part on choices of the model, log entries 2,
32 and 34. -/
def Obligations.DomainCommands : Prop :=
  ∀ (s : State) (d : Fin 8) (v : Word), s.wf = true →
    let x := s.bzl[d]
    let en := s.flag (BZL_CTRL.en d)
    let st := s.dState d
    let noDraft (u : State) : Prop := ∀ i, (u.draft d i).status ≠ .draft
    let dom (f : Domain → Domain) (s : State) : State := { s with bzl := vmod s.bzl d f }
    let i := s.get (BZL_TBL_IDX.index d)
    let table := s.get (BZL_TBL_IDX.table d)
    let step (s : State) : State := s.set (BZL_TBL_IDX.index d) (s.get (BZL_TBL_IDX.index d) + 1)
    (en = true → Nothing (.domainEnable d) s) ∧
    (en = false → 4 ≤ d.val ∨ s.tablesValid d = true → Gives (.domainEnable d) s (fun u =>
      u.flag (BZL_CTRL.en d) = true ∧ u.dState d = stSeek ∧ u.flag (BZL_STATE.pos_valid d) = false ∧ (u.bzl[d]).priIn = [] ∧ (u.bzl[d]).secIn = [] ∧
      (u.bzl[d]).cfg = ((takeSettings d s).bzl[d]).cfg ∧ VaultKept s u)) ∧
    (en = false → d.val < 4 → s.tablesValid d = false → exec (.domainEnable d) s = .next (s.raise (BZL_FLAGS.tbl_err d))) ∧
    (en = false → Nothing (.domainDisable d) s) ∧
    (en = true → Gives (.domainDisable d) s (fun u => u.flag (BZL_CTRL.en d) = false ∧ u.dState d = stSeek ∧ u.flag (BZL_STATE.pos_valid d) = false ∧ noDraft u ∧
      (u.bzl[d]).mapPending = none ∧ (∀ b, x.mapPending = some b → (u.bzl[d]).mapA = x.mapW ∧ u.flag (BZL_STATE.map_valid d) = b) ∧ VaultKept s u)) ∧
    (en = true → d.val < 4 → (st = stSync ∨ st = stLimp ∨ st = stStall ∨ st = stReverse) → Gives (.reseek d) s (fun u =>
      u.dState d = stSeek ∧ u.flag (BZL_STATE.pos_valid d) = false ∧ noDraft u)) ∧
    (en = true → d.val < 4 → st = stLost → Gives (.reseek d) s (fun u => u.dState d = stSeek)) ∧
    (en = false ∨ 4 ≤ d.val ∨ st = stSeek ∨ st = stGap → Nothing (.reseek d) s) ∧
    (st = stSync → s.flag (BZL_CFG.cycle d) = false → d.val < 4 → Gives (.flipRev d) s (fun u => u.dState d = stSync ∧ noDraft u ∧
      u.flag (BZL_STATE.rev d) = (u.bzl[d]).rev ∧ (u.bzl[d]).rev = (!x.rev) ∧ (u.bzl[d]).hist = x.hist.map fun e => { e with theta := e.theta + 16 * 737280 })) ∧
    (st ≠ stSync ∨ s.flag (BZL_CFG.cycle d) = true ∨ 4 ≤ d.val → Nothing (.flipRev d) s) ∧
    (d.val < 4 → en = true → exec (.mapClear d) s = .next (dom (fun y => { y with mapW := [], mapPending := some false }) s)) ∧
    (d.val < 4 → en = false → exec (.mapClear d) s =
      .next ((dom (fun y => { y with mapW := [], mapA := [], mapPending := none }) s).set (BZL_STATE.map_valid d) 0)) ∧
    (4 ≤ d.val → Nothing (.mapClear d) s) ∧
    exec (.tableDataAccess d none) s = .next (step { s with read :=
      [if table = 0 then s.priEntry d i else if table = 1 then wordOfInt (Sparse.get (fun _ => 0) x.mapW i)
        else if table = 2 then s.secEntry d (i % 256 / 64) (i % 64) else 0] }) ∧
    (en = true → table ≠ 1 → exec (.tableDataAccess d (some v)) s = .next (step s)) ∧
    (en = false → table = 0 → exec (.tableDataAccess d (some v)) s =
      .next (step (dom (fun y => { y with pri := Sparse.put (fun _ => 0) y.pri i (v &&& 0x800FFFFF) }) s))) ∧
    (s.get (BZL_MAP_CTRL.mode d) = 0 → table = 1 → i ≠ 0 → en = true → exec (.tableDataAccess d (some v)) s =
      .next (step (dom (fun y => { y with mapW := Sparse.put (fun _ => 0) y.mapW i (signExt 16 v.toNat), mapPending := some true }) s))) ∧
    (table = 1 → s.get (BZL_MAP_CTRL.mode d) ≠ 0 ∨ i = 0 → exec (.tableDataAccess d (some v)) s = .next (step s)) ∧
    exec (.edgeTimeRead d) s = .next { dom (fun y => { y with latched := [BZL_EDGE_TIME d + 4, BZL_POS d, BZL_PERIOD d] }) s with
      read := [s.rd (BZL_EDGE_TIME d)],
      latch := [(BZL_EDGE_TIME d + 4, s.rd (BZL_EDGE_TIME d + 4)), (BZL_POS d, s.rd (BZL_POS d)), (BZL_PERIOD d, s.rd (BZL_PERIOD d))].foldl
        (fun l a => Sparse.put noLatch l a.1 (some a.2)) s.latch }

/-- Part of R121–R133, R215: drafts: arrivals from channels, cancels and frees, and the host's window. An entry that is ARMED, or in use by another owner,
refuses an arrival; outside SYNC and LIMP_CAM an accepted entry is withdrawn at once; in SYNC it stands as DRAFT with its target ahead, or is armed
where the target lies within its lead; every DRAFT entry is projected anew. A cancel takes an ARMED entry back, on its way or in its facet's queue.
Rests in part on choices of the model, log entries 15 and 35. -/
def Obligations.DraftCommands : Prop :=
  ∀ (s : State) (d : Fin 8) (k : Fin 256) (y : DraftSpec) (ch : Fin 512), s.wf = true →
    let e := s.draft d k
    let x := s.bzl[d]
    let tgt := targetOf (s.cycle16 d) x.thetaK y.angle.toNat
    let fresh : Draft := { spec := y, status := .draft, reason := 0, target := tgt, time := x.timeOf tgt, tO := none }
    let refused := e.status = .armed ∨ (e.status ≠ .free ∧ (e.spec.hostOwn = true ∨ e.spec.owner ≠ y.owner))
    let holds := s.dState d = stSync ∨ (s.dState d = stLimp ∧ y.limp = true)
    let owns := e.spec.hostOwn = false ∧ e.spec.owner = ch
    let mod (k : Fin 256) (f : Draft → Draft) (s : State) : State := { s with bzl := vmod s.bzl d fun z => { z with drafts := vmod z.drafts k f } }
    let project (s : State) : State := { s with bzl := vmod s.bzl d fun z =>
      { z with drafts := z.drafts.map fun a => if a.status = .draft then { a with time := z.timeOf a.target } else a } }
    let n := Fin.ofNat 256 (s.get (BZL_DFT_IDX.index d))
    let host := hostSpec s d
    let comes (k : Fin 256) (c : Nat × Instr) : Bool := match c.2 with | .armedEntryArrival _ z => z.origin == some (d, k) | _ => false
    let f := e.spec.facet
    (refused → exec (.draftArrival d k y) s = .next (s.cause y.owner .draft)) ∧
    (¬ refused → exec (.draftArrival d k y) s = .next (acceptDraft d k y s)) ∧
    (¬ refused → s.tracking d = false → Gives (.draftArrival d k y) s (fun u =>
      u.draft d k = { fresh with status := .withdrawn, reason := 14, time := noTime } ∧ u.inflight = s.inflight ∧ VaultKept s u)) ∧
    (¬ refused → s.dState d = stLimp → y.limp = false → Gives (.draftArrival d k y) s (fun u => (u.draft d k).status = .withdrawn ∧ (u.draft d k).reason = 6)) ∧
    (¬ refused → holds → x.armable fresh = false → exec (.draftArrival d k y) s = .next (project (mod k (fun _ => fresh) s))) ∧
    (¬ refused → holds → x.armable fresh = true → Gives (.draftArrival d k y) s (fun u =>
      u.draft d k = { fresh with status := .armed } ∧ u.fct = s.fct ∧ VaultKept s u ∧ u.inflight = s.inflight ++ [(s.tb.cyc + 1, .armedEntryArrival y.facet
        { time := some (x.timeOf tgt), act := y.act, drop := y.drop, tag := y.tag, notify := y.notify, origin := some (d, k) })])) ∧
    (owns → e.status = .draft → Gives (.draftCancelArrival d k ch) s (fun u => (u.draft d k).status = .cancelled ∧ u.inflight = s.inflight ∧ u.fct = s.fct)) ∧
    (owns → e.status = .armed → s.inflight.any (comes k) = true → Gives (.draftCancelArrival d k ch) s (fun u =>
      (u.draft d k).status = .cancelled ∧ u.inflight = s.inflight.filter (fun c => !comes k c) ∧ u.fct = s.fct)) ∧
    (owns → e.status = .armed → s.inflight.any (comes k) = false → (∀ a ∈ (s.fct[f]).lateNext, a.origin ≠ some (d, k)) → Gives (.draftCancelArrival d k ch) s (fun u => u.inflight = s.inflight ∧
      (u.fct[f]).queue = (s.fct[f]).queue.filter (fun a => a.origin != some (d, k) || s.actsNow a) ∧
      ((∃ a ∈ (s.fct[f]).queue, a.origin = some (d, k) ∧ s.actsNow a = false) → (u.draft d k).status = .cancelled))) ∧
    (¬ owns ∨ (e.status ≠ .draft ∧ e.status ≠ .armed) → Nothing (.draftCancelArrival d k ch) s) ∧
    (owns → e.status ≠ .armed → exec (.draftFreeArrival d k ch) s = .next (mod k (fun z => { z with status := .free, reason := 0 }) s)) ∧
    (¬ owns ∨ e.status = .armed → Nothing (.draftFreeArrival d k ch) s) ∧
    ((s.draft d n).status = .armed ∨ s.cycleAu d ≤ host.angle.toNat → exec (.hostDraftWrite d) s = .next (s.raise (BZL_DFT_CMD.refused d))) ∧
    ((s.draft d n).status ≠ .armed → host.angle.toNat < s.cycleAu d → exec (.hostDraftWrite d) s = .next (acceptDraft d n host (s.set (BZL_DFT_CMD.refused d) 0))) ∧
    ((s.draft d n).status ≠ .armed → host.angle.toNat < s.cycleAu d → s.tracking d = false → Gives (.hostDraftWrite d) s (fun u =>
      u.flag (BZL_DFT_CMD.refused d) = false ∧ (u.draft d n).spec = host ∧ (u.draft d n).status = .withdrawn ∧ (u.draft d n).reason = 14)) ∧
    ((s.draft d n).status = .draft → Gives (.hostDraftCancel d) s (fun u => (u.draft d n).status = .cancelled)) ∧
    ((s.draft d n).status ≠ .draft → (s.draft d n).status ≠ .armed → Nothing (.hostDraftCancel d) s) ∧
    ((s.draft d n).status = .armed → exec (.hostDraftFree d) s = .next (s.set (BZL_DFT_CMD.refused d) 1)) ∧
    ((s.draft d n).status ≠ .armed → exec (.hostDraftFree d) s =
      .next ((mod n (fun z => { z with status := .free, reason := 0 }) s).set (BZL_DFT_CMD.refused d) 0)) ∧
    Gives (.draftRead d) s (fun u => hostSpec u d = (s.draft d n).spec ∧ u.get (BZL_DFT_STATUS.status d) = (s.draft d n).status.code ∧
      u.get (BZL_DFT_STATUS.reason d) = (s.draft d n).reason.toNat ∧ u.bzl = s.bzl ∧ RegsOnly s u ∧
      u.rd64 (BZL_DFT_TIME d) = (if (s.draft d n).status = .free then noTime else (s.draft d n).time)) ∧
    exec (.draftClrCount d) s = .next (s.set (BZL_DFT_STAT.withdrawn d) 0)

/-- Part of R90, R101, R102, R135–R137, R368: a mirror follows its source's tooth cells: state, slot and edge time are the cell's, and drafts do not
outlive SYNC and LIMP_CAM; disabled, it takes nothing from a cell. Without a cell past the bound it coasts to the predicted time, and when that has
lasted too long, or coasting is off, it is LOST and its drafts are withdrawn. Rests in part on choices of the model, log entries 2 and 34. -/
def Obligations.MirrorDecisions : Prop :=
  ∀ (s : State) (d : Fin 8) (c : ToothCell) (l : List ToothCell), s.wf = true → 4 ≤ d.val →
    let x := s.bzl[d]
    let on := s.flag (BZL_CTRL.en d)
    let coast := s.flag (BZL_MIR_COAST.en d)
    let noDraft (u : State) : Prop := ∀ i, (u.draft d i).status ≠ .draft
    (x.cells = [] → Nothing (.mirrorCellDecision d) s) ∧
    (x.cells = c :: l → on = false → s.tracking d = false → Gives (.mirrorCellDecision d) s (fun u =>
      OnlyRegs [SLO_MIR_STAT (d - 4)] s u ∧ u.bzl[d] = { x with cells := l, lastCell := some s.now, mirSeq := some c.seq })) ∧
    (x.cells = c :: l → on = true → Gives (.mirrorCellDecision d) s (fun u => (u.bzl[d]).cells = l ∧ u.dState d = c.state.toNat ∧
      u.get (BZL_STATE.slot d) = c.slot.toNat ∧ u.flag (BZL_MIR_STAT.coasting d) = false ∧ (u.bzl[d]).lastCell = some s.now ∧
      (x.fresh = true → u.rd64 (BZL_EDGE_TIME d) = fullTime s.now c.time ∧ u.rd (BZL_POS d) = BitVec.ofNat 32 (c.pos.toNat / 16)) ∧
      (s.tracking d = true → c.state.toNat ≠ stSync → c.state.toNat ≠ stLimp → noDraft u) ∧ VaultKept s u)) ∧
    (s.coastMissed d = true → coast = true → s.coastOver d = false → Gives (.coastSynthesis d) s (fun u => u.flag (BZL_MIR_STAT.coasting d) = true ∧
      u.dState d = s.dState d ∧ (u.bzl[d]).tK = x.synthTime ∧ u.rd64 (BZL_EDGE_TIME d) = x.synthTime ∧ VaultKept s u)) ∧
    (s.coastMissed d = true → coast = false ∨ s.coastOver d = true → Gives (.coastEnd d) s (fun u => u.dState d = stLost ∧
      u.flag (BZL_MIR_STAT.coasting d) = false ∧ (coast = true → u.flag (BZL_MIR_STAT.ended d) = true) ∧ noDraft u ∧ VaultKept s u)) ∧
    (s.coastMissed d = false → Nothing (.coastEnd d) s) ∧
    (s.tracking d = false → Nothing (.coastSynthesis d) s)

/-! ### Channels, the Teller and the engines (spec/06) -/

/-- Part of R139, R141, R143–R148, R410, R437: causes and the host's control of a channel. A cause sets its pending bit, and a channel that is idle is
ready as soon as a pending cause is enabled. Rests in part on choices of the model, log entry 37. -/
def Obligations.ChannelControl : Prop :=
  ∀ (s : State) (ch : Fin 512) (c : Cause) (v : Word) (p : BitVec 16) (k : Fin 32), s.wf = true →
    let st := s.get (TLR_CH_STAT.state ch)
    let pend := s.rd (TLR_CH_PEND ch)
    let en := s.flag (TLR_CH_CTL.en ch)
    let idleOr (w : Word) : Nat := if w &&& s.rd (TLR_CH_CAUSE_EN ch) = 0 then 1 else 2
    let caused (b : Nat) (u : State) : Prop := u.rd (TLR_CH_PEND ch) = pend ||| BitVec.twoPow 32 b ∧
      (pend.getLsbD b = true → u.flag (TLR_CH_STAT.coalesced ch) = true ∧ (u.cameAgain ch).getLsbD b = true) ∧
      u.get (TLR_CH_STAT.state ch) = if st = 1 ∨ st = 2 then idleOr (pend ||| BitVec.twoPow 32 b) else st
    let onlyPend (u : State) : Prop := u = { s with regs := u.regs, setNow := u.setNow, tlr := { s.tlr with again := u.tlr.again } }
    Gives (.causeSet ch c) s (fun u => onlyPend u ∧ OnlyRegs [TLR_CH_PEND ch, TLR_CH_STAT ch] s u ∧ caused c.bit u) ∧
    Gives (.hostCause ch) s (fun u => onlyPend u ∧ OnlyRegs [TLR_CH_PEND ch, TLR_CH_STAT ch] s u ∧ caused 17 u) ∧
    Gives (.clrPend ch) s (fun u => u.rd (TLR_CH_PEND ch) = 0 ∧ OnlyRegs [TLR_CH_PEND ch, TLR_CH_STAT ch] s u ∧
      u.get (TLR_CH_STAT.state ch) = if st = 1 ∨ st = 2 then 1 else st) ∧
    (en = true → Nothing (.channelEnable ch) s) ∧
    (en = false → Gives (.channelEnable ch) s (fun u => u.flag (TLR_CH_CTL.en ch) = true ∧ u.get (TLR_CH_STAT.fault ch) = 0 ∧
      u.rd (TLR_CH_PEND ch) = pend ||| BitVec.twoPow 32 18 ∧
      u.get (TLR_CH_STAT.state ch) = if st ≤ 2 then idleOr (pend ||| BitVec.twoPow 32 18) else st)) ∧
    exec (.channelDisable ch) s = .next (if 3 ≤ st ∧ st ≤ 6 then s.set (TLR_CH_CTL.en ch) 0
      else (s.set (TLR_CH_CTL.en ch) 0).set (TLR_CH_STAT.state ch) 0) ∧
    (en = true ∨ st ≠ 0 → exec (.contextWrite ch (4 * k) v) s = .next (s.raise TLR_STAT.ctx_wr_ignored)) ∧
    (en = false → st = 0 → Gives (.contextWrite ch (4 * k) v) s (fun u => (u.tlr.ctx[ch]).word k = v ∧
      (∀ j < 40, j ≠ k.val → (u.tlr.ctx[ch]).word j = (s.tlr.ctx[ch]).word j) ∧ (∀ x : Fin 512, x ≠ ch → u.tlr.ctx[x] = s.tlr.ctx[x]) ∧ u.regs = s.regs)) ∧
    ((s.psProtected p = true ∨ s.signReq = true) → exec (.programStoreWrite p v) s = .next (s.raise ASY_SEC_STAT.ps_wr_ignored)) ∧
    (s.psProtected p = false → s.signReq = false → Gives (.programStoreWrite p v) s (fun u =>
      u = { s with tlr := { s.tlr with prog := u.tlr.prog } } ∧ u.program p = v ∧ ∀ q, q ≠ p → u.program q = s.program q)) ∧
    exec (.tellerRun false) s = .next (s.set TLR_CTRL.run 0) ∧
    (s.flag FLT_BOOT.ucode = true → exec (.tellerRun true) s = .next (s.set TLR_CTRL.run 1)) ∧
    (s.flag FLT_BOOT.ucode = false → Nothing (.tellerRun true) s) ∧
    exec .clrPeak s = .next (s.set TLR_LOAD.peak 0) ∧
    (let wake := (s.tlr.ctx[ch]).wake
     (s.tb.boundary = true → wake ≠ noTime → wake.toNat ≤ s.now.toNat → Gives (.wakeTimeReached ch) s (fun u =>
       (u.tlr.ctx[ch]).wake = noTime ∧ caused 16 u)) ∧
     (s.tb.boundary = false ∨ wake = noTime ∨ s.now.toNat < wake.toNat → Nothing (.wakeTimeReached ch) s))

/-- Part of R142, R143, R145, R149–R156: dispatch of the channel that the Teller selects on the lowest idle engine of a quad: the causes that came before
this cycle are taken, the routine starts at the context's pc with the context's registers, and issues two cycles on; strict priority of the classes;
an uncorrectable context faults the channel with code 4. For a preemption the Teller first chooses the victim, of the lowest class and then the
highest number; at its trap point the victim's micro-state is saved and the urgent routine stands above it. An engine past its budget aborts with code
1. Rests in part on choices of the model, log entries 2, 5, 18 and 57. -/
def Obligations.DispatchAndPreemption : Prop :=
  ∀ (s : State) (q : Fin 4) (e : Fin 17) (ch : Fin 512), s.wf = true →
    let x := s.tlr.ctx[ch]
    let can := s.dispatching = true ∧ s.tlr.dispAt[q] ≠ s.engCycle + 1
    let taken := s.rd (TLR_CH_PEND ch) &&& s.rd (TLR_CH_CAUSE_EN ch) &&& ~~~s.justSet (TLR_CH_PEND ch)
    let anyIdle : Prop := ∃ f : Fin 17, s.engActive f = true ∧ s.engIdle f = true
    let starts (r : Routine) (at' : Nat) : Prop :=
      r.ch = ch ∧ r.v = x.v ∧ r.pc = x.pc ∧ r.flags = x.flags ∧ r.count = 1 ∧ r.stage = [] ∧ r.issueAt = at' ∧ r.budget = x.cycles (s.replaying ch) ∧
      (s.replaying ch = false → r.cause = taken.setWidth 19) ∧ (s.replaying ch = true → r.cause = (s.tlr.chan[ch]).replayCause)
    let traps : Option (Fin 17) := (List.finRange 17).find? s.trapDue
    (can → s.pick = some ch → s.idleEngine q = some e → Gives (.dispatch q .clean .clean) s (fun u =>
      (∃ r, u.routine e = some r ∧ starts r (s.engCycle + 2)) ∧ u.get (TLR_CH_STAT.state ch) = 3 ∧ u.get (TLR_CH_STAT.engine ch) = e ∧
      u.tlr.dispAt[q] = s.engCycle + 1 ∧
      (s.replaying ch = false → u.rd (TLR_CH_PEND ch) = (s.rd (TLR_CH_PEND ch) &&& ~~~taken) ||| (taken &&& s.cameAgain ch)) ∧ VaultKept s u)) ∧
    (s.pick = some ch → s.firstReplay = none → s.ready ch = true ∧
      ∀ c : Fin 512, s.ready c = true → s.selected c = false → ((s.tlr.ctx[c]).cls).toNat ≤ x.cls.toNat) ∧
    (¬ can ∨ s.pick = none ∨ s.idleEngine q = none → ∀ a b, Nothing (.dispatch q a b) s) ∧
    (can → s.pick = some ch → s.idleEngine q = some e → ∀ f, Gives (.dispatch q .uncorrectable f) s (fun u =>
      u.get (TLR_CH_STAT.fault ch) = 4 ∧ u.get (TLR_CH_STAT.state ch) = (if s.flag (TLR_CH_CTL.en ch) then 7 else 0) ∧ u.routine e = none)) ∧
    (traps = none → s.choice = none → ∀ a b, Nothing (.preemption a b) s) ∧
    (anyIdle ∨ s.dispatching = false ∨ s.flag TLR_CTRL.preempt_en = false ∨ s.urgentPick = none ∨ s.victim = none → s.choice = none) ∧
    (s.choice = some (ch, e) → s.urgent ch = true ∧ s.pick = some ch ∧ s.victim = some e) ∧
    (traps = none → s.choice = some (ch, e) → ∀ a b, exec (.preemption a b) s = .next
      { s with tlr := { s.tlr with dispAt := vmod s.tlr.dispAt (s.engQuad e) (fun _ => s.engCycle + 1),
                                   eng := vmod s.tlr.eng e fun y => { y with sel := some (ch, s.engCycle) } } }) ∧
    (s.victim = some e → ∀ (f : Fin 17) (k : Nat), s.victimClass f = some k → ∃ j, s.victimClass e = some j ∧ (j < k ∨ (j = k ∧ f.val ≤ e.val))) ∧
    (∀ c a, traps = some e → (s.tlr.eng[e]).sel = some (ch, c) → (s.tlr.eng[e]).l0 = some a →
      s.dispatching = true → s.flag TLR_CTRL.preempt_en = true → s.urgent ch = true → Gives (.preemption .clean .clean) s (fun u =>
        (∃ r, u.routine e = some r ∧ starts r (s.engCycle + 9)) ∧ (u.tlr.eng[e]).sel = none ∧
        (u.tlr.eng[e]).l0 = some { a with acc := none, issueAt := if a.acc.isSome then 0 else a.issueAt - s.engCycle } ∧
        (∀ m, a.micro = some m → u.mnt.tsave[e] = packRows m a.pc 1 (a.count + s.engCycle - a.issueAt) a.stage.length a.acc.isSome) ∧
        u.get (TLR_CH_STAT.state a.ch) = 4 ∧ VaultKept s u)) ∧
    (∀ c, traps = some e → (s.tlr.eng[e]).sel = some (ch, c) → s.dispatching = false ∨ s.flag TLR_CTRL.preempt_en = false ∨ s.urgent ch = false →
      ∀ a b, exec (.preemption a b) s = .next { s with tlr := { s.tlr with eng := vmod s.tlr.eng e fun y => { y with sel := none } } }) ∧
    (∀ r, s.routine e = some r → r.budget + r.issueAt < r.count + s.engCycle → Gives (.budgetAbort e) s (fun u => u.get (TLR_CH_STAT.fault r.ch) = 1 ∧
      u.flag TLR_STAT.budget = true ∧ u.rd (TLR_CH_PEND r.ch) = s.rd (TLR_CH_PEND r.ch) ||| BitVec.ofNat 32 r.cause.toNat ∧ VaultKept s u ∧
      (s.tlr.eng[e].l1 = none → (u.tlr.eng[e]).l0 = none))) ∧
    ((∀ r, s.routine e = some r → r.count + s.engCycle ≤ r.budget + r.issueAt) → Nothing (.budgetAbort e) s)

/-- Part of R148, R161, R162, R186, R191, R254–R258, R333: the two steps of a commit that follow its write-back: one Vault write of the oldest commit in a
slot that goes to the commit unit, and then, with no write left, its notes, posts and triggers, after which the channel leaves COMMITTING: idle or
ready when enabled, else disabled. The first post of a commit to a channel pulses the channel's interrupt source. Rests in part on choices of the
model, log entries 2 and 45. -/
def Obligations.CommitsApply : Prop :=
  ∀ (s : State) (c : Commit) (more : List Effect) (rest : List Commit) (a : Nat) (bs : List Byte) (w : Nat) (swap pooled : Bool) (v : Dword) (m : Fin 512) (x : LineEcc),
    s.wf = true →
    let commits := s.tlr.commits = c :: rest
    let en := s.flag (TLR_CH_CTL.en c.ch)
    let slot := s.vlt.granted = false ∧ s.winner [] = some (0, pooled, 17)
    (s.tlr.commits = [] → Nothing (.commitVaultWrite x) s ∧ Nothing .commitStep3 s) ∧
    (s.vlt.granted = true ∨ (∀ p, s.winner [] ≠ some (0, p, 17)) → Nothing (.commitVaultWrite x) s) ∧
    (commits → c.back.isSome = true ∨ c.vault = [] → s.engReady 17 = false) ∧
    (commits → c.back.isSome = true ∨ c.vault ≠ [] → Nothing .commitStep3 s) ∧
    (commits → c.back = none → slot → c.vault = .store a bs :: more → s.guardedAt a bs.length = false → Gives (.commitVaultWrite x) s (fun u =>
      u.tlr.commits = { c with vault := more } :: rest ∧ u.vlt.granted = true ∧
      ∀ k, u.vlt.byte k = if a ≤ k ∧ k < a + bs.length then bs.getD (k - a) 0 else s.vlt.byte k)) ∧
    (commits → c.back = none → slot → c.vault = .atomic (8 * w) swap v :: more → s.guardedAt (8 * w) 8 = false → w < vaultSize / 8 →
      s.vlt.poisoned w = false → x.bad = 0 → Gives (.commitVaultWrite x) s (fun u =>
        u.tlr.commits = { c with vault := more } :: rest ∧ u.vlt.word w = (if swap then v else s.vlt.word w + v) ∧
        ∀ k, k / 8 ≠ w → u.vlt.byte k = s.vlt.byte k)) ∧
    (commits → c.back = none → c.vault = [] → c.step3 = [] → Gives .commitStep3 s (fun u => u.tlr.commits = rest ∧ VaultKept s u ∧
      u.get (TLR_CH_STAT.state c.ch) = (if en = false then 0
        else if (s.rd (TLR_CH_PEND c.ch) ||| c.again.setWidth 32) &&& s.rd (TLR_CH_CAUSE_EN c.ch) = 0 then 1 else 2))) ∧
    (commits → c.back = none → c.vault = [] → c.step3 = [.post m] → Gives .commitStep3 s (fun u => u.tlr.commits = rest ∧
      (u.rd (TLR_CH_PEND m)).getLsbD 13 = true ∧ VaultKept s u ∧
      (s.get PWR_STAT.state ≠ 5 → c.posted = [] → u.flag (IC_SRC.input m) = true) ∧
      (c.posted = [m] → u.flag (IC_SRC.input m) = s.flag (IC_SRC.input m))))

/-- Part of R140, R165, R421–R429: a fenced engine loses its routine, whose channel replays; a free reserve takes its place in the engine cycle after; a
fenced engine is reintegrated as the reserve or into a quad with room; the program store serves a quad from the sibling copy, and the group is fetched
again within 1 µs, 800 engine cycles. Rests in part on choices of the model, log entries 2, 19 and 58. -/
def Obligations.EnginesAndCopies : Prop :=
  ∀ (s : State) (e k : Fin 17) (c : Fin 4) (cause : FenceCause) (x : GroupError) (r : Routine), s.wf = true →
    let q := s.engQuad e
    let copy := s.psServe q
    let sib := if copy % 2 = 0 then copy + 1 else copy - 1
    (s.engRole e = 2 → Nothing (.engineFence e cause) s ∧ Nothing (.hostFence e) s) ∧
    (s.engRole e ≠ 2 → Gives (.engineFence e cause) s (fun u => u.engRole e = 2 ∧ u.get (ENG_STAT.fence_cause e) = cause.code ∧
      u.flag TLR_STAT.fence = true ∧ u.flag (bitFld FLT_STAT 0) = true ∧ u.routine e = none ∧ VaultKept s u ∧
      (s.tlr.attach = none → u.tlr.attach = if s.engRole e = 0 then s.reserve.map fun k => (k, q, s.engCycle) else none) ∧
      (s.tlr.eng[e].l0 = some r → s.tlr.eng[e].l1 = none → r.replay = false →
        u.get (TLR_CH_STAT.state r.ch) = 6 ∧ u.flag (TLR_CH_STAT.replayed r.ch) = true ∧ (u.tlr.chan[r.ch]).replayCause = r.cause))) ∧
    (∀ n, s.tlr.attach = some (k, c, n) → n < s.engCycle → (attachReserve s).engRole k = 0 ∧ (attachReserve s).engQuad k = c ∧ (attachReserve s).tlr.attach = none) ∧
    (s.engActive e = true → s.engines = 1 → s.reserve = none → Nothing (.hostFence e) s) ∧
    (s.engActive e = false ∨ s.engines ≠ 1 ∨ s.reserve ≠ none → exec (.hostFence e) s = exec (.engineFence e .host) s) ∧
    (s.engRole e = 2 → e ∉ s.tlr.reint → exec (.reintegrate e) s =
      .next ({ s with tlr := { s.tlr with reint := s.tlr.reint ++ [e] } }.raise FLT_ENG.reint_busy)) ∧
    (s.engRole e ≠ 2 ∨ e ∈ s.tlr.reint → Nothing (.reintegrate e) s) ∧
    (e ∉ s.tlr.reint → ∀ pass, Nothing (.reintegrationComplete e pass) s) ∧
    (e ∈ s.tlr.reint → Gives (.reintegrationComplete e true) s (fun u => e ∉ u.tlr.reint ∧ u.get (ENG_STAT.fence_cause e) = 0 ∧
      (s.openQuad = none → u.engRole e = 1) ∧ (s.openQuad = some c → u.engRole e = 0 ∧ u.engQuad e = c))) ∧
    (e ∈ s.tlr.reint → Gives (.reintegrationComplete e false) s (fun u => e ∉ u.tlr.reint ∧ u.engRole e = s.engRole e ∧
      u.flag FLT_ENG.reint_fail = true ∧ u.flag (bitFld FLT_STAT 24) = true)) ∧
    (s.routine e = none → Nothing (.psUncorrectable e x) s) ∧
    (s.routine e = some r → Gives (.psUncorrectable e .corrected) s (fun u => u.flag TLR_STAT.ps_corr = true ∧
      u.get TLR_PS_STAT.corr_count = min (s.get TLR_PS_STAT.corr_count + 1) 65535 ∧ u.tlr = s.tlr)) ∧
    (s.routine e = some r → x ≠ .corrected → x = .bothCopies ∨ s.psState sib ≠ 0 → Gives (.psUncorrectable e x) s (fun u =>
      u.get (TLR_CH_STAT.fault r.ch) = 3 ∧ u.flag (bitFld FLT_STAT 4) = true)) ∧
    (s.routine e = some r → s.psState sib = 0 → Gives (.psUncorrectable e .oneCopy) s (fun u =>
      (∀ j : Fin 4, u.psServe j = if s.psServe j = copy then sib else s.psServe j) ∧ u.psState copy = 1 ∧ u.flag TLR_STAT.ps_switch = true ∧
      ∃ d ≤ 800, u.routine e = some { r with issueAt := r.issueAt + d, count := r.count + d })) ∧
    (s.psState c = 1 → Gives (.psRewriteDone c true) s (fun u => u.psState c = 0 ∧ u.psServe c = c ∧ OnlyRegs [TLR_PS_STAT] s u)) ∧
    (s.psState c = 1 → Gives (.psRewriteDone c false) s (fun u => u.psState c = 2 ∧ u.psServe c = s.psServe c ∧ OnlyRegs [TLR_PS_STAT] s u)) ∧
    (s.psState c ≠ 1 → ∀ pass, Nothing (.psRewriteDone c pass) s)

/-! ### Microcode and the Vault (spec/09, spec/10) -/

/-- Part of R228–R230, R241, R244, R249–R251: the customer's control stores and their repair. A write is ignored in the vendor area, with the lock set or
under OTP sign_req; a hidden word reads 0; a dispatch entry must point into the Mint. A repair costs the routine 22 cycles, not counted in its budget,
and saves its micro-state; an error in a trap, or a second failure of the word, fences the engine. Rests in part on choices of the model, log entries
18 and 20. -/
def Obligations.ControlStoreCommands : Prop :=
  ∀ (s : State) (e : Fin 17) (v : Word) (k : Fin 256) (again master : Bool) (r : Routine), s.wf = true →
    let n := BitVec.ofNat 11 (s.get MNT_NADDR.index)
    let u := BitVec.ofNat 13 (s.get MNT_UADDR.index)
    let shut := s.flag MNT_CTRL.lock = true ∨ s.signReq = true
    let hide := s.flag MNT_CTRL.hide
    let h := s.mnt.nhold
    let vendorN := n.toNat < 0x600 ∨ shut ∨ Sparse.get (fun _ => false) s.mnt.encNano n.toNat = true
    let vendorU := u.toNat < 0x1800 ∨ shut ∨ Sparse.get (fun _ => false) s.mnt.encMicro u.toNat = true
    let latch (i : Nat) (x : State) : Prop := x.get MNT_NADDR.index = i % 2048 ∧
      x.mnt.ndata = if i % 2048 < 0x600 ∨ hide = true then 0 else x.mnt.nword (BitVec.ofNat 11 i)
    (vendorN → Gives (.nanoWordLoad v) s (fun x => x.flag MNT_STAT.load_ignored = true ∧ x.mnt.nano = s.mnt.nano ∧ latch (n.toNat + 1) x)) ∧
    (¬ vendorN → Gives (.nanoWordLoad v) s (fun x => x.mnt.nano = Sparse.put (fun _ => 0) s.mnt.nano n.toNat (v ++ h[2] ++ h[1] ++ h[0]) ∧
      x.mnt.micro = s.mnt.micro ∧ latch (n.toNat + 1) x)) ∧
    Gives (.nanoAddrWrite v) s (fun x => x.mnt.nano = s.mnt.nano ∧ latch v.toNat x) ∧
    exec (.microWordAccess none) s = .next ({ s with read :=
      [if u.toNat < 0x1800 ∨ hide = true then 0 else (s.mnt.uword u).setWidth 32] }.set MNT_UADDR.index (u.toNat + 1)) ∧
    (vendorU → exec (.microWordAccess (some v)) s = .next ((s.raise MNT_STAT.load_ignored).set MNT_UADDR.index (u.toNat + 1))) ∧
    (¬ vendorU → exec (.microWordAccess (some v)) s = .next
      ({ s with mnt := { s.mnt with micro := Sparse.put (fun _ => 0) s.mnt.micro u.toNat (v.setWidth 24) } }.set MNT_UADDR.index (u.toNat + 1))) ∧
    (k.val < 0xE0 ∨ s.flag MNT_CTRL.lock = true → Nothing (.dispatchEntryWrite k v) s) ∧
    (0xE0 ≤ k.val → s.flag MNT_CTRL.lock = false → s.signReq = true → exec (.dispatchEntryWrite k v) s = .next (s.raise MNT_STAT.load_ignored)) ∧
    (0xE0 ≤ k.val → s.flag MNT_CTRL.lock = false → s.signReq = false →
      (v.getLsbD 31 = true ∧ v.toNat % 8192 < 0x1800 → exec (.dispatchEntryWrite k v) s = .next (s.raise MNT_STAT.disp_reject)) ∧
      (v.getLsbD 31 = false ∨ 0x1800 ≤ v.toNat % 8192 → exec (.dispatchEntryWrite k v) s = .next (s.plainWrite (MNT_DISP k) v))) ∧
    exec .mintLock s = .next ((s.raise MNT_CTRL.lock).raise MNT_STAT.locked) ∧
    exec .mintHide s = .next ((s.raise MNT_CTRL.hide).raise MNT_STAT.hidden) ∧
    ((s.tlr.eng[e]).l0 = none → Nothing (.parityRepair e again master) s) ∧
    ((s.tlr.eng[e]).l0 = some r → s.trapBusy e = true → exec (.parityRepair e again master) s = exec (.engineFence e .nestedTrap) s) ∧
    ((s.tlr.eng[e]).l0 = some r → s.trapBusy e = false → r.acc.isSome = true → Nothing (.parityRepair e again master) s) ∧
    ((s.tlr.eng[e]).l0 = some r → s.trapBusy e = false → r.acc = none →
      let now := max r.issueAt s.engCycle
      let free := match r.micro with | some m => max now m.vdAt | none => now
      Gives (.parityRepair e again true) s (fun x => x.get (TLR_CH_STAT.fault r.ch) = 3 ∧ x.flag MNT_STAT.master_err = true) ∧
      Gives (.parityRepair e false false) s (fun x => x.flag MNT_STAT.repair = true ∧ (x.tlr.eng[e]).busyTo = free + 22 ∧ VaultKept s x ∧
        x.routine e = some { r with issueAt := free + 22, count := r.count + (free - now) } ∧
        (∀ m, r.micro = some m → x.mnt.tsave[e] = packRows m r.pc 2 (r.count + s.engCycle - r.issueAt) r.stage.length false)) ∧
      (s.engRole e ≠ 2 → Gives (.parityRepair e true false) s (fun x => x.engRole e = 2 ∧ x.get (ENG_STAT.fence_cause e) = 1)))

/-- Part of R253, R254, R259, R262–R265: host accesses of the Vault through BAR2, of any length and alignment, wait in their order for the host's slots,
one for each line; the upper half adds the rotator's shift; bytes above the Vault read all ones and take no write. In its slot a write stores the
enabled bytes of its next line and no other; a read takes the next line's bytes, all ones where the word is poisoned, and with its last line the words
come back. Rests in part on choices of the model, log entries 6 and 7. -/
def Obligations.Bar2Accesses : Prop :=
  ∀ (s : State) (off : BitVec 25) (len : Nat) (bytes : List (Option Byte)) (eccs es : List LineEcc) (reqs : List VaultRequest) (a size above k o : Nat) (pooled : Bool)
    (got : List (Byte × Bool)) (rest : List BusReq), s.wf = true →
    let A := if off.toNat < 0x1000000 then off.toNat else off.toNat - 0x1000000 + s.get VLT_ROT.shift
    let n := min len (0x1000000 - A)
    let left := bytes.take (0x1000000 - A)
    let queue (q : BusReq) : State := { s with vlt := { s.vlt with host := s.vlt.host ++ [q] } }
    let slot := s.vlt.granted = false ∧ s.winner reqs = some (3, pooled, k)
    let e := (nextEcc (eccFor reqs fun w => reqCode w == 3) es).headD ⟨0, 0⟩
    let from' := a + got.length
    let part := min (size - got.length) (32 - from' % 32)
    let one := lineCheck 3 (from' / 32) e (countSlot 3 (takeSlot (3, pooled, k) s))
    let two := if one.vlt.anyPoison from' part then poisonRead one else one
    let all := got ++ (List.range part).map fun j => if one.vlt.poisoned ((from' + j) / 8) then (0xFF, true) else (s.vlt.byte (from' + j), false)
    let line := bytes.take (32 - a % 32)
    (0 < n → exec (.bar2Access off (.read len) eccs) s = .next (queue (.read A n (len - n) [] eccs off.toNat .pcie))) ∧
    (n = 0 → Gives (.bar2Access off (.read len) eccs) s (fun u => u.vlt = s.vlt ∧ u.regs = s.regs ∧ u.read = bytesToWords (List.replicate len 0xFF))) ∧
    (left ≠ [] → exec (.bar2Access off (.write bytes) eccs) s = .next (queue (.write A left eccs))) ∧
    (left = [] → Nothing (.bar2Access off (.write bytes) eccs) s) ∧
    (slot → s.vlt.host = .read a size above got es o .pcie :: rest → all.length < size → VaultKept s two ∧
      exec (.vaultAccess reqs) s = .next { two with vlt := { two.vlt with host := .read a size above all ((nextEcc (eccFor reqs fun w => reqCode w == 3) es).drop 1) o .pcie :: rest } }) ∧
    (slot → s.vlt.host = .read a size above got es o .pcie :: rest → size ≤ all.length → Gives (.vaultAccess reqs) s (fun u =>
      VaultKept s u ∧ u.regs = two.regs ∧ u.vlt.host = rest ∧ u.read = bytesToWords (all.map (·.1) ++ List.replicate above 0xFF))) ∧
    (slot → s.vlt.host = .write a bytes es :: rest → s.guardedAt a line.length = false → Gives (.vaultAccess reqs) s (fun u =>
      u.vlt.host = (if bytes.length ≤ 32 - a % 32 then rest else .write (a + (32 - a % 32)) (bytes.drop (32 - a % 32)) ((nextEcc (eccFor reqs fun w => reqCode w == 3) es).drop 1) :: rest) ∧
      ∀ p, u.vlt.byte p = if a ≤ p ∧ p < a + line.length then (line.getD (p - a) none).getD (s.vlt.byte p) else s.vlt.byte p))

/-- Part of R254–R258, R260, R261, R264–R267: the Vault's port. One slot a cycle; the owner of the slot is served first, then an engine; a read gives the
line's bytes, a write stores the enabled ones, an atomic gives the old word and stores the sum or the operand; the host's atomic does so in a host
slot and gives all ones on poison; the scrubber goes a line at a time in idle slots; clearing leaves every byte 0. Rests in part on choices of the
model, log entries 2, 6 and 45. -/
def Obligations.VaultPort : Prop :=
  ∀ (s : State) (who : Requester) (line : Fin 524288) (bytes : List (Option Byte)) (w : Fin 4) (swap pooled : Bool) (x : Dword) (o : Fin 8) (h k : Nat)
    (reqs : List VaultRequest) (rest : List BusReq), s.wf = true →
    let a := 32 * line.val
    let q (op : LineOp) : VaultRequest := ⟨who, line, op, ⟨0, 0⟩⟩
    let clean (op : LineOp) : Instr := .vaultAccess [q op]
    let open' (op : LineOp) : Prop := s.vlt.granted = false ∧ s.flag ASY_SEC_STAT.loading = false ∧ s.counts (q op) = true ∧
      s.winner [q op] = some (reqCode who, pooled, if reqCode who = 0 then reqNum who else 0)
    let ready (c : Nat) : Prop := s.classReady c = true ∨ ∃ r ∈ reqs, s.counts r = true ∧ reqCode r.who = c
    let slot := s.vlt.granted = false ∧ s.winner [] = some (3, pooled, k)
    let word (w : Nat) : Dword := s.vlt.word w
    let stores (p : Nat) (new : Dword) (u : State) : Prop :=
      ∀ k, u.vlt.byte k = if p ≤ k ∧ k < p + 8 then BitVec.ofNat 8 (new.toNat / 2 ^ (8 * (k - p))) else s.vlt.byte k
    let op (old v : Dword) : Dword := if swap then v else old + v
    let busy : Prop := ∃ w sw v, BusReq.atomic w sw v ∈ s.vlt.host
    let idle := s.vlt.granted = false ∧ s.winner [] = none
    (s.vlt.granted = true ∨ s.winner reqs = none → Nothing (.vaultAccess reqs) s) ∧
    (s.vlt.granted = false → s.winner reqs ≠ none → Gives (.vaultAccess reqs) s (fun u => u.vlt.granted = true)) ∧
    (slotOwner s.vlt.pos = o.val → o.val < 7 → ready o.val → ∃ k, s.winner reqs = some (o.val, false, k)) ∧
    (slotOwner s.vlt.pos = o.val → 0 < o.val → o.val < 7 → ¬ ready o.val → ready 0 → ∃ k, s.winner reqs = some (0, false, k)) ∧
    (open' .read → (∀ k < 4, s.vlt.poisoned (4 * line + k) = false) → Gives (clean .read) s (fun u => VaultKept s u ∧ u.vlt.granted = true ∧
      u.vlt.use[Fin.ofNat 8 (reqCode who)] = s.vlt.use[Fin.ofNat 8 (reqCode who)] + 1 ∧
      ∀ j < 32, (u.read.getD (j / 4) 0).toNat / 2 ^ (8 * (j % 4)) % 256 = (s.vlt.byte (a + j)).toNat)) ∧
    (open' (.write bytes) → bytes.length ≤ 32 → Gives (clean (.write bytes)) s (fun u =>
      ∀ k, u.vlt.byte k = if a ≤ k ∧ k < a + bytes.length then (bytes.getD (k - a) none).getD (s.vlt.byte k) else s.vlt.byte k)) ∧
    (open' (.atomic w swap x) → s.vlt.poisoned (4 * line + w) = false → Gives (clean (.atomic w swap x)) s (fun u =>
      u.read = [loWord (word (4 * line + w)), hiWord (word (4 * line + w))] ∧ stores (a + 8 * w) (op (word (4 * line + w)) x) u)) ∧
    (busy → exec (.hostAtomicGo swap) s = .next (s.raise VLT_STAT.atom_busy)) ∧
    (¬ busy → exec (.hostAtomicGo swap) s = .next ({ s with vlt := { s.vlt with
      host := s.vlt.host ++ [BusReq.atomic (s.get VLT_ATOM_ADDR.addr) swap (s.rd64 VLT_ATOM_OPND)] } }.set VLT_ATOM_CMD.done' 0)) ∧
    (s.vlt.granted = true ∨ (∀ p k, s.winner [] ≠ some (3, p, k)) ∨ (∀ w sw v, s.vlt.host.head? ≠ some (BusReq.atomic w sw v)) → ∀ e, Nothing (.hostAtomicApply e) s) ∧
    (slot → s.vlt.host = .atomic h swap x :: rest → s.flag ASY_SEC_STAT.loading = false → s.vlt.poisoned h = false → Gives (.hostAtomicApply ⟨0, 0⟩) s (fun u =>
      u.rd64 VLT_ATOM_RES = word h ∧ u.flag VLT_ATOM_CMD.poison = false ∧ u.flag VLT_ATOM_CMD.done' = true ∧ u.vlt.host = rest ∧
      stores (8 * h) (op (word h) x) u)) ∧
    (slot → s.vlt.host = .atomic h swap x :: rest → s.vlt.poisoned h = true → Gives (.hostAtomicApply ⟨0, 0⟩) s (fun u =>
      u.rd64 VLT_ATOM_RES = BitVec.allOnes 64 ∧ u.flag VLT_ATOM_CMD.poison = true ∧ u.flag VLT_ATOM_CMD.done' = true ∧ VaultKept s u)) ∧
    (s.scrubDue = false ∨ ¬ idle → ∀ e, Nothing (.scrubRead e) s) ∧
    (s.scrubDue = true → idle → ∀ e, Gives (.scrubRead e) s (fun u => VaultKept s u ∧ u.vlt.granted = true ∧
      u.vlt.scrubLine = (if s.vlt.scrubLine + 1 < 524288 then s.vlt.scrubLine + 1 else 0) ∧ u.vlt.scrubTally = s.tally)) ∧
    (s.vlt.fix = [] ∨ s.flag VLT_CTRL.scrub_en = false ∨ ¬ idle → Nothing .scrubRewrite s) ∧
    (∀ f l, s.vlt.fix = f :: l → s.flag VLT_CTRL.scrub_en = true → idle →
      exec .scrubRewrite s = .next { s with vlt := { s.vlt with fix := l, granted := true, use := vmod s.vlt.use 7 (· + 1) } }) ∧
    Gives .vaultClrPeak s (fun u => (∀ c < 8, u.get (VLT_USE.peak c) = 0) ∧ u.vlt = s.vlt) ∧
    (s.flag FLT_BOOT.vault_clr = true ∨ s.resetLow = true → Nothing .vaultClearDone s) ∧
    (s.flag FLT_BOOT.vault_clr = false → s.resetLow = false → Gives .vaultClearDone s (fun u => (∀ k, u.vlt.byte k = 0 ∧ u.vlt.poisoned k = false) ∧
      u.flag FLT_BOOT.vault_clr = true ∧ u.flag GBL_HOST.ready = true))

/-! ### Analogue acquisition (spec/11) -/

/-- Part of R270–R275: the sample groups: their triggers, passes and the commands on them. A trigger that fires on a free group begins a pass with the
group's settings as they stand; one that is behind fires late in the next cycle; a slot that is due is sampled by every member that can sample, and
another counts it as skipped. Rests in part on choices of the model, log entries 2, 46 and 47. -/
def Obligations.GroupTriggers : Prop :=
  ∀ (s : State) (g : Fin 8) (v : Word) (tag : Byte) (t : Time) (p : Pass), s.wf = true →
    let x := s.adc.grp[g]
    let en := s.flag (ADC_GCFG.en g)
    let on := v.getLsbD 31
    let mod (f : Group → Group) (s : State) : State := { s with adc := { s.adc with grp := vmod s.adc.grp g f } }
    let keeps (p : Pass) : Bool := p.next == 0 || p.again || p.next % p.len != 0 || p.running != 0
    let stopped : Option Pass := (x.pass.map fun p => { p with again := false }).filter keeps
    let begins (r : Trig) : Pass :=
      { trig := r, cyc := s.tb.cyc, len := s.get (ADC_GCFG.len g) + 1, spacing := s.get (ADC_GCFG.spacing g), members := s.members g,
        again := s.flag (ADC_GCFG.repeat' g), next := 0, running := 0 }
    let free := x.pass = none ∧ s.adcOn = true
    let late (r : Trig) : List Trig := x.soon ++ [{ r with at' := s.nextNow, late := true }]
    let grp (u : State) : Group := u.adc.grp[g]
    let fired : Trig := if s.now.toNat ≤ t.toNat ∧ t.toNat < s.now.toNat + 2 ^ 39 then ⟨3, t, false, tag, BitVec.allOnes 32⟩
      else ⟨3, s.nextNow, true, tag, BitVec.allOnes 32⟩
    let gtime := s.rd64 (ADC_GTIME g)
    let period := s.get (ADC_GPER.period g)
    (en = false → ∀ o, Nothing (.channelTrigger g o tag) s) ∧
    (en = true → x.chan.isSome = true → ∀ o, exec (.channelTrigger g o tag) s =
      .next ((s.set (ADC_GSTAT.chan_drops g) (satInc (s.get (ADC_GSTAT.chan_drops g)) 255)).raise (ADC_GSTAT.chan_drop g))) ∧
    (en = true → x.chan = none → t.toNat < s.now.toNat ∨ s.nextNow.toNat ≤ t.toNat →
      exec (.channelTrigger g (some t) tag) s = .next (mod (fun y => { y with chan := some fired }) s)) ∧
    (en = true → x.chan = none → s.now.toNat ≤ t.toNat → t.toNat < s.nextNow.toNat → free →
      exec (.channelTrigger g (some t) tag) s = .next (mod (fun y => { y with pass := some (begins ⟨3, t, false, tag, BitVec.allOnes 32⟩) }) s)) ∧
    (en = false → Nothing (.hostTrigger g) s) ∧
    (en = true → exec (.hostTrigger g) s = .next (mod (fun y => { y with soon := y.soon ++ [⟨4, s.nextNow, false, 0, BitVec.allOnes 32⟩] }) s)) ∧
    exec (.gtimeArm g v) s = .next (mod (fun y => { y with timeArmed := true }) (s.wr (ADC_GTIME g + 4) v)) ∧
    exec (.groupStop g) s = .next (mod (fun y => { y with pass := stopped }) s) ∧
    exec (.groupClrCounts g) s = .next ((s.wr (ADC_GCNT g) 0).set (ADC_GSTAT.chan_drops g) 0) ∧
    (en = false → exec (.groupEnableWrite g v) s = .next (s.plainWrite (ADC_GCFG g) v)) ∧
    (en = true → on = true → Nothing (.groupEnableWrite g v) s) ∧
    (en = true → on = false → exec (.groupEnableWrite g v) s = .next (mod (fun y =>
      { y with timeArmed := false, targets := [], evt := none, chan := none, soon := [], pass := stopped }) (s.set (ADC_GCFG.en g) 0))) ∧
    (s.timeDue g = false → Nothing (.timeTrigger g) s) ∧
    (s.timeDue g = true → free → s.now.toNat ≤ gtime.toNat → Gives (.timeTrigger g) s (fun u =>
      (grp u).pass = some (begins ⟨0, gtime, false, 0, BitVec.allOnes 32⟩) ∧
      (period ≠ 0 → u.rd64 (ADC_GTIME g) = gtime + BitVec.ofNat 64 period ∧ (grp u).timeArmed = true) ∧
      (period = 0 → u.flag (ADC_GCFG.time_en g) = false ∧ (grp u).timeArmed = false))) ∧
    (s.timeDue g = true → gtime.toNat < s.now.toNat → Gives (.timeTrigger g) s (fun u => (grp u).soon = late ⟨0, gtime, false, 0, BitVec.allOnes 32⟩ ∧ (grp u).pass = x.pass)) ∧
    ((∀ q, x.targets.head? = some q → s.nextNow.toNat ≤ q.1.toNat) → Nothing (.angleTargetFire g) s) ∧
    (∀ a l, x.targets = (t, a) :: l → s.now.toNat ≤ t.toNat → t.toNat < s.nextNow.toNat → free → exec (.angleTargetFire g) s =
      .next (mod (fun y => { y with targets := l, pass := some (begins ⟨1, t, false, 0, BitVec.ofNat 32 a⟩) }) s)) ∧
    ((∀ q, x.evt = some q → s.nextNow.toNat ≤ q.toNat) → Nothing (.eventTrigger g) s) ∧
    (x.evt = some t → s.now.toNat ≤ t.toNat → t.toNat < s.nextNow.toNat → free → exec (.eventTrigger g) s =
      .next (mod (fun y => { y with evt := none, pass := some (begins ⟨2, t, false, BitVec.ofNat 8 (s.get (ADC_GEVT.event g)), BitVec.allOnes 32⟩) }) s)) ∧
    (x.evt = some t → s.now.toNat ≤ t.toNat → t.toNat < s.nextNow.toNat → x.pass = some p → p.cyc ≠ s.tb.cyc → s.adcOn = true → Gives (.eventTrigger g) s (fun u =>
      (grp u).pass = some p ∧ (grp u).evt = none ∧ u.flag (ADC_GSTAT.overrun g) = true ∧ s.tally ∈ (grp u).flagged)) ∧
    (s.slotDue g = false → Nothing (.slotSample g) s) ∧
    (s.slotDue g = true → x.pass = some p → p.members ≠ [] → s.adcOn = true → (∀ c ∈ p.members, s.canSample c p.instant = true) → Gives (.slotSample g) s (fun u =>
      (grp u).pass = some { p with next := p.next + 1, running := p.running + p.members.length } ∧ u.regs = s.regs ∧
      (∀ c ∈ p.members, (u.adc.conv[c]).last = some p.instant ∧ ∃ r, (u.adc.conv[c]).run = some r ∧ r.at' = p.instant ∧ r.use = .slot g ∧
        r.input = BitVec.ofNat 2 (s.get (ADC_SEQ.in' c (p.next % p.len)))) ∧
      ∀ c : Fin 24, c ∉ p.members → u.adc.conv[c] = s.adc.conv[c])) ∧
    (s.slotDue g = true → x.pass = some p → s.adcOn = true → ∀ c ∈ p.members, s.canSample c p.instant = false → Gives (.slotSample g) s (fun u =>
      u.flag (ADC_CSTAT.skipped c) = true ∧ u.adc.conv[c] = s.adc.conv[c] ∧ VaultKept s u))

/-- Part of R220–R222, R268–R270, R275, R276, R283–R285: urgent requests, the ends of conversions and the window reducers. The raw code is the rounded
value of its range's formula, to 16 bits; the corrected result is the raw code times gain plus offset, rounded, and saturates. A window that has
closed is published once the conversions before its close are corrected. Rests in part on choices of the model, log entries 2, 7 and 47. -/
def Obligations.ConversionsAndReducers : Prop :=
  ∀ (s : State) (c : Fin 24) (r : Fin 4) (input : BitVec 2) (addr : BitVec 24) (ch : Fin 512) (g : Fin 8) (vin : Int) (vext : Nat) (a b : Dword) (v : Word)
    (x : Conversion) (tc : Time) (loss : Bool), s.wf = true →
    let conv := s.adc.conv[c]
    let red (u : State) : Reducer := (u.adc.conv[c]).red[r]
    let me := red s
    let modC (f : Converter → Converter) (s : State) : State := { s with adc := { s.adc with conv := vmod s.adc.conv c f } }
    let modR (f : Reducer → Reducer) (s : State) : State := modC (fun y => { y with red := vmod y.red r f }) s
    let vref : Nat := if x.ext then vext else 1500000000
    let num : Int := if x.range = 1 then 65536 * vin else if x.range = 2 then 32768 * (2 * vin - vref) else 32768 * vin
    let raw := BitVec.ofInt 16 (min (max ((2 * num + vref) / (2 * vref)) (-32768)) 32767)
    let past : Bool := if x.range = 1 then decide (vref < 2 * vin.natAbs) else if x.range = 2 then decide (vin < 0 ∨ vref < vin) else decide (vref < vin.natAbs)
    let y : Int := if past then (if raw.msb then -32768 else 32768) else (raw.toInt * x.gain + x.ofs * 2 ^ 18 + 2 ^ 21) / 2 ^ 22
    let code := BitVec.ofInt 16 (min (max y (-32767)) 32767)
    let ends := conv.run = some x ∧ x.at'.toNat + 1520 < s.nextNow.toNat
    let plain := ends ∧ vref ≠ 0 ∧ ∀ k < 4, s.flag (ADC_RCFG.en c k) = false
    let en := s.flag (ADC_RCFG.en c r)
    let on := v.getLsbD 31
    let t := s.plainWrite (ADC_RCFG c r) v
    (s.adcOn = true → conv.urgent.length < 4 → exec (.urgentRequestArrival c input addr ch) s =
      .next (modC (fun z => { z with urgent := z.urgent ++ [⟨input, addr, ch, s.tb.cyc⟩] }) s)) ∧
    (s.adcOn = false ∨ 4 ≤ conv.urgent.length → Gives (.urgentRequestArrival c input addr ch) s (fun u =>
      (∃ k, u.adc.queue = s.adc.queue ++ [.urgent addr.toNat (urgentRec c input noTime false k) ch (s.now + 3200)]) ∧ u.adc.conv = s.adc.conv ∧
      (s.adcOn = true → u.flag (ADC_CSTAT.urg_ovf c) = true))) ∧
    (∀ q l, conv.urgent = q :: l → s.adcOn = true → q.cyc < s.tb.cyc → conv.ended ≤ s.tb.cyc → s.canSample c s.now = true →
      Gives (.urgentConversion c) s (fun u => (u.adc.conv[c]).urgent = l ∧ u.regs = s.regs ∧ (u.adc.conv[c]).last = some s.now ∧
      ∃ z, (u.adc.conv[c]).run = some z ∧ z.at' = s.now ∧ z.input = q.input ∧ z.use = .urgent q.addr q.ch)) ∧
    (∀ q l, conv.urgent = q :: l → s.adcOn = false → Gives (.urgentConversion c) s (fun u => (u.adc.conv[c]).urgent = l ∧
      ∃ k, u.adc.queue = s.adc.queue ++ [.urgent q.addr.toNat (urgentRec c q.input noTime false k) q.ch (s.now + 3200)])) ∧
    (s.adcOn = true → conv.run.isSome = true ∨ s.canSample c s.now = false → Nothing (.urgentConversion c) s) ∧
    (s.canSample c s.now = true → conv.run = none ∧ ∀ p, conv.last = some p → p.toNat + 1600 ≤ s.now.toNat) ∧
    (conv.run = none ∨ (conv.run = some x ∧ s.nextNow.toNat ≤ x.at'.toNat + 1520) → Nothing (.conversionEnd c vin vext) s) ∧
    (ends → Gives (.conversionEnd c vin vext) s (fun u => (u.adc.conv[c]).run = none ∧ (u.adc.conv[c]).ended = s.tb.cyc + 1 ∧ VaultKept s u)) ∧
    (plain → x.use = .cal → Gives (.conversionEnd c vin vext) s (fun u => u.adc.sample = some (raw, code) ∧
      u.adc.cal = s.adc.cal.map fun p => { p with taken := p.taken + 1, sum := p.sum + raw.toInt })) ∧
    (plain → x.use = .urgent addr ch → Gives (.conversionEnd c vin vext) s (fun u =>
      u.adc.queue = s.adc.queue ++ [.urgent addr.toNat (urgentRec c x.input x.at' true code) ch (s.now + 3200)] ∧
      (y < -32767 ∨ 32767 < y → u.flag (ADC_CSTAT.sat c) = true))) ∧
    (plain → x.use = .slot g → Gives (.conversionEnd c vin vext) s (fun u => u.adc.queue = s.adc.queue ∧
      u.adc.recs.map (·.cells) = s.adc.recs.map fun q => if q.group = g ∧ q.at' = x.at' ∧ q.trig = false then
        q.cells.map fun p => if p.1 = c ∧ p.2 = none then (c, some code) else p else q.cells)) ∧
    (en = false → Nothing (.windowSubmit c r a b) s) ∧
    (en = true → me.active = true → exec (.windowSubmit c r a b) s = .next (modR (fun z => { z with next := some (a, b) }) s)) ∧
    (en = true → me.active = false → exec (.windowSubmit c r a b) s =
      .next (modR (fun z => { z with active := true, start := a, stop := b, opened := false, lost := false, acc := RedAcc.reset }) s)) ∧
    (s.closeDue c r = none → Nothing (.windowClose c r) s) ∧
    (en = true → me.active = true → me.closed = none → s.flag (ADC_RCFG.kind c r) = false → me.stop.toNat ≤ s.now.toNat →
      exec (.windowClose c r) s = .next (modR (fun z => { z with closed := some (s.now, false) }) s)) ∧
    (en = true → me.active = true → me.closed = none → s.flag (ADC_RCFG.kind c r) = true → me.lost = true →
      exec (.windowClose c r) s = .next (modR (fun z => { z with closed := some (s.now, true) }) s)) ∧
    (me.closed = none → Nothing (.windowPublish c r) s) ∧
    (me.closed = some (tc, loss) → conv.run = none → s.parkHold = false → Gives (.windowPublish c r) s (fun u =>
      (∃ p : Vector Dword 8, (red u).pub = some p ∧ p[0] = BitVec.ofInt 64 me.acc.sum ∧ p[7].toNat % 2 ^ 32 = (me.seq.toNat + 1) % 2 ^ 32) ∧
      (red u).seq = me.seq + 1 ∧ (red u).closed = none ∧ (red u).next = none ∧ (red u).acc = RedAcc.reset ∧ VaultKept s u ∧
      (me.next = some (a, b) → (red u).active = true ∧ (red u).start = a ∧ (red u).stop = b) ∧
      (me.next = none → (red u).active = s.flag (ADC_RCFG.mode c r)) ∧
      (s.flag (ADC_RCFG.notify c r) = true → s.get (ADC_RCFG.channel c r) = ch → (u.rd (TLR_CH_PEND ch)).getLsbD 12 = true))) ∧
    (en = true → on = true → Nothing (.reducerEnable c r v) s) ∧
    (en = true → on = false → exec (.reducerEnable c r v) s =
      .next (modR (fun z => { z with active := false, closed := none, next := none }) (s.set (ADC_RCFG.en c r) 0))) ∧
    (en = false → on = false → exec (.reducerEnable c r v) s = .next t) ∧
    (en = false → on = true → exec (.reducerEnable c r v) s = .next (modR (fun z =>
      { z with active := true, start := s.rd64 (ADC_RSTART c r), stop := s.rd64 (ADC_REND c r), opened := false, lost := false, closed := none, next := none,
               acc := RedAcc.reset, seq := 0, pub := none }) t))

/-- Part of R277–R282: the writer, the frame's end, the ring and calibration. The writer's oldest request is made in its slot: bytes, a count or an urgent
record; the Tally record of a frame that is due is appended to the ring; a calibration point keeps the rounded mean of its samples. Rests in part on
choices of the model, log entries 2, 46 and 47. -/
def Obligations.RingAndCalibration : Prop :=
  ∀ (s : State) (v : Word) (a : Nat) (b : List (Option Byte)) (bs : List Byte) (ch : Fin 512) (due : Time) (l : List WriterItem) (f : Frame) (p : CalPoint) (pooled : Bool) (k : Nat),
    s.wf = true →
    let slot := s.vlt.granted = false ∧ s.winner [] = some (1, pooled, k)
    let t := s.plainWrite ADC_RING_CTRL v
    let w := s.plainWrite ADC_CAL_CTRL v
    let stores (a : Nat) (b : List (Option Byte)) (u : State) : Prop :=
      ∀ k, u.vlt.byte k = if a ≤ k ∧ k < a + b.length then (b.getD (k - a) none).getD (s.vlt.byte k) else s.vlt.byte k
    let size := 32 * s.get ADC_RING_SIZE.lines
    let wr := s.get ADC_RING_WR.offset
    let c : Fin 24 := Fin.ofNat 24 (w.get ADC_CAL_CTRL.input / 4)
    let open' := (s.flag (ADC_CCFG.member c) && s.flag (ADC_GCFG.en (s.get (ADC_CCFG.group c)))) = false
    let slow (u : State) : Prop := due.toNat < s.now.toNat → u.flag ADC_STAT.wr_slow = true
    (s.vlt.granted = true ∨ (∀ p k, s.winner [] ≠ some (1, p, k)) → ∀ e, Nothing (.writerLineWrite e) s) ∧
    (s.adc.queue = [] → s.classReady 1 = false) ∧
    (slot → s.adc.queue = .bytes a b due :: l → a < 0x1000000 → ∀ e, Gives (.writerLineWrite e) s (fun u => stores a b u ∧ u.adc.queue = l ∧ u.vlt.granted = true ∧ slow u)) ∧
    (slot → s.adc.queue = .count a due :: l → a % 8 = 0 → s.vlt.poisoned (a / 8) = false → Gives (.writerLineWrite ⟨0, 0⟩) s (fun u => u.adc.queue = l ∧ u.vlt.granted = true ∧ slow u ∧
      u.vlt.word (a / 8) = s.vlt.word (a / 8) + 1 ∧ ∀ k, k < a ∨ a + 8 ≤ k → u.vlt.byte k = s.vlt.byte k)) ∧
    (slot → s.adc.queue = .urgent a bs ch due :: l → ∀ e, Gives (.writerLineWrite e) s (fun u => stores a (bs.map some) u ∧ u.adc.queue = l ∧ u.vlt.granted = true ∧ slow u ∧
      (u.rd (TLR_CH_PEND ch)).getLsbD 12 = true)) ∧
    (s.adc.frame = none ∨ s.frameDue = false → Nothing .frameClose s) ∧
    (s.adc.frame = some f → s.frameDue = true → Gives .frameClose s (fun u => u.adc.frame = none ∧ VaultKept s u ∧
      (s.flag ADC_RING_CTRL.en = true → s.flag ADC_RING_CTRL.stop_full = false → wr < size → size ≤ 2 ^ 24 → u.get ADC_RING_WR.offset = (wr + 16) % size))) ∧
    (t.flag ADC_RING_CTRL.en = false → exec (.ringEnable v) s = .next t) ∧
    (t.flag ADC_RING_CTRL.en = true → exec (.ringEnable v) s = .next (let ring := { s.adc with hold := [], queue := s.adc.queue ++ s.adc.after, after := [], need := 0 };
      { t.wr ADC_RING_WR 0 with adc := ring })) ∧
    (v.getLsbD 31 = false ∨ s.adc.cal.isSome = true → exec (.calibrationGo v) s = .next w) ∧
    (v.getLsbD 31 = true → s.adc.cal = none → ¬ open' → exec (.calibrationGo v) s = .next ((w.raise ADC_STAT.cal_err).set ADC_CAL_STAT.err 1)) ∧
    (v.getLsbD 31 = true → s.adc.cal = none → open' → Gives (.calibrationGo v) s (fun u => u.flag ADC_CAL_STAT.busy = true ∧
      u.adc.cal = some ⟨w.get ADC_CAL_CTRL.input, w.get ADC_CAL_CTRL.range, w.flag ADC_CAL_CTRL.point, w.get ADC_CAL_CTRL.e, 0, 0, s.nextNow⟩)) ∧
    ((∀ q, s.adc.cal = some q → q.taken < 2 ^ q.e) → Nothing .calibrationComplete s) ∧
    (s.adc.cal = some p → 2 ^ p.e ≤ p.taken → p.full = false → Gives .calibrationComplete s (fun u => u.adc.cal = none ∧ u.flag ADC_CAL_STAT.busy = false ∧
      u.flag ADC_CAL_STAT.zero_held = true ∧ u.flag ADC_STAT.cal_done = true ∧
      ∃ m : Int, 2 * (m * 2 ^ p.e - 256 * p.sum).natAbs ≤ 2 ^ p.e ∧ u.rd ADC_CAL_MEAN = wordOfInt m ∧ u.adc.zero = some (p.input, p.range, m))) ∧
    (s.adc.cal = some p → 2 ^ p.e ≤ p.taken → p.full = true → s.adc.zero = none → Gives .calibrationComplete s (fun u => u.adc.cal = none ∧
      u.flag ADC_CAL_STAT.busy = false ∧ u.flag ADC_STAT.cal_err = true ∧ u.get ADC_CAL_STAT.err = 2)) ∧
    (∀ z : Int, s.adc.cal = some p → 2 ^ p.e ≤ p.taken → p.full = true → s.adc.zero = some (p.input, p.range, z) →
      let m : Int := (512 * p.sum + 2 ^ p.e) / (2 * 2 ^ p.e)
      let dt := signExt 16 (s.get ADC_CAL_TGT.t1) - signExt 16 (s.get ADC_CAL_TGT.t0)
      let gain := roundDiv (dt * 2 ^ 30) (m - z)
      let ofs := roundDiv (signExt 16 (s.get ADC_CAL_TGT.t0) * 2 ^ 30 - gain * z) (2 ^ 26)
      let k := 4 * p.input + p.range
      262144 ≤ (m - z).natAbs → 0 ≤ (m - z) * dt → 0x200000 ≤ gain → gain ≤ 0x5FFFFF → ofs.natAbs ≤ 524272 → Gives .calibrationComplete s (fun u =>
        u.get (ADC_CAL_GAIN.gain k) = gain.toNat ∧ signExt 20 (u.get (ADC_CAL_OFS.offset k)) = ofs ∧ u.adc.cal = none ∧ u.flag ADC_STAT.cal_done = true))

/-! ### DMA, the Daybook and Ethernet (spec/12, spec/13) -/

/-- Part of R289–R293, R301–R303, R306–R308, R319: the commands on a DMA channel: arming a valid shadow set, taking it back, loading it, pace credit,
pause, abort, a bus error that halts the engine, and the snapshot of the current set. A set loads only if it was ready when its cycle began; a disarm
of that cycle does not keep it from loading. Rests in part on choices of the model, log entries 2 and 48. -/
def Obligations.DmaControl : Prop :=
  ∀ (s : State) (n : Fin 32) (pulsed : Bool) (kind : BitVec 4) (addr : Dword) (x : DmaXfer), s.wf = true →
    let c := s.dma.chan[n]
    let st := s.get (DMA_STAT.state n)
    let ready := s.flag (DMA_STAT.sh_ready n)
    let copier := (s.copierOf n).isSome
    let mod (f : DmaChan → DmaChan) (s : State) : State := { s with dma := { s.dma with chan := vmod s.dma.chan n f } }
    let src := (s.rd64 (DMA_SH_SRC n)).toNat
    let dst := (s.rd64 (DMA_SH_DST n)).toNat
    let len := (s.rd (DMA_SH_LEN n)).toNat
    let plane := (s.rd (DMA_SH_PLANE n)).toNat
    let shuffle := s.get (DMA_SH_CFG.shuffle n)
    let swap := s.get (DMA_SH_CFG.swap n)
    let unit : Nat := if swap = 1 then 2 else if swap = 2 ∨ swap = 3 then 4 else if swap = 4 then 8 else 1
    let e : Nat := 2 ^ (s.get (DMA_SH_FRM.esize n) + 1)
    let valid : Prop := len ≠ 0 ∧ (shuffle ≠ 0 → n.val < 8 ∧ swap = 0 ∧ src % e = 0 ∧ dst % e = 0 ∧ plane % e = 0 ∧ len * e ≤ plane) ∧
      (swap ≠ 0 → 24 ≤ n.val ∧ src % unit = 0 ∧ dst % unit = 0 ∧ len % unit = 0) ∧
      (s.get (DMA_SH_CFG.atomic n) ≠ 0 → shuffle = 0 ∧ swap = 0 ∧ len = 8 ∧ dst % 8 = 0 ∧ dst < 2 ^ 24 ∧ (plane = 2 ^ 32 - 1 ∨ plane % 8 = 0 ∧ plane < 2 ^ 24))
    let y := s.shadowSet n
    let trig : Bool := fieldOf y.cfg (DMA_SH_CFG.trig_en 0) == 1
    let halted := s.flag DMA_GSTAT.halted
    let free := halted = false ∧ st = 0 ∧ s.parking = false ∧ c.was = true
    let others (u : State) : Prop := ∀ m : Fin 32, m ≠ n → u.dma.chan[m] = s.dma.chan[m]
    let data (u : State) : Prop := u.vlt = s.vlt ∧ u.dbk.mem = s.dbk.mem
    let drained : Prop := x.issued = [] ∧ x.buf = [] ∧ ∀ k, x.drainEnd = some k → k ≤ x.moved
    let w32 (x : Nat) : Word := BitVec.ofNat 32 x
    (ready = true ∨ copier = true → exec (.dmaArm n) s = .next (s.raise (DMA_STAT.sh_locked n))) ∧
    (ready = false → copier = false → valid → exec (.dmaArm n) s = .next (s.raise (DMA_STAT.sh_ready n))) ∧
    (ready = false → copier = false → ¬ valid → exec (.dmaArm n) s = .next (s.raise (DMA_STAT.cfg_err n))) ∧
    (ready = true → copier = false → exec (.dmaDisarm n) s = .next (mod (fun y =>
      { y with snap := if y.was ∧ y.snap = none then some (s.shadowRegs n) else y.snap }) (s.set (DMA_STAT.sh_ready n) 0))) ∧
    (ready = false ∨ copier = true → Nothing (.dmaDisarm n) s) ∧
    (trig = pulsed → free → Gives (.transferLoad n pulsed) s (fun u => u.get (DMA_STAT.state n) = (if s.flag (DMA_CTL.pause n) then 3 else 1) ∧
      (u.dma.chan[n]).xfer = some y ∧ (u.dma.chan[n]).was = false ∧ others u ∧ data u ∧ OnlyRegs [DMA_STAT n] s u ∧
      u.get (DMA_STAT.credit n) = (if pulsed = true ∧ fieldOf y.cfg (DMA_SH_CFG.pace_en 0) = 1 ∧
        fieldOf y.cfg (DMA_SH_CFG.trig_evt 0) = fieldOf y.cfg (DMA_SH_CFG.pace_evt 0) then 1 else 0) ∧
      (c.snap ≠ none → u.flag (DMA_STAT.sh_ready n) = ready) ∧
      (c.snap = none → u.flag (DMA_STAT.sh_ready n) = false ∧ y.src = src ∧ y.dst = dst ∧ y.len = len ∧ y.cfg = s.rd (DMA_SH_CFG n) ∧
        y.next = 0 ∧ y.moved = 0 ∧ y.issued = [] ∧ y.buf = [] ∧ y.written = 0))) ∧
    (trig = true → pulsed = true → ¬ free → exec (.transferLoad n true) s = .next
      ((s.set (DMA_CNT.trig_miss n) (satInc (s.get (DMA_CNT.trig_miss n)) 65535)).raise (DMA_STAT.trig_miss n))) ∧
    (trig ≠ pulsed ∨ (pulsed = false ∧ ¬ free) → Nothing (.transferLoad n pulsed) s) ∧
    (c.xfer = some x → fieldOf x.cfg (DMA_SH_CFG.pace_en 0) ≠ 0 → s.get (DMA_STAT.credit n) < 15 →
      exec (.pacePulse n) s = .next (s.set (DMA_STAT.credit n) (s.get (DMA_STAT.credit n) + 1))) ∧
    (c.xfer = some x → fieldOf x.cfg (DMA_SH_CFG.pace_en 0) ≠ 0 → s.get (DMA_STAT.credit n) = 15 → exec (.pacePulse n) s = .next
      ((s.set (DMA_CNT.pace_ovr n) (satInc (s.get (DMA_CNT.pace_ovr n)) 65535)).raise (DMA_STAT.pace_ovr n))) ∧
    (c.xfer = some x → fieldOf x.cfg (DMA_SH_CFG.pace_en 0) = 0 → Nothing (.pacePulse n) s) ∧
    (c.xfer = none → Nothing (.pacePulse n) s ∧ Nothing (.dmaAbort n) s ∧ Nothing (.busError n kind addr) s) ∧
    (c.xfer = none → st = 0 → ∀ p : Bool, exec (.dmaPause n p) s = .next (s.set (DMA_CTL.pause n) p.toNat)) ∧
    (c.xfer = some x → st = 1 → (x.atomic = 0 ∨ x.old ≠ none) → Gives (.dmaPause n true) s (fun u => u.flag (DMA_CTL.pause n) = true ∧ others u ∧ data u ∧
      OnlyRegs [DMA_STAT n, DMA_CTL n] s u ∧
      (x.drainEnd ≠ none → drained → u.get (DMA_STAT.state n) = 3 ∧ (u.dma.chan[n]).xfer = some { x with drainTo := none, lines := [] }) ∧
      (x.drainEnd = none ∨ ¬ drained → u.get (DMA_STAT.state n) = 2 ∧ (u.dma.chan[n]).xfer = some { x with drainTo := x.drainEnd }))) ∧
    (c.xfer = some x → st = 1 → x.atomic ≠ 0 → x.old = none → Gives (.dmaPause n true) s (fun u => u.flag (DMA_CTL.pause n) = true ∧ others u ∧ data u ∧
      OnlyRegs [DMA_STAT n, DMA_CTL n] s u ∧ u.get (DMA_STAT.state n) = 3 ∧ (u.dma.chan[n]).xfer = some x.discard ∧ ∀ w, (n, w) ∉ u.dma.queue)) ∧
    (st = 2 ∨ st = 3 → Gives (.dmaPause n false) s (fun u => u.flag (DMA_CTL.pause n) = false ∧ u.get (DMA_STAT.state n) = 1 ∧ others u ∧ data u ∧
      OnlyRegs [DMA_STAT n, DMA_CTL n] s u ∧ (c.xfer = some x → (u.dma.chan[n]).xfer = some { x with drainTo := none }))) ∧
    (c.xfer = some x → Gives (.dmaAbort n) s (fun u => u.get (DMA_STAT.state n) = 0 ∧ u.get (DMA_STAT.credit n) = 0 ∧ (u.dma.chan[n]).xfer = none ∧
      (u.dma.chan[n]).rest = x.cur ∧ (∀ w, (n, w) ∉ u.dma.queue) ∧ u.dma.serial ≠ some n ∧ others u ∧ data u ∧ OnlyRegs [DMA_STAT n] s u ∧
      ∀ m, s.copierOf n = some m → (u.dbk.stream[m]).copying = none)) ∧
    exec (.dmaClrCounts n) s = .next (s.wr (DMA_CNT n) 0) ∧
    (halted = true → Nothing (.busError n kind addr) s) ∧
    (c.xfer = some x → halted = false → Gives (.busError n kind addr) s (fun u => u.flag DMA_GSTAT.halted = true ∧ u.flag DMA_GSTAT.bus_err = true ∧
      u.flag (bitFld FLT_STAT 16) = true ∧ data u ∧ u.dma.queue = [] ∧ u.dma.serial = none ∧
      (s.flag DMA_GSTAT.bus_err = false → u.rd64 DMA_ERR_ADDR = addr ∧ u.get DMA_GSTAT.err_chan = n ∧ u.get DMA_GSTAT.err_kind = kind.toNat) ∧
      (s.flag DMA_GSTAT.bus_err = true → u.rd64 DMA_ERR_ADDR = s.rd64 DMA_ERR_ADDR) ∧
      (∀ m : Fin 32, (s.dma.chan[m]).xfer = none → u.dma.chan[m] = s.dma.chan[m]) ∧
      ∀ m : Fin 32, ∀ z, (s.dma.chan[m]).xfer = some z → u.get (DMA_STAT.state m) = 3 ∧ u.flag (DMA_CTL.pause m) = true ∧ (u.dma.chan[m]).xfer = some z.discard)) ∧
    exec .dmaRestart s = .next (s.set DMA_GSTAT.halted 0) ∧
    (∀ a b l, s.dmaCur n = (a, b, l) → exec (.curSrcRead n) s = .next (let latched := (((s.wr (DMA_CUR_SRC n + 4) (w32 (a % 2 ^ 64 / 2 ^ 32))).wr64
        (DMA_CUR_DST n) (BitVec.ofNat 64 b)).wr (DMA_CUR_LEN n) (w32 l));
      { latched with read := [w32 a] }))

/-- Part of R294–R299, R306: the DMA engine's accesses. A burst goes to the ready channel of the highest priority and asks for at most its burst length of
lines; a Vault access takes a slot that goes to the DMA class, in the order of the engine's queue, and an access of another space needs none. A line
that returns joins the transfer; a complete line is written; with everything written the channel is idle and its event is on the way. An address in no
space halts the engine with kind 1. That the next burst begins once the reads of the one before have been handed over is the model's choice (log entry
48). Rests in part on choices of the model, log entries 2 and 48. -/
def Obligations.DmaMoves : Prop :=
  ∀ (s : State) (n : Fin 32) (x : DmaXfer) (l : Nat) (rest : List Nat) (line : DmaLine) (r : DmaReply) (e : LineEcc) (pooled : Bool), s.wf = true →
    let chan := s.dma.chan[n]
    let holds : Prop := chan.xfer = some x
    let writes : Prop := s.flag DMA_GSTAT.halted = false ∧ (s.get (DMA_STAT.state n) = 1 ∨ s.get (DMA_STAT.state n) = 2)
    let slot : Prop := s.vlt.granted = false ∧ s.winner [] = some (2, pooled, 0)
    let others (u : State) : Prop := ∀ m : Fin 32, m ≠ n → u.dma.chan[m] = s.dma.chan[m]
    let reads : Prop := holds ∧ x.issued = l :: rest ∧ x.moved < x.total ∧ x.drainTo = none
    let takes (bytes : Nat → Byte) (u : State) : Prop := ∃ y bs, (u.dma.chan[n]).xfer = some y ∧ y.issued = rest ∧ x.moved ≤ y.moved ∧
      y.lines = (l, bs) :: x.lines.take 63 ∧ ∀ k < 32, bs.getD k 0 = bytes k
    let laid (a : Nat) (bs : List (Option Byte)) (was : Nat → Byte) (k : Nat) : Byte := if a ≤ k ∧ k < a + bs.length then (bs.getD (k - a) none).getD (was k) else was k
    let onlyVault : Prop := ∀ b ∈ x.buf, b.addr < 2 ^ 24
    let D := 32 * l - 0x40000000
    (s.flag DMA_GSTAT.halted = true ∨ s.arbitrate = none ∨ (∃ m, (m, false) ∈ s.dma.queue) → Nothing .burstStart s) ∧
    (s.flag DMA_GSTAT.halted = false → s.arbitrate = some n → holds → Gives .burstStart s (fun u => others u ∧ u.vlt = s.vlt ∧ u.dbk = s.dbk ∧ OnlyRegs [DMA_STAT n] s u ∧
      (s.dma.serial = none → ∀ m, s.burstReady m = true → s.chanPrio m ≤ s.chanPrio n) ∧
      (s.flag DMA_GCTRL.arb = true → u.dma.serial = some n) ∧
      u.get (DMA_STAT.credit n) = s.get (DMA_STAT.credit n) - (if fieldOf x.cfg (DMA_SH_CFG.pace_en 0) = 0 then 0 else 1) ∧
      ∃ y new, (u.dma.chan[n]).xfer = some y ∧ y.issued = x.issued ++ new ∧ new.length ≤ fieldOf x.cfg (DMA_SH_CFG.burst 0) + 1 ∧ x.load + new.length ≤ 32)) ∧
    (chan.xfer = none → Nothing (.dmaReadReturn n r) s ∧ Nothing (.dmaWriteIssue n e) s) ∧
    (holds → x.issued = [] → Nothing (.dmaReadReturn n r) s) ∧
    (reads → slot → s.dmaHead = some (n, false) → (∀ k ∈ x.issued, 32 * k < 2 ^ 24) → r.ecc = ⟨0, 0⟩ → (∀ k < 4, s.vlt.poisoned (4 * l + k) = false) →
      Gives (.dmaReadReturn n r) s (fun u => u.vlt.granted = true ∧ VaultKept s u ∧ u.regs = s.regs ∧ others u ∧ takes (fun k => s.vlt.byte (32 * l + k)) u)) ∧
    (reads → slot → s.dmaHead = some (n, false) → (∀ k ∈ x.issued, 32 * k < 2 ^ 24) → r.ecc = ⟨0, 0⟩ → (∃ k < 4, s.vlt.poisoned (4 * l + k) = true) →
      Gives (.dmaReadReturn n r) s (fun u => u.flag DMA_GSTAT.halted = true ∧ u.flag VLT_STAT.poison_rd = true ∧ VaultKept s u ∧
        (s.flag DMA_GSTAT.bus_err = false → u.get DMA_GSTAT.err_kind = 3 ∧ u.rd64 DMA_ERR_ADDR = BitVec.ofNat 64 (32 * l)))) ∧
    (reads → 0x40000000 ≤ 32 * l → 32 * l < 0x78000000 → r.ecc = ⟨0, 0⟩ →
      Gives (.dmaReadReturn n r) s (fun u => u.vlt = s.vlt ∧ DaybookKept s u ∧ u.regs = s.regs ∧ others u ∧ takes (fun k => s.dbk.byte (D + k)) u)) ∧
    (reads → 2 ^ 63 ≤ 32 * l → 32 * l < 2 ^ 64 → s.hostShut = none → r.err = none →
      Gives (.dmaReadReturn n r) s (fun u => u.vlt = s.vlt ∧ u.dbk = s.dbk ∧ u.regs = s.regs ∧ others u ∧ takes (fun k => r.host.getD k 0) u)) ∧
    (holds → x.issued = l :: rest → s.flag DMA_GSTAT.halted = false → spaceOf (32 * l % 2 ^ 64) = .nothing → Gives (.dmaReadReturn n r) s (fun u =>
      u.flag DMA_GSTAT.halted = true ∧ u.vlt = s.vlt ∧ u.dbk = s.dbk ∧
      (s.flag DMA_GSTAT.bus_err = false → u.get DMA_GSTAT.err_kind = 1 ∧ u.rd64 DMA_ERR_ADDR = BitVec.ofNat 64 (32 * l)))) ∧
    (¬ writes → Nothing (.dmaWriteIssue n e) s) ∧
    (holds → writes → x.buf.find? x.complete = some line → onlyVault → slot → s.dmaHead = some (n, true) → x.atomic = 0 →
      s.flag ASY_SEC_STAT.loading = false → Gives (.dmaWriteIssue n e) s (fun u => u.vlt.granted = true ∧ others u ∧ DaybookKept s u ∧
        ∀ k, u.vlt.byte k = laid line.addr line.bytes s.vlt.byte k)) ∧
    (holds → writes → x.buf.find? x.complete = some line → onlyVault → slot → s.dmaHead = some (n, true) → x.atomic ≠ 0 → x.old = none →
      s.flag ASY_SEC_STAT.loading = false → e = ⟨0, 0⟩ → x.dst % 8 = 0 → s.vlt.poisoned (x.dst / 8) = false →
      let v : Dword := BitVec.ofNat 64 (leValue ((line.bytes.drop (x.dst % 32)).take 8 |>.map fun b => b.getD 0))
      let old := s.vlt.word (x.dst / 8)
      let new := if x.atomic = 2 then v else old + v
      Gives (.dmaWriteIssue n e) s (fun u => others u ∧ DaybookKept s u ∧ (∀ k, u.vlt.byte k = laid x.dst ((leBytes 8 new.toNat).map some) s.vlt.byte k) ∧
        (x.plane.toNat ≠ 2 ^ 32 - 1 → ∃ y, (u.dma.chan[n]).xfer = some y ∧ y.old = some old))) ∧
    (holds → writes → s.mayIssue n = true → s.writeLineOf false n = some line → x.atomic = 0 → 0x40000000 ≤ line.addr → line.addr + line.bytes.length ≤ 0x78000000 →
      line.bytes ≠ [] → Gives (.dmaWriteIssue n e) s (fun u => u.vlt = s.vlt ∧ others u ∧
        ∀ k, u.dbk.byte k = laid (line.addr - 0x40000000) line.bytes s.dbk.byte k)) ∧
    (holds → writes → s.mayIssue n = true → s.writeLineOf false n = some line → x.atomic = 0 → 2 ^ 63 ≤ line.addr → line.addr < 2 ^ 64 → s.hostShut = none →
      Gives (.dmaWriteIssue n e) s (fun u => u.out = s.out ++ [.hostWrite (line.addr - 2 ^ 63) line.bytes] ∧ u.vlt = s.vlt ∧ DaybookKept s u ∧ others u)) ∧
    (holds → writes → s.mayIssue n = true → x.buf = [] → x.issued = [] → x.total ≤ x.moved → chan.was = false → s.copierOf n = none → Gives (.dmaWriteIssue n e) s (fun u =>
      u.get (DMA_STAT.state n) = 0 ∧ (u.dma.chan[n]).xfer = none ∧ u.dma.pulses = s.dma.pulses ++ [32 + n.val] ∧ u.vlt = s.vlt ∧ DaybookKept s u ∧ others u ∧
      OnlyRegs [DMA_STAT n] s u)) ∧
    (holds → writes → s.mayIssue n = true → x.buf = [] → x.issued = [] → x.total ≤ x.moved → chan.was = true → s.parking = false → s.copierOf n = none →
      fieldOf (s.shadowSet n).cfg (DMA_SH_CFG.trig_en 0) = 0 → Gives (.dmaWriteIssue n e) s (fun u =>
      u.get (DMA_STAT.state n) = (if s.flag (DMA_CTL.pause n) then 3 else 1) ∧ (u.dma.chan[n]).xfer = some (s.shadowSet n) ∧ u.dma.pulses = s.dma.pulses ++ [32 + n.val] ∧
      u.vlt = s.vlt ∧ DaybookKept s u ∧ others u))

/-- Part of R311–R316, R318–R323: the Daybook: throttling, staging lines, the copiers' transfers, seals and freezes, and the window. A seal of a recording
stream is accepted, any other is ignored; of two seals of one cycle the lower source counts. A frozen stream keeps its span until it is re-armed.
Rests in part on choices of the model, log entries 2 and 50. -/
def Obligations.DaybookCommands : Prop :=
  ∀ (s : State) (m : Fin 16) (t : Time) (v : Word) (temp : BitVec 16) (a : Nat) (bs : List Byte) (l : List (Nat × List Byte)) (b : Block) (q : Seal) (off : BitVec 28) (len : Nat)
    (e : LineEcc) (pooled : Bool), s.wf = true →
    let x := s.dbk.stream[m]
    let en := s.flag (DBK_CFG.en m)
    let adc := s.flag (DBK_CFG.kind m)
    let st := s.get (DBK_STAT.state m)
    let others (u : State) : Prop := ∀ j : Fin 16, j ≠ m → u.dbk.stream[j] = s.dbk.stream[j]
    let mod (f : Stream → Stream) (s : State) : State := { s with dbk := { s.dbk with stream := vmod s.dbk.stream m f } }
    let first : Nat := if s.tb.boundary then s.tally else s.tally + 1
    let sealed (source : Nat) (k : Time) : State := (mod (fun y => { y with
      accepted := some ⟨k.toNat / 8000, max first (k.toNat / 8000 + s.get (DBK_SPAN.post m) + 1), s.tb.cyc, source⟩, sealT := k }) s).set (DBK_STAT.state m) 1
    let hostT := s.rd64 (DBK_SEAL_TIME m)
    let ignored (c : Instr) : Prop := exec c s = .next (s.raise (DBK_STAT.seal_ign m))
    let displaced (source : Nat) (k : Time) : State := (sealed source k).raise (DBK_STAT.seal_ign m)
    let byEvent := s.flag (DBK_CFG.seal_evt_en m)
    let n : Fin 32 := Fin.ofNat 32 (s.get (DBK_CFG.dma m))
    let A := s.get DBK_WIN.base * 2 ^ 20 + off.toNat
    let off' := (s.plainWrite (DBK_CFG m) v).set (DBK_CFG.en m) 0
    let span : Nat := q.tally - s.get (DBK_SPAN.pre m)
    let kept := x.ring.filter fun k => decide (span ≤ k.tally)
    let ring := 65536 * s.get (DBK_RING.size m)
    (let z := if temp.toInt ≤ 1360 then 0 else if temp.toInt ≤ 1520 then 1 else 2
     Gives (.throttleChange temp) s (fun u => ReportOnly s u ∧ u.get DBK_GSTAT.throttle = z ∧ (z = 2 → s.get DBK_GSTAT.throttle ≠ 2 → u.flag (bitFld FLT_STAT 14) = true) ∧
       (z ≠ 2 ∨ s.get DBK_GSTAT.throttle = 2 → OnlyRegs [DBK_GSTAT] s u))) ∧
    (x.lines = [] → Nothing (.assemblerLineWrite m e) s) ∧
    (x.lines = (a, bs) :: l → a < 0x1000000 → s.vlt.granted = false → s.winner [] = some (5, pooled, 0) → (∀ j < m, (s.dbk.stream[j]).lines = []) →
      Gives (.assemblerLineWrite m e) s (fun u => u.vlt.granted = true ∧ u.dbk.stream[m] = { x with lines := l } ∧ others u ∧ DaybookKept s u ∧
        ∀ k, u.vlt.byte k = if a ≤ k ∧ k < a + bs.length then bs.getD (k - a) 0 else s.vlt.byte k)) ∧
    (s.nextCopy m = none → Nothing (.copierArm m) s) ∧
    (∀ src dst k, s.nextCopy m = some (src, dst, k) → Gives (.copierArm m) s (fun u => u.rd64 (DMA_SH_SRC n) = BitVec.ofNat 64 src ∧
      u.rd64 (DMA_SH_DST n) = BitVec.ofNat 64 dst ∧ u.rd (DMA_SH_LEN n) = BitVec.ofNat 32 k ∧ u.flag (DMA_STAT.sh_ready n) = true ∧ u.dbk.stream[m] = { x with copying := some k } ∧
      others u ∧ VaultKept s u ∧ DaybookKept s u ∧ OnlyRegs [DMA_SH_SRC n, DMA_SH_SRC n + 4, DMA_SH_DST n, DMA_SH_DST n + 4, DMA_SH_LEN n, DMA_SH_CFG n, DMA_STAT n] s u)) ∧
    (en = false → Nothing (.sealArrival m t) s ∧ Nothing (.hostSeal m) s ∧ Nothing (.sealEvent m) s) ∧
    (en = true → st = 0 → exec (.sealArrival m t) s = .next (sealed 1 t) ∧ exec (.hostSeal m) s = .next (sealed 2 hostT)) ∧
    (en = true → st = 0 → byEvent = true → exec (.sealEvent m) s = .next (sealed 0 s.now)) ∧
    (en = true → st ≠ 0 → x.accepted = some q → q.cyc ≠ s.tb.cyc ∨ st ≠ 1 → ignored (.sealArrival m t) ∧ ignored (.hostSeal m) ∧ (byEvent = true → ignored (.sealEvent m))) ∧
    (en = true → st = 1 → x.accepted = some q → q.cyc = s.tb.cyc → q.source ≤ 2 → ignored (.hostSeal m) ∧
      (q.source ≤ 1 → ignored (.sealArrival m t)) ∧ (q.source = 0 → byEvent = true → ignored (.sealEvent m)) ∧
      (q.source = 2 → exec (.sealArrival m t) s = .next (displaced 1 t)) ∧ (1 ≤ q.source → byEvent = true → exec (.sealEvent m) s = .next (displaced 0 s.now))) ∧
    (byEvent = false → Nothing (.sealEvent m) s) ∧
    (s.freezeDue m = false → Nothing (.streamFreeze m) s) ∧
    (s.freezeDue m = true → adc = true → x.used ≠ 0 → exec (.streamFreeze m) s = .next (mod (fun y => { y with freezing := true }) s)) ∧
    (s.freezeDue m = true → adc = true → x.used = 0 → x.accepted = some q → Gives (.streamFreeze m) s (fun u => u.get (DBK_STAT.state m) = 2 ∧ u.flag (DBK_STAT.sealed m) = true ∧
      (u.dbk.stream[m]).freezing = false ∧ u.rd (DBK_SEAL_POS m + 4) = BitVec.ofNat 32 (s.get (DBK_WR.offset m)) ∧
      (∀ k, kept.head? = some k → 0 < ring → u.rd (DBK_SEAL_POS m) = BitVec.ofNat 32 (k.pos % ring)) ∧
      (∀ k, x.passed = some k → span < k → u.flag (DBK_STAT.short_pre m) = true) ∧
      others u ∧ VaultKept s u ∧ DaybookKept s u ∧ OnlyRegs [DBK_STAT m, DBK_SEAL_POS m, DBK_SEAL_POS m + 4] s u)) ∧
    (st ≠ 2 → Nothing (.rearm m) s) ∧
    (st = 2 → exec (.rearm m) s = .next (mod (fun y => { y with accepted := none, open' := none, rd := if adc then s.get ADC_RING_WR.offset else y.wr }) (s.set (DBK_STAT.state m) 0))) ∧
    exec (.streamClrCount m) s = .next (s.set (DBK_STAT.lost_count m) 0) ∧
    (en = true → v.getLsbD 31 = true → Nothing (.streamEnable m v) s) ∧
    (en = true → v.getLsbD 31 = false → exec (.streamEnable m v) s = .next (s.set (DBK_CFG.en m) 0)) ∧
    (en = false → v.getLsbD 31 = false → exec (.streamEnable m v) s = .next off') ∧
    (en = false → v.getLsbD 31 = true → off'.streamRefused m = true → exec (.streamEnable m v) s = .next (off'.raise (DBK_STAT.cfg_err m))) ∧
    (en = false → v.getLsbD 31 = true → off'.streamRefused m = false → Gives (.streamEnable m v) s (fun u => u.flag (DBK_CFG.en m) = true ∧ u.get (DBK_STAT.state m) = 0 ∧
      u.rd64 (DBK_WR m) = 0 ∧ (u.dbk.stream[m]).closed = [] ∧ (u.dbk.stream[m]).used = 0 ∧ others u ∧ VaultKept s u ∧ DaybookKept s u ∧
      OnlyRegs [DBK_CFG m, DBK_STAT m, DBK_WR m, DBK_WR m + 4] s u)) ∧
    Gives .blockClose s (fun u => VaultKept s u ∧ DaybookKept s u ∧ (en = true → adc = false → x.open' = some b → b.tally ≠ s.tally → x.loss = none → 16 ≤ s.stagingRoom m →
      (u.dbk.stream[m]).open' = none ∧ ∃ c, (u.dbk.stream[m]).closed = x.closed ++ [c] ∧ c.len = b.len + 16 ∧ c.tally = b.tally)) ∧
    (0 < len → len ≤ 64 → off.toNat % 64 + len ≤ 64 → A + len ≤ 0x38000000 → Gives (.bar4Read off len []) s (fun u => DaybookKept s u ∧ u.vlt = s.vlt ∧ u.regs = s.regs ∧
      u.read.length = (len + 3) / 4 ∧ u.out = s.out ++ [.completion ((List.range len).map fun j => s.dbk.byte (A + j)) false] ∧
      ∀ j < len, (u.read.getD (j / 4) 0).toNat / 2 ^ (8 * (j % 4)) % 256 = (s.dbk.byte (A + j)).toNat)) ∧
    exec .bar4Write s = .next (s.raise DBK_GSTAT.win_wr)

/-- Part of R324–R329: Ethernet: sending and receiving frames, timestamps, the link, the PTP servo and telemetry packets. A frame under 60 bytes is
padded; a frame with an error, or one that finds four in the buffer, is counted and dropped; the host's frame goes ahead of the next telemetry frame.
That a pause frame is told by its type and opcode, and its unit of time, are presumed from the IEEE 802.3 clause that R324 names (log entry 29). Rests
in part on choices of the model, log entries 2, 29 and 36. -/
def Obligations.EthernetCommands : Prop :=
  ∀ (s : State) (m : Fin 2) (v : Word) (bytes f : List Byte) (sfd at' : Time) (up good : Bool) (k : Fin 8), s.wf = true →
    let t := s.plainWrite (ETH_TXCTL m) v
    let len := t.get (ETH_TXCTL.len m)
    let busy := s.flag (ETH_TXCTL.busy m)
    let can := busy = false ∧ 14 ≤ len ∧ len ≤ 1518 ∧ s.macUp m = true
    let mac := s.eth.mac[m]
    let modM (f : MacTx → MacTx) (s : State) : State := { s with eth := { s.eth with mac := vmod s.eth.mac m f } }
    let free := mac.air = none ∧ mac.pause.toNat ≤ s.now.toNat
    let host : List Byte := (List.range len).map fun j => BitVec.ofNat 8 ((t.rd (ETH_TXBUF m (j / 4))).toNat / 2 ^ (8 * (j % 4)))
    let eth (f : Ether → Ether) (s : State) : State := { s with eth := f s.eth }
    let drops := s.set (ETH_STAT.rx_drops m) (satInc (s.get (ETH_STAT.rx_drops m)) 65535)
    let be (l : List Byte) : Nat := l.foldl (fun a b => 256 * a + b.toNat) 0
    let dest : Nat := be (bytes.take 6)
    let own := (s.rd64 (ETH_ADDR m)).toNat % 2 ^ 48
    let pause : Prop := (dest = 0x0180C2000001 ∨ dest = own) ∧ be ((bytes.drop 12).take 2) = 0x8808 ∧ be ((bytes.drop 14).take 2) = 1
    let takes : Prop := s.macUp m = true ∧ bytes.length ≤ 1518 ∧ ¬ pause ∧ (dest = own ∨ dest ∈ knownGroups)
    let tlm := s.eth.tlm[k]
    let j : Fin 2 := Fin.ofNat 2 (s.get (ETH_TLM_CFG.mac k))
    let ready : Prop := s.flag (ETH_TLM_CFG.en k) = true ∧ tlm.full = true ∧ 0 < tlm.count ∧ (s.dbk.stream[(Fin.ofNat 16 (s.get (ETH_TLM_CFG.stream k)) : Fin 16)]).gone ≤ tlm.blk
    (v.getLsbD 31 = false → exec (.frameSend m v) s = .next t) ∧
    (v.getLsbD 31 = true → can → free → exec (.frameSend m v) s = .next (modM (fun y => { y with air := some (host, s.now, true), wait := none }) (t.raise (ETH_TXCTL.busy m)))) ∧
    (v.getLsbD 31 = true → can → ¬ free → exec (.frameSend m v) s = .next (modM (fun y => { y with wait := some host }) (t.raise (ETH_TXCTL.busy m)))) ∧
    (v.getLsbD 31 = true → ¬ can → exec (.frameSend m v) s = .next (t.raise (ETH_STAT.tx_err m))) ∧
    (mac.air = none ∨ mac.air = some (f, at', false) → Nothing (.transmitDone m sfd) s) ∧
    (mac.air = some (f, at', true) → Gives (.transmitDone m sfd) s (fun u => u.flag (ETH_TXCTL.busy m) = false ∧ OnlyRegs [ETH_TXCTL m] s u ∧
      u.out = s.out ++ [.frame m (f ++ List.replicate (60 - f.length) 0)] ∧ u.eth.mac[m] = { mac with air := none } ∧ u.eth.rx = s.eth.rx ∧
      (ptpEvent f = none → u.eth.txts = s.eth.txts) ∧ (4 ≤ s.eth.txts.length → u.eth.txts = s.eth.txts) ∧
      ∀ q, ptpEvent f = some q → s.eth.txts.length < 4 → u.eth.txts = s.eth.txts ++ [(sfd - BitVec.ofNat 64 (s.get ETH_PTP_LAT.tx), m, q)])) ∧
    (s.macUp m = false → Nothing (.frameReceive m bytes sfd good) s) ∧
    (s.macUp m = true → good = false ∨ 1518 < bytes.length → exec (.frameReceive m bytes sfd good) s = .next drops) ∧
    (s.macUp m = true → bytes.length ≤ 1518 → pause → exec (.frameReceive m bytes sfd true) s =
      .next (modM (fun y => { y with pause := s.now + BitVec.ofNat 64 (4096 * be ((bytes.drop 16).take 2)) }) s)) ∧
    (takes → 4 ≤ (s.eth.rx[m]).length → exec (.frameReceive m bytes sfd true) s = .next drops) ∧
    (takes → (s.eth.rx[m]).length < 4 → exec (.frameReceive m bytes sfd true) s = .next (eth (fun x => { x with
      rx := vmod x.rx m (· ++ [⟨bytes, (ptpEvent bytes).map fun _ => sfd - BitVec.ofNat 64 (s.get ETH_PTP_LAT.rx)⟩]) }) s)) ∧
    (s.macUp m = true → bytes.length ≤ 1518 → ¬ pause → dest ≠ own → dest ∉ knownGroups → Nothing (.frameReceive m bytes sfd true) s) ∧
    exec (.rxPop m) s = .next (eth (fun x => { x with rx := vmod x.rx m List.tail }) s) ∧
    (s.flag (ETH_STAT.link_up m) = up ∨ (up = true ∧ s.macOn m = false) → Nothing (.linkChange m up) s) ∧
    (s.flag (ETH_STAT.link_up m) ≠ up → (up = true → s.macOn m = true) →
      exec (.linkChange m up) s = .next ((s.set (ETH_STAT.link_up m) up.toNat).raise (ETH_STAT.link_chg m))) ∧
    (s.eth.txts = [] → Gives .txtsPop s (fun u => u.read = [0xFFFFFFFF] ∧ u.regs = s.regs ∧ u.eth = s.eth)) ∧
    (∀ a i q l, s.eth.txts = (a, i, q) :: l → Gives .txtsPop s (fun u => u.read = [loWord a] ∧ u.eth = { s.eth with txts := l } ∧
      u.get ETH_PTP_TXID.mac = i ∧ u.get ETH_PTP_TXID.seq = q.toNat ∧ OnlyRegs [ETH_PTP_TXID] s u)) ∧
    (s.get TB_CTRL.slew_src ≠ 1 → Nothing (.ptpOffsetWrite v) s) ∧
    (s.get TB_CTRL.slew_src = 1 → Gives (.ptpOffsetWrite v) s (fun u => u.eth = { s.eth with integ := s.eth.integ + BitVec.ofInt 64 (v.toInt * s.get ETH_PTP_GAIN.ki / 256) } ∧
      u.vlt = s.vlt ∧ u.dbk = s.dbk ∧ let r := -(v.toInt * s.get ETH_PTP_GAIN.kp / 16 + u.eth.integ.toInt)
      u.rd TB_SLEW = BitVec.ofInt 32 (max (-68719476) (min 68719476 r)))) ∧
    (s.flag (ETH_TLM_CFG.en k) = false → Nothing (.telemetryPacket k) s) ∧
    (ready → s.macUp j = true → s.macFree j = false ∨ (s.eth.mac[j]).wait ≠ none → Nothing (.telemetryPacket k) s) ∧
    (ready → s.macUp j = false ∨ (s.macFree j = true ∧ (s.eth.mac[j]).wait = none) →
      Gives (.telemetryPacket k) s (fun u => u.eth.tlm[k] = { tlm with payload := [], count := 0, full := false, seq := tlm.seq + 1 } ∧ u.regs = s.regs ∧ u.eth.rx = s.eth.rx ∧
        (∀ i : Fin 8, i ≠ k → u.eth.tlm[i] = s.eth.tlm[i]) ∧
        (s.macUp j = true → ∃ g, u.out = s.out ++ [.frame j g] ∧ 60 ≤ g.length ∧ ∃ h, u.eth.mac[j] = { s.eth.mac[j] with air := some (h, s.now, false) }) ∧
        (s.macUp j = false → u.out = s.out ∧ u.eth.mac = s.eth.mac)))

/-! ### Interrupts and power (spec/14) -/

/-- Part of R334–R339: an interrupt source becomes PENDING in the order of the cycles and, within a cycle, of the numbers, is delivered to its target, and
returns to IDLE at its end of interrupt; a source's configuration, whose new target stands in the next cycle. An end of interrupt for a source that is
not DELIVERED sets eoi_bad; a level source that stays asserted through storm_lim of them is a storm. Rests in part on choices of the model, log
entries 2 and 25. -/
def Obligations.InterruptCommands : Prop :=
  ∀ (s : State) (n : Fin 1024) (q : Fin 35) (v : Word) (t : BitVec 6) (l : List (Fin 1024)), s.wf = true →
    let st := s.get (IC_SRC.state n)
    let old := s.get (IC_SRC.target n)
    let w := s.plainWrite (IC_SRC n) v
    let new := w.get (IC_SRC.target n)
    let p := s.host.pcie
    let behind (k : Fin 1024) : Bool := s.ic.fresh.contains k && decide (n < k)
    let mine (c : Nat × Instr) : Bool := match c.2 with | .retarget k _ => k == n | _ => false
    let kept := s.inflight.filter fun c => !(mine c && decide (s.tb.cyc < c.1))
    let again : Nat := Sparse.get noStorm s.ic.storm n + 1
    (s.pendDue n = false → Nothing (.sourcePending n) s) ∧
    (s.pendDue n = true → Gives (.sourcePending n) s (fun u => u.get (IC_SRC.state n) = 1 ∧
      u.ic.queue = s.ic.queue.filter (fun k => !behind k) ++ n :: s.ic.queue.filter behind ∧ (s.ic.fresh = [] → u.ic.queue = s.ic.queue ++ [n]) ∧
      (n.val < 512 → u.flag (IC_SRC.input n) = false) ∧ u.ic.done = s.ic.done ∧ OnlyRegs [IC_SRC n] s u ∧ VaultKept s u)) ∧
    (s.deliveryDue q = false → Nothing (.delivery q) s) ∧
    (s.deliveryDue q = true → s.targetQueue q = n :: l → Gives (.delivery q) s (fun u => u.get (IC_SRC.state n) = 2 ∧ u.get (IC_SRC.dtarget n) = q.val ∧
      u.ic.queue = s.ic.queue.filter (· != n) ∧ u.ic.done = s.ic.done ++ [n] ∧ OnlyRegs [IC_SRC n] s u ∧ VaultKept s u ∧ (∀ k : Fin 3, q.val = 32 + k.val → u.irqPin k = true) ∧
      u.out = s.out ++ (if 32 ≤ q.val then [] else if p.msixEn then
          [.hostWrite (p.table[(Fin.ofNat 32 q.val)]).addr.toNat ((leBytes 4 (p.table[(Fin.ofNat 32 q.val)]).data.toNat).map some)]
        else [.hostWrite p.msiAddr.toNat ((leBytes 4 p.msiData.toNat).map some)]))) ∧
    (st ≠ 2 → exec (.eoi n) s = .next (s.raise IC_STAT.eoi_bad)) ∧
    (st = 2 → Gives (.eoi n) s (fun u => u.get (IC_SRC.state n) = 0 ∧ u.ic.queue = s.ic.queue ∧ u.ic.done = s.ic.done.filter (· != n) ∧
      OnlyRegs [IC_SRC n, IC_STAT, IC_STORM] s u ∧ VaultKept s u ∧
      (512 ≤ n.val → s.levelInput n = true → s.flag (IC_SRC.en n) = true → s.get IC_CTRL.storm_lim ≠ 0 → s.get IC_CTRL.storm_lim ≤ again → u.flag IC_STAT.storm = true ∧
        (s.flag IC_STORM.valid = false → u.flag IC_STORM.valid = true ∧ u.get IC_STORM.source = n)))) ∧
    (512 ≤ n.val ∨ st ≠ 1 → Nothing (.pendWithdraw n) s) ∧
    (n.val < 512 → st = 1 → Gives (.pendWithdraw n) s (fun u => OnlyRegs [IC_SRC n] s u ∧ u.get (IC_SRC.state n) = 0 ∧ u.flag (IC_SRC.input n) = false ∧
      u.ic.queue = s.ic.queue.filter (· != n))) ∧
    (srcExists n = false → Nothing (.sourceConfigWrite n v) s) ∧
    (srcExists n = true → v.getLsbD 31 = true ∨ st ≠ 1 → exec (.sourceConfigWrite n v) s = .next { w.set (IC_SRC.target n) old with
      inflight := kept ++ (if new = old ∧ s.inflight.any mine = false then [] else [(s.tb.cyc + 1, .retarget n (BitVec.ofNat 6 new))]) }) ∧
    (srcExists n = true → v.getLsbD 31 = false → st = 1 → Gives (.sourceConfigWrite n v) s (fun u => OnlyRegs [IC_SRC n] s u ∧ u.get (IC_SRC.state n) = 0 ∧
      u.flag (IC_SRC.en n) = false ∧ u.get (IC_SRC.target n) = old ∧ u.ic.queue = s.ic.queue.filter (· != n))) ∧
    (srcExists n = true → t.toNat < 35 → p.d3 = false → exec (.retarget n t) s = .next (s.set (IC_SRC.target n) t.toNat)) ∧
    (srcExists n = true → t.toNat < 35 → Gives (.retarget n t) s (fun u => u.get (IC_SRC.target n) = t.toNat ∧ u.ic = s.ic ∧ OnlyRegs [IC_SRC n] s u ∧ u.vlt = s.vlt ∧
      (n ∈ s.ic.queue → t.toNat < 32 → p.d3 = true → p.pmeEn = true → p.pmeStatus = false → s.get GBL_STRAP.hostsel = 0 →
        u.out = s.out ++ [.pme]))) ∧
    (srcExists n = false ∨ 35 ≤ t.toNat → Nothing (.retarget n t) s)

/-- Part of R342–R348, R431: Run and Doze; entering Park and leaving it; Deep Park step by step, what it keeps and what it loses, and the wake from it,
where GTB resumes with the cycles of the AON clock counted in; PULSE toggles after Tallies that were healthy. Rests in part on choices of the model,
log entries 2 and 17. -/
def Obligations.PowerCommands : Prop :=
  ∀ (s : State) (b : Bool) (c : Nat), s.wf = true →
    let st := s.get PWR_STAT.state
    let target := s.get PWR_CTRL.target
    let lock := s.flag TB_STAT.pll_lock
    let h := s.health
    (st < 2 → Gives (.runDozeSelect b) s (fun u => u.get PWR_STAT.state = b.toNat ∧ u.get PWR_CTRL.target = b.toNat ∧ u.tb = s.tb ∧ u.tlr = s.tlr ∧
      OnlyRegs [PWR_CTRL, PWR_STAT] s u)) ∧
    (st < 2 → Gives .parkEntry s (fun u => u.get PWR_STAT.state = 2 ∧ u.tlr = { s.tlr with drainStop := true } ∧ u.fct = s.fct ∧ u.vlt = s.vlt ∧ u.dbk = s.dbk ∧
      u.get PWR_CTRL.target = (if target = 3 then 3 else 2) ∧
      ∀ n : Fin 32, s.get (DMA_STAT.state n) = 1 → (s.dma.chan[n]).xfer ≠ none → (u.dma.chan[n]).parked = true ∧ 2 ≤ u.get (DMA_STAT.state n))) ∧
    (st = 2 → s.parkReady = false → Nothing .parkEntry s) ∧
    (st = 2 → s.parkReady = true → Gives .parkEntry s (fun u => u.get PWR_STAT.state = (if target = 3 then 5 else 3) ∧
      u.flag (ETH_STAT.link_up 0) = false ∧ u.flag (ETH_STAT.link_up 1) = false ∧ u.parkHold = true ∧
      (∀ n : Fin 256, s.held n = false → (u.fct[n]).queue = []) ∧ u.vlt = s.vlt ∧ u.dbk = s.dbk ∧ u.tlr = s.tlr)) ∧
    (2 < st → Nothing .parkEntry s) ∧
    (st = 3 → s.parkWakeCause = none → Nothing .parkWake s) ∧
    (st = 3 → s.parkWakeCause = some c → c < 4 → Gives .parkWake s (fun u => u.get PWR_STAT.state = 4 ∧ u.get PWR_STAT.wake_cause = c ∧ u.get PWR_CTRL.target < 2 ∧
      u.tlr = s.tlr ∧ u.fct = s.fct ∧ OnlyRegs [PWR_CTRL, PWR_STAT] s u)) ∧
    (st = 4 → target < 2 → Gives .parkWake s (fun u => u.get PWR_STAT.state = target ∧ u.tlr = { s.tlr with drainStop := false } ∧ u.parkHold = false ∧ u.vlt = s.vlt ∧ u.dbk = s.dbk ∧
      (∀ n : Fin 256, s.flag FCT_GSAFE.held = false → (s.fct[n]).hold = false → (u.fct[n]).out = decide (s.get (FCT_CTRL.safe_lvl n) = 1)) ∧
      ∀ n : Fin 32, (s.dma.chan[n]).parked = true → s.flag (DMA_CTL.pause n) = false → 2 ≤ s.get (DMA_STAT.state n) → s.get (DMA_STAT.state n) ≤ 3 →
        u.get (DMA_STAT.state n) = 1)) ∧
    (st = 4 → 2 ≤ target → Gives .parkWake s (fun u => u.get PWR_STAT.state = 2 ∧ u.tlr = { s.tlr with drainStop := true } ∧ u.vlt = s.vlt)) ∧
    (st ≠ 3 → st ≠ 4 → Nothing .parkWake s) ∧
    (st < 2 → Gives .deepParkEntry s (fun u => u.get PWR_STAT.state = 2 ∧ u.get PWR_CTRL.target = 3 ∧ u.tlr.drainStop = true ∧ u.fct = s.fct ∧ u.vlt = s.vlt)) ∧
    (st = 3 → target = 3 → exec .deepParkEntry s = .next ((s.set PWR_STAT.state 5).set PWR_STAT.dp_step 0)) ∧
    (st = 5 → lock = true → s.get PWR_STAT.dp_step = 0 → Gives .deepParkEntry s (fun u => u.rd64 TB_PARK_GTB = s.now ∧ u.tb.aon = 0 ∧ u.get PWR_STAT.dp_step = 1 ∧
      OnlyRegs [TB_PARK_GTB, TB_PARK_GTB + 4, PWR_STAT] s u)) ∧
    (st = 5 → lock = true → s.get PWR_STAT.dp_step = 1 → exec .deepParkEntry s = .next ({ s with retained := some (retain s) }.set PWR_STAT.dp_step 2)) ∧
    (st = 5 → lock = true → s.get PWR_STAT.dp_step = 2 → Gives .deepParkEntry s (fun u => u.get PWR_STAT.dp_step = 3 ∧ u.flag FCT_GSAFE.io_hold = true ∧
      ∀ n : Fin 256, (u.fct[n]).latched = s.safeLatch n)) ∧
    (st = 5 → lock = true → s.get PWR_STAT.dp_step = 3 → Gives .deepParkEntry s (fun u => u.flag TB_STAT.pll_lock = false ∧ u.flag GBL_HOST.ready = false ∧
      u.flag FCT_GSAFE.io_hold = true ∧ u.asy.otp = s.asy.otp ∧ u.asy.ledger = s.asy.ledger ∧ u.rd64 TB_PARK_GTB = s.rd64 TB_PARK_GTB ∧
      u.tlr = Teller.reset ∧ u.vlt = Vault.reset ∧ u.dbk = Daybook.reset ∧ (∀ off, deepKept off = false → off ≠ FCT_GSAFE → off ≠ MNT_CTRL → u.rd off = resetWord off) ∧
      u.flag MNT_CTRL.lock = s.flag MNT_CTRL.lock ∧ u.flag MNT_CTRL.hide = s.flag MNT_CTRL.hide ∧ (∀ r, s.retained = some r → u.ic = r.ic) ∧
      (s.retained = none ∨ s.retained = some (retain s) → u.ic = s.ic ∧ ∀ n : Fin 1024, u.rd (IC_SRC n) = s.rd (IC_SRC n)))) ∧
    (st = 5 → lock = false → Nothing .deepParkEntry s) ∧
    ((s.deepParked && (s.pinWake || s.alarmWake)) = false → Nothing .deepParkWake s) ∧
    (s.deepParked = true → s.pinWake = true ∨ s.alarmWake = true → Gives .deepParkWake s (fun u => u.get PWR_STAT.state = 6 ∧ u.flag TB_STAT.pll_lock = true ∧
      u.get PWR_STAT.wake_cause = (if s.pinWake then 0 else 3) ∧ u.tb.load = some (BitVec.ofNat 64 ((s.rd64 TB_PARK_GTB).toNat + s.tb.aon.toNat * 1953125 / 8), 2) ∧
      u.get PWR_CTRL.target = 0 ∧ u.ic = { s.ic with resample := true } ∧ u.vlt = s.vlt ∧ u.asy = { s.asy with boots := s.asy.boots + 1 })) ∧
    (s.alarmWake = false ∨ s.deepParked = false → Nothing .aonAlarm s) ∧
    (s.alarmWake = true → s.deepParked = true → Gives .aonAlarm s (fun u => u.get PWR_STAT.state = 6 ∧ u.flag TB_STAT.pll_lock = true ∧ u.vlt = s.vlt)) ∧
    (s.flag PWR_WAKE_EN.pin_en = false ∨ st < 3 ∨ b ≠ s.flag PWR_WAKE_EN.pin_pol → exec (.wakePin b) s = .next { s with wakePin := b }) ∧
    (s.flag PWR_WAKE_EN.pin_en = true → b = s.flag PWR_WAKE_EN.pin_pol → st = 3 → Gives (.wakePin b) s (fun u => u.wakePin = b ∧ u.get PWR_STAT.state = 4 ∧
      u.get PWR_STAT.wake_cause = 0)) ∧
    (s.flag PWR_WAKE_EN.pin_en = true → b = s.flag PWR_WAKE_EN.pin_pol → s.deepParked = true → Gives (.wakePin b) s (fun u => u.wakePin = b ∧ u.get PWR_STAT.state = 6 ∧
      u.get PWR_STAT.wake_cause = 0)) ∧
    (s.toggleDue = false → Nothing .pulseToggle s) ∧
    (s.toggleDue = true → h.ended = false ∨ 2 ≤ st → exec .pulseToggle s = .next { s with health := { h with ended := false, bad := false, done' := true } }) ∧
    (s.toggleDue = true → h.ended = true → h.bad = false → st < 2 → Gives .pulseToggle s (fun u => u.flag FLT_PULSE.level = !s.flag FLT_PULSE.level ∧
      u.get FLT_PULSE.skipped = s.get FLT_PULSE.skipped ∧ u.health = { h with ended := false, bad := false, done' := true } ∧ OnlyRegs [FLT_PULSE] s u)) ∧
    (s.toggleDue = true → h.ended = true → h.bad = true → st < 2 → Gives .pulseToggle s (fun u => u.flag FLT_PULSE.level = s.flag FLT_PULSE.level ∧
      u.get FLT_PULSE.skipped = satInc (s.get FLT_PULSE.skipped) 65535 ∧ u.flag (bitFld FLT_STAT 21) = true ∧
      u.health = { h with ended := false, bad := false, done' := true } ∧ OnlyRegs [FLT_PULSE, FLT_STAT, FLT_FIRST, FLT_FIRST_TIME, FLT_FIRST_TIME + 4] s u))

/-! ### The fabric (spec/15) -/

/-- Part of R349–R357, R363: a port sends one cell in each cell time: what is to be resent first, a LINK cell when one is owed, else the oldest waiting
cell of the lowest channel that has credit; what it receives; a port trains, comes up, degrades and goes down; an exchange of stamps gives delay and
offset, and a node that steers moves its rate by the offset. That a node that stepped reads ACQUIRE until it is readmitted is the model's reading (log
entry 43). Rests in part on choices of the model, log entries 2, 22, 24 and 43. -/
def Obligations.SlouloLinks : Prop :=
  ∀ (s : State) (p : Fin 4) (q ack : BitVec 7) (c : Cell) (r : List (BitVec 7 × Cell)) (r' : List Cell) (x : LinkCell) (sof t1 t2 t3 t4 : Time) (v : Fin 4), s.wf = true →
    let y := s.slo.port[p]
    let st := s.get (SLO_PORT_STAT.state p)
    let open' : Prop := st = 2 ∨ st = 3
    let own : Int := -((16 * ((t2 - t1).toInt - (t4 - t3).toInt)) / 2 + signExt 16 (s.get (SLO_PORT_CTRL.asym p)))
    let bad (d : Instr) : Prop := Gives d s (fun u => u.get (SLO_PORT_CNT.bad p) = satInc (s.get (SLO_PORT_CNT.bad p)) (2 ^ 16 - 1) ∧
      (u.slo.port[p]).asked = true ∧ (y.asked = false → (u.slo.port[p]).nak = true) ∧ (u.slo.port[p]).expect = y.expect ∧ (u.slo.port[p]).window = y.window ∧ OnlyRegs [SLO_PORT_CNT p] s u)
    (st = 0 → Nothing (.cellTransmit p) s) ∧
    (open' → y.resend = (q, c) :: r → Gives (.cellTransmit p) s (fun u => u.out = s.out ++ [.cell p q y.expect c] ∧ (u.slo.port[p]).resend = r ∧
      (u.slo.port[p]).window = y.window ∧ u.regs = s.regs)) ∧
    (st = 1 → Gives (.cellTransmit p) s (fun u => ∃ l : LinkCell, u.out = s.out ++ [.link p l] ∧ l.ack = y.expect ∧ l.credits = y.credit ∧ l.uid = some Config.deviceUid ∧
      (u.slo.port[p]).quiet = 0 ∧ u.regs = s.regs)) ∧
    (open' → y.resend = [] → y.nak = true → Gives (.cellTransmit p) s (fun u => ∃ l : LinkCell, u.out = s.out ++ [.link p l] ∧ l.nak = true ∧ l.ack = y.expect ∧
      (u.slo.port[p]).nak = false ∧ u.regs = s.regs)) ∧
    (open' → y.resend = [] → y.nak = false → y.ask = none → y.owe = false → y.slot % 32 ≠ 0 → y.queue[v] = c :: r' → y.mayLeave v = true → (∀ w < v, y.mayLeave w = false) →
      Gives (.cellTransmit p) s (fun u => u.out = s.out ++ [.cell p y.seq y.expect c] ∧ (u.slo.port[p]).queue[v] = r' ∧ (u.slo.port[p]).seq = y.seq + 1 ∧
        (u.slo.port[p]).sent[v] = y.sent[v] + 1 ∧ (u.slo.port[p]).window = y.window ++ [(y.seq, c)] ∧ u.regs = s.regs ∧ ∀ w, w ≠ p → u.slo.port[(w : Fin 4)] = s.slo.port[w])) ∧
    (open' → y.resend = [] → y.nak = false → y.ask = none → y.owe = false → y.slot % 32 = 0 → y.queue[(3 : Fin 4)] = c :: r' → y.mayLeave 3 = true →
      Gives (.cellTransmit p) s (fun u => u.out = s.out ++ [.cell p y.seq y.expect c] ∧ (u.slo.port[p]).queue[(3 : Fin 4)] = r' ∧ (u.slo.port[p]).seq = y.seq + 1)) ∧
    (open' → y.resend = [] → (∀ w, y.mayLeave w = false) → Gives (.cellTransmit p) s (fun u => ∃ l : LinkCell, u.out = s.out ++ [.link p l] ∧ l.ack = y.expect ∧
      l.credits = y.credit ∧ (u.slo.port[p]).queue = y.queue ∧ (u.slo.port[p]).owe = false ∧ u.regs = s.regs)) ∧
    (s.resendDue p = false → Nothing (.resendTimeout p) s) ∧
    (s.resendDue p = true → Gives (.resendTimeout p) s (fun u => (u.slo.port[p]).resend = y.window ∧ (u.slo.port[p]).tries = y.tries + 1 ∧
      u.get (SLO_PORT_CNT.resends p) = satInc (s.get (SLO_PORT_CNT.resends p)) (2 ^ 16 - 1) ∧ OnlyRegs [SLO_PORT_CNT p] s u)) ∧
    (st = 0 → Nothing (.linkCellReceive p true x sof) s) ∧
    (st ≠ 0 → bad (.linkCellReceive p false x sof)) ∧
    (st ≠ 0 → Gives (.linkCellReceive p true x sof) s (fun u => OnlyRegs [SLO_PORT_CNT p] s u ∧ (u.slo.port[p]).freed = x.credits ∧ (u.slo.port[p]).far = (x.uid <|> y.far) ∧ (u.slo.port[p]).heard = s.tb.cyc ∧
      (u.slo.port[p]).farDown = x.down ∧ u.vlt = s.vlt ∧
      (∀ z w, y.window = (q, z) :: w → (x.ack - q).toNat ≤ y.window.length → (u.slo.port[p]).window = y.window.drop (x.ack - q).toNat) ∧
      (x.time = .request → (u.slo.port[p]).ask = some (some sof)) ∧
      (x.time = .reply t2 t3 → y.t1 = some t1 → u.inflight = s.inflight ++ [(s.tb.cyc + 1, .linkMeasurement p t1 t2 t3 sof)]))) ∧
    (¬ open' → Nothing (.cellReceive p true q ack c) s) ∧
    (open' → bad (.cellReceive p false q ack c)) ∧
    (open' → y.window = [] → (∀ k, c.body ≠ .reserved k) → q ≠ y.expect → bad (.cellReceive p true q ack c)) ∧
    (open' → (∃ k, c.body = .reserved k) → Gives (.cellReceive p true q ack c) s (fun u => u.get SLO_DISC.other = satInc (s.get SLO_DISC.other) (2 ^ 8 - 1) ∧
      u.flag SLO_STAT.discard = true ∧ (u.slo.port[p]).expect = y.expect)) ∧
    (open' → (∀ k, c.body ≠ .reserved k) → q = y.expect → Gives (.cellReceive p true q ack c) s (fun u => (u.slo.port[p]).expect = y.expect + 1 ∧
      (u.slo.port[p]).credit[cellVc c.body] = y.credit[cellVc c.body] + 1 ∧ (u.slo.port[p]).heard = s.tb.cyc ∧ VaultKept s u)) ∧
    (st = 0 → Nothing (.portDown p) s) ∧
    (st ≠ 0 → Gives (.portDown p) s (fun u => u.get (SLO_PORT_STAT.state p) = 0 ∧ u.flag (SLO_PORT_STAT.down p) = true ∧ u.flag (bitFld FLT_STAT 18) = true ∧
      (u.slo.port[p]).window = [] ∧ (∃ l : LinkCell, u.out = s.out ++ [.link p l] ∧ l.down = true) ∧ VaultKept s u ∧
      u.get (SLO_PORT_LOST.cells p) = min (2 ^ 32 - 1) (s.get (SLO_PORT_LOST.cells p) + y.window.length + (y.queue[(0 : Fin 4)]).length + (y.queue[(1 : Fin 4)]).length +
        (y.queue[(2 : Fin 4)]).length + (y.queue[(3 : Fin 4)]).length))) ∧
    (s.portUpDue p = false → Nothing (.portUp p) s) ∧
    (s.portUpDue p = true → Gives (.portUp p) s (fun u => u.get (SLO_PORT_STAT.state p) = 2 ∧ (u.slo.port[p]).declared = false ∧ (u.slo.port[p]).heard = s.tb.cyc)) ∧
    (s.portDegradedDue p = false → Nothing (.portDegraded p) s) ∧
    (s.portDegradedDue p = true → Gives (.portDegraded p) s (fun u => u.get (SLO_PORT_STAT.state p) = 3 ∧ u.flag (SLO_PORT_STAT.degraded p) = true ∧ u.flag (bitFld FLT_STAT 18) = true)) ∧
    (st = 0 → s.flag SLO_CTRL.en = true → s.flag (SLO_PORT_CTRL.en p) = true → Gives (.blockLockGained p) s (fun u => u.get (SLO_PORT_STAT.state p) = 1 ∧
      u.slo.port[p] = { SloPort.reset with heard := s.tb.cyc })) ∧
    (st ≠ 0 ∨ s.flag SLO_CTRL.en = false ∨ s.flag (SLO_PORT_CTRL.en p) = false → Nothing (.blockLockGained p) s) ∧
    (¬ open' → Nothing (.linkMeasurement p t1 t2 t3 t4) s) ∧
    (open' → s.parentPort ≠ some p → Gives (.linkMeasurement p t1 t2 t3 t4) s (fun u =>
      let delay := (16 * ((t4 - t1).toInt - (t3 - t2).toInt)) / 2 - signExt 16 (s.get (SLO_PORT_CTRL.asym p))
      (u.slo.port[p]).delays = (delay :: y.delays).take 16 ∧ u.tb = s.tb ∧ (y.delays = [] → u.rd (SLO_PORT_DELAY p) = wordOfInt delay) ∧ OnlyRegs [SLO_PORT_DELAY p] s u)) ∧
    (open' → s.parentPort = some p → s.slo.joining = none → s.sloAdmitted = false → Gives (.linkMeasurement p t1 t2 t3 t4) s (fun u =>
      u.slo.ofs = own ∧ u.slo.measTally = s.tally ∧ u.rd SLO_OFS = wordOfInt (max (-(2 ^ 31)) (min (2 ^ 31 - 1) own)) ∧ u.tb = s.tb ∧ OnlyRegs [SLO_PORT_DELAY p, SLO_OFS] s u)) ∧
    (open' → s.parentPort = some p → s.slo.joining = none → s.sloAdmitted = true → s.get TB_CTRL.slew_src = 2 → Gives (.linkMeasurement p t1 t2 t3 t4) s (fun u =>
      u.slo.ofs = own ∧ u.slo.integ = s.slo.integ + BitVec.ofInt 64 ((own * s.get SLO_ALIGN.ki).fdiv 256) ∧ u.tb = s.tb ∧
      u.rd TB_SLEW = BitVec.ofInt 32 (max (-68719476) (min 68719476 (-((own * s.get SLO_ALIGN.kp).fdiv 16 + u.slo.integ.toInt)))) ∧
      u.get SLO_STAT.align = (if own.natAbs ≤ 128 then (if s.slo.stepped then 1 else 2) else if 16 * s.get SLO_ALIGN.lost_lim < own.natAbs then 4 else 1)))

/-- Part of R358–R362, R364–R366, R370, R374: census and admission, routes, HELLO and its loss, alignment, subscriptions of mirrors, and the remote posts
and events that reach this node. Rests in part on choices of the model, log entries 2, 23, 24 and 43. -/
def Obligations.SlouloFabric : Prop :=
  ∀ (s : State) (k src : Fin 4) (node : Fin 64) (x : RouteTable) (reports : List NodeReport) (acts : Bool) (ch : Fin 512) (m : BitVec 5), s.wf = true →
    let root := s.flag SLO_STAT.root
    let admitted := s.flag SLO_STAT.admitted
    let en := s.flag SLO_CTRL.en
    let subs := (s.slo.subs[src]).filter fun y => y.1 != node
    let own : Cell := ⟨true, 0, s.nodeId, .hello Config.deviceUid⟩
    let pend := bitFld (TLR_CH_PEND ch) 14
    let mine (j : Fin 4) : Prop := s.flag (SLO_MIR.en j) = true ∧ s.get (SLO_MIR.src_node j) = node ∧ s.get (SLO_MIR.src_dom j) = src
    let alone : Prop := s.shared k (fun _ => true) = none
    (en = false → Nothing (.census (.node x)) s ∧ Nothing (.incrementalAdmission (.node x)) s) ∧
    (root = false → Nothing (.census (.root reports)) s) ∧
    (root = true → Nothing (.census (.node x)) s ∧ Nothing (.incrementalAdmission (.node x)) s) ∧
    (en = true → root = true → Gives (.census (.root reports)) s (fun u => u.flag SLO_STAT.admitted = true ∧ u.get SLO_STAT.node_id = 0 ∧ u.get SLO_STAT.depth = 0 ∧
      u.flag SLO_STAT.census_chg = true ∧ u.flag SLO_STAT.census_busy = false ∧ u.slo.rootId = 0)) ∧
    (en = true → root = false → x.depth < 16 → Gives (.census (.node x)) s (fun u => u.flag SLO_STAT.admitted = true ∧ u.get SLO_STAT.node_id = x.id ∧ u.get SLO_STAT.depth = x.depth ∧
      u.flag SLO_STAT.census_chg = true ∧ u.slo.rootId = x.root ∧ u.slo.tree = x.tree ∧ (∀ n : Fin 64, u.rd (SLO_ROUTE n) = x.entries.getD n 0) ∧
      ∀ d, u.slo.subs[(d : Fin 4)] = [])) ∧
    (en = true → root = true → admitted = true → Gives (.incrementalAdmission (.root reports)) s (fun u => u.get SLO_STAT.node_id = s.get SLO_STAT.node_id ∧
      u.flag SLO_STAT.route_chg = true ∧ u.flag SLO_STAT.census_chg = true ∧ u.flag SLO_STAT.census_busy = false ∧ u.slo.subs = s.slo.subs)) ∧
    (en = true → root = false → admitted = false → x.depth < 16 → Gives (.incrementalAdmission (.node x)) s (fun u => u.flag SLO_STAT.admitted = true ∧
      u.get SLO_STAT.node_id = x.id ∧ u.slo.rootId = x.root)) ∧
    (admitted = true → x.depth < 16 → Gives (.routeReceive x) s (fun u => (∀ n : Fin 64, u.rd (SLO_ROUTE n) = x.entries.getD n 0) ∧ u.flag SLO_STAT.route_chg = true ∧
      u.get SLO_STAT.depth = x.depth ∧ u.slo.tree = x.tree ∧ u.get SLO_STAT.node_id = s.get SLO_STAT.node_id ∧ u.flag SLO_STAT.census_busy = false ∧ u.vlt = s.vlt)) ∧
    (admitted = false → Gives (.routeReceive x) s (fun u => u.slo.joining = some (x.id, x.depth) ∧ u.flag SLO_STAT.admitted = false)) ∧
    (root = false → Nothing .helloSend s) ∧
    (root = true → admitted = true → Gives .helloSend s (fun u => ∀ p : Fin 4, (u.slo.port[p]).queue[(3 : Fin 4)] =
      (s.slo.port[p]).queue[(3 : Fin 4)] ++ (if s.slo.tree[p] && s.portOpen p then [own] else []))) ∧
    (s.rootLostDue = false → Nothing (.rootLost acts) s) ∧
    (s.rootLostDue = true → acts = false ∨ s.flag SLO_CTRL.backup_root = false → Gives (.rootLost acts) s (fun u => u.flag SLO_STAT.root_lost = true ∧
      u.flag (bitFld FLT_STAT 19) = true ∧ u.flag SLO_STAT.root = false)) ∧
    (s.rootLostDue = true → s.flag SLO_CTRL.backup_root = true → Gives (.rootLost true) s (fun u => u.flag SLO_STAT.root = true ∧ u.slo.acting = true ∧
      u.flag SLO_STAT.route_chg = true ∧ u.get SLO_STAT.node_id = s.get SLO_STAT.node_id)) ∧
    (s.holdDue = false → Nothing .alignHold s) ∧
    (s.holdDue = true → exec .alignHold s = .next (s.set SLO_STAT.align 3)) ∧
    (admitted = false ∨ root = true → Nothing .readmit s) ∧
    (admitted = true → root = false → Gives .readmit s (fun u => u.flag SLO_STAT.admitted = true ∧ u.get SLO_STAT.node_id = s.get SLO_STAT.node_id ∧
      u.slo.stepped = false ∧ u.tb = (let o := s.slo.ofs; let step : Int := if o < 0 then (-o + 8).fdiv 16 else 0
        if 0 < step then { s.tb with load := some (s.nextNow + BitVec.ofInt 64 step, 1) } else s.tb))) ∧
    (admitted = false → alone → exec (.mirrorSubscribe k) s = .next (discardCell SLO_DISC.unadmitted (s.set (SLO_MIR_STAT.subscribed k) 0))) ∧
    (admitted = true → alone → (s.mirSource k).1 ≠ s.nodeId → s.routePort (s.mirSource k).1 = some src → s.portOpen src = true →
      exec (.mirrorSubscribe k) s = .next (queueCell src ⟨false, (s.mirSource k).1, s.nodeId, .sub (if s.flag (SLO_MIR.en k) then .subscribe else .unsubscribe)
        (s.mirSource k).2 k⟩ (s.set (SLO_MIR_STAT.subscribed k) 0))) ∧
    (s.shared k (fun _ => true) = some src → s.flag (SLO_MIR.en k) = true → s.flag (SLO_MIR_STAT.subscribed src) = true → Gives (.mirrorSubscribe k) s (fun u =>
      u.flag (SLO_MIR_STAT.subscribed k) = true ∧ u.flag (SLO_MIR_STAT.refused k) = false ∧ u.slo = s.slo ∧ OnlyRegs [SLO_MIR_STAT k] s u)) ∧
    (¬ alone → s.flag (SLO_MIR.en k) = false → exec (.mirrorSubscribe k) s = .next (s.set (SLO_MIR_STAT.subscribed k) 0)) ∧
    (s.flag (SLO_PUB_ALLOW.allow src) = true → subs.length < 16 → Gives (.subReceive node .subscribe src k) s (fun u => u.slo.subs[src] = subs ++ [(node, 0)] ∧
      u.get (SLO_PUB.subs src) = subs.length + 1 ∧ VaultKept s u)) ∧
    (s.flag (SLO_PUB_ALLOW.allow src) = false ∨ 16 ≤ subs.length → Gives (.subReceive node .subscribe src k) s (fun u => u.slo.subs = s.slo.subs)) ∧
    (subs.length < 32 → Gives (.subReceive node .unsubscribe src k) s (fun u => u.slo.subs[src] = subs ∧ u.get (SLO_PUB.subs src) = subs.length)) ∧
    Gives (.subReceive node .accept src k) s (fun u => ∀ j, mine j → u.flag (SLO_MIR_STAT.subscribed j) = true ∧ u.flag (SLO_MIR_STAT.refused j) = false) ∧
    Gives (.subReceive node .refuse src k) s (fun u => ∀ j, mine j → u.flag (SLO_MIR_STAT.subscribed j) = false ∧ u.flag (SLO_MIR_STAT.refused j) = true) ∧
    Gives (.rpostDelivery ch) s (fun u => u.flag pend = true ∧ (s.flag pend = true → u.flag (TLR_CH_STAT.coalesced ch) = true) ∧
      (s.get PWR_STAT.state ≠ 5 → u.flag (IC_SRC.input ch) = true)) ∧
    Gives (.revtDelivery m) s (fun u => 160 + m.toNat ∈ u.pulses ∧ VaultKept s u)

/-- Part of R254–R257, R372, R373: the bulk mailboxes. The head entry of the transmit ring is sent when its lap bit is the expected one; a received entry
waits for a Vault slot of Sloulo and is then written at the receive position, with its sender, time and lap; the consumed count goes to the Vault once
per Tally. The order among the three is the model's choice (log entry 62). Rests in part on choices of the model, log entries 2, 24 and 62. -/
def Obligations.BulkMailbox : Prop :=
  ∀ (s : State) (e : LineEcc) (node : Fin 64) (data : List Byte) (post : Option (Fin 512)) (time : Time) (l : List BusReq) (pooled : Bool), s.wf = true →
    let x := s.slo
    let tx := s.flag SLO_BTX_CTRL.en = true ∧ s.get SLO_BTX_SIZE.entries ≠ 0
    let rx := s.flag SLO_BRX_CTRL.en = true ∧ s.get SLO_BRX_SIZE.entries ≠ 0
    let a := (32 * s.get SLO_BTX_BASE.line + 32 * x.btxPos) % 0x1000000
    let b := (32 * s.get SLO_BRX_BASE.line + 32 * x.brxPos) % 0x1000000
    let slot := s.vlt.granted = false ∧ s.winner [] = some (6, pooled, 0)
    let clean := e = ⟨0, 0⟩ ∧ ∀ j < 4, s.vlt.poisoned (a / 8 + j) = false
    let lap : Bool := (s.vlt.byte (a + 31)).getLsbD 7
    let open' : Prop := s.flag ASY_SEC_STAT.loading = false
    let at' (u : State) (j : Nat) : Byte := u.vlt.byte (b + j)
    let entry : List Byte := (List.range 22).map (fun j => data.getD j 0) ++ [0, 0] ++ leBytes 6 time.toNat ++ [BitVec.ofNat 8 node]
    (¬ tx ∨ s.vlt.granted = true ∨ s.vlt.slo ≠ [] ∨ s.consumerDue = true → Nothing (.bulkTxRead e) s) ∧
    (slot → tx → s.vlt.slo = [] → s.consumerDue = false → clean → lap ≠ x.btxLap → Gives (.bulkTxRead e) s (fun u => u.slo = { x with found := false, readTally := s.tally } ∧
      u.regs = s.regs ∧ u.vlt.granted = true ∧ VaultKept s u)) ∧
    (slot → tx → s.vlt.slo = [] → s.consumerDue = false → clean → lap = x.btxLap → Gives (.bulkTxRead e) s (fun u => u.slo.consumed = x.consumed + 1 ∧ u.slo.found = true ∧
      VaultKept s u ∧ u.vlt.granted = true ∧
      u.slo.btxPos = (if x.btxPos + 1 < s.get SLO_BTX_SIZE.entries then x.btxPos + 1 else 0) ∧
      u.slo.btxLap = (if x.btxPos + 1 < s.get SLO_BTX_SIZE.entries then x.btxLap else !x.btxLap))) ∧
    (s.consumerDue = false ∨ s.vlt.granted = true ∨ s.vlt.slo ≠ [] → Nothing (.consumerCountWrite e) s) ∧
    (slot → s.vlt.slo = [] → s.consumerDue = true → open' → Gives (.consumerCountWrite e) s (fun u => u.slo = { x with written := x.consumed, writeTally := s.tally } ∧
      u.regs = s.regs ∧ u.vlt.granted = true ∧ ∀ k, u.vlt.byte k = if 8 * s.get SLO_BTX_CONS.addr ≤ k ∧ k < 8 * s.get SLO_BTX_CONS.addr + 8 then
        BitVec.ofNat 8 (x.consumed.toNat / 2 ^ (8 * (k - 8 * s.get SLO_BTX_CONS.addr))) else s.vlt.byte k)) ∧
    (¬ rx → exec (.bulkReceive node data post time) s = .next (discardCell SLO_DISC.bulk s)) ∧
    (rx → exec (.bulkReceive node data post time) s = .next { s with vlt := { s.vlt with slo := s.vlt.slo ++ [.entry entry post] } }) ∧
    (slot → s.vlt.slo = .entry entry post :: l → open' → Gives (.vaultAccess []) s (fun u => (∀ j < 22, at' u j = data.getD j 0) ∧ at' u 22 = 0 ∧ at' u 23 = 0 ∧
      (∀ j < 6, at' u (24 + j) = BitVec.ofNat 8 (time.toNat / 2 ^ (8 * j))) ∧ at' u 30 = BitVec.ofNat 8 node ∧ at' u 31 = (if x.brxLap then 0x80 else 0) ∧
      u.vlt.slo = l ∧ u.vlt.granted = true ∧ u.rd SLO_BRX_WR = s.rd SLO_BRX_WR + 1 ∧ (∀ k, k < b ∨ b + 32 ≤ k → u.vlt.byte k = s.vlt.byte k) ∧
      (∀ ch, post = some ch → u.flag (bitFld (TLR_CH_PEND ch) 14) = true)))

/-! ### The host interfaces (spec/16) -/

/-- Part of R259, R263, R380–R392, R397, R412, R415, R416, R436, R449: QSPI reads, posted writes and status; accesses no window takes; link loss, PERST_N,
link up and the configuration space; JTAG at the debug level in force. An access to the Vault is queued behind the earlier ones and waits for the
slots. What a read of QSPI that CS_N abandons has popped or latched stands. Rests in part on choices of the model, log entries 2, 6, 38, 51 and 52. -/
def Obligations.HostInterfaces : Prop :=
  ∀ (s : State) (addr : Word) (len : Byte) (bytes : List Byte) (ws : List Word) (off : Nat) (v : Word) (l : List (Word × List Byte)) (speed width : BitVec 3) (o : BitVec 12)
    (mem master cut : Bool) (eccs : List LineEcc) (a24 : BitVec 24) (m : Nat) (k : Fin 3) (base : Dword), s.wf = true →
    let q := s.get GBL_STRAP.hostsel = 1
    let p := s.get GBL_STRAP.hostsel = 0
    let usable := s.flag GBL_HOST.ready
    let n := len.toNat + 1
    let a := addr.toNat
    let room := n ≤ bytes.length ∧ (s.host.qspi.map fun x => x.2.length).sum + n ≤ 512
    let aside : Prop := a + n ≤ 0x1E0000 ∨ 0x1E2000 ≤ a
    let level := s.jtagLevel
    let host (f : HostIf → HostIf) (s : State) : State := { s with host := f s.host }
    let queued (r : BusReq) (s : State) : State := { s with vlt := { s.vlt with host := s.vlt.host ++ [r] } }
    let asks (r : BusReq) : State := { s with vlt := { s.vlt with asy := s.vlt.asy ++ [r] } }
    let wrong : State := { s with host := { s.host with err := true } }.raise GBL_HOST.qspi_err
    let refusal : State := { wrong with out := s.out ++ [.qspi (0x53 :: List.replicate n 0xFF)] }
    let word1 := hostRead a s
    let word2 := hostRead (a + 4) word1.2
    let down (u : State) : Prop := u.flag GBL_HOST.dl_up = false ∧ u.get GBL_HOST.width = 0 ∧ (s.flag GBL_HOST.dl_up = true → u.flag GBL_HOST.link_down = true ∧
      u.flag (bitFld FLT_STAT 17) = true) ∧ u.host.pcie.mem = false ∧ u.host.pcie.master = false ∧ u.host.pcie.msixEn = false ∧ u.host.pcie.d3 = false ∧
      u.vlt = s.vlt ∧ u.dbk = s.dbk ∧ u.tlr = s.tlr
    let up := p ∧ s.host.pcie.perst = false ∧ s.resetLow = false ∧ 1 ≤ speed.toNat ∧ speed.toNat ≤ 3 ∧ (width = 1 ∨ width = 2 ∨ width = 4)
    let config := p ∧ s.host.pcie.perst = false ∧ usable = true
    let pcie (f : Pcie → Pcie) : State := { s with host := { s.host with pcie := f s.host.pcie } }
    (¬ q → Nothing (.qspiRead addr len eccs cut) s ∧ Nothing (.qspiWrite addr len bytes) s ∧ Nothing .qspiStatus s ∧ Nothing .qspiUnknownOpcode s) ∧
    (q → usable = true → s.host.qspi = [] → len = 3 → a < 0x1000000 → a % 4 = 0 → aside →
      exec (.qspiRead addr len eccs false) s = .next { word1.2 with out := word1.2.out ++ [.qspi (0x5A :: leBytes 4 word1.1.toNat)] }) ∧
    (q → usable = true → s.host.qspi = [] → len = 7 → a < 0x1000000 → a % 8 = 0 → aside →
      exec (.qspiRead addr len eccs false) s = .next { word2.2 with out := word2.2.out ++ [.qspi (0x5A :: (leBytes 4 word1.1.toNat ++ leBytes 4 word2.1.toNat))] }) ∧
    (q → usable = true → s.host.qspi = [] → len = 3 → a < 0x1000000 → a % 4 = 0 → aside →
      exec (.qspiRead addr len eccs true) s = .next ({ word1.2 with host := { word1.2.host with err := true } }.raise GBL_HOST.qspi_err)) ∧
    (q → usable = true → s.host.qspi = [] → 0x10000000 ≤ a → a + n ≤ 0x11000000 → exec (.qspiRead addr len eccs false) s =
      .next (queued (.read (a - 0x10000000) n 0 [] eccs (a - 0x10000000) .qspi) s)) ∧
    (q → usable = true → s.host.qspi = [] → 0x20000000 ≤ a → a + n ≤ 0x30000000 → s.get DBK_WIN.base * 2 ^ 20 + (a - 0x20000000) + n ≤ 0x38000000 →
      Gives (.qspiRead addr len [] false) s (fun u => u.regs = s.regs ∧ u.vlt = s.vlt ∧ DaybookKept s u ∧
        u.out = s.out ++ [.qspi (0x5A :: (List.range n).map fun j => s.dbk.byte (s.get DBK_WIN.base * 2 ^ 20 + (a - 0x20000000) + j))])) ∧
    (q → usable = true → windowOf a n ≠ none → (a < 0x1000000 → (n = 4 ∨ n = 8) ∧ a % n = 0 ∧ aside) → s.host.qspi ≠ [] → exec (.qspiRead addr len eccs cut) s =
      .next { s with inflight := s.inflight ++ [(s.tb.cyc + 1, .qspiRead addr len eccs cut)] }) ∧
    (q → windowOf a n = none ∨ usable = false ∨ (a < 0x1000000 ∧ ¬ ((n = 4 ∨ n = 8) ∧ a % n = 0 ∧ aside)) → exec (.qspiRead addr len eccs false) s = .next refusal ∧
      exec (.qspiRead addr len eccs true) s = .next wrong) ∧
    (q → room → (a + n ≤ 0x1000000 ∧ aside ∧ a % 4 = 0 ∧ n % 4 = 0) ∨ (0x10000000 ≤ a ∧ a + n ≤ 0x12000000) → exec (.qspiWrite addr len bytes) s = .next
      (host (fun x => { x with qspi := x.qspi ++ [(addr, bytes.take n)] }) s)) ∧
    (q → ¬ room ∨ windowOf a n = none ∨ 0x20000000 ≤ a ∨ (a < 0x1000000 ∧ ¬ (aside ∧ a % 4 = 0 ∧ n % 4 = 0)) → exec (.qspiWrite addr len bytes) s = .next wrong) ∧
    (usable = false ∨ s.host.qspi = [] → Nothing .qspiWriteApply s) ∧
    (usable = true → s.host.qspiOut = false → s.host.qspi = (addr, leBytes 4 v.toNat) :: l → a + 4 ≤ 0x1000000 →
      exec .qspiWriteApply s = exec (.registerWrite a v) (host (fun x => { x with qspi := l, qspiOut := false }) s)) ∧
    (usable = true → s.host.qspiOut = false → s.host.qspi = (addr, ws.flatMap fun w => leBytes 4 w.toNat) :: l → a + 4 * ws.length ≤ 0x1000000 →
      exec .qspiWriteApply s = .next (hostWrites a ws (host (fun x => { x with qspi := l, qspiOut := false }) s))) ∧
    (usable = true → s.host.qspiOut = false → s.host.qspi = (addr, bytes) :: l → bytes ≠ [] → 0x10000000 ≤ a → a + bytes.length ≤ 0x11000000 →
      exec .qspiWriteApply s = .next (queued (.write (a - 0x10000000) (bytes.map some) []) (host (fun x => { x with qspiOut := true }) s))) ∧
    (usable = true → s.host.qspiOut = true → s.host.qspi = (addr, bytes) :: l → s.vlt.host = [] → exec .qspiWriteApply s = .next (host (fun x => { x with qspi := l, qspiOut := false }) s)) ∧
    (usable = true → s.host.qspiOut = true → s.vlt.host ≠ [] → Nothing .qspiWriteApply s) ∧
    (q → Gives .qspiStatus s (fun u => u.host = { s.host with err := false } ∧ u.regs = s.regs ∧ ∃ b : Byte, u.out = s.out ++ [.qspi [b]] ∧ b.getLsbD 0 = !s.host.qspi.isEmpty ∧
      b.getLsbD 1 = decide (512 < s.qspiUsed + 260) ∧ b.getLsbD 2 = s.host.err ∧ b.getLsbD 3 = s.irqPin 0 ∧ b.getLsbD 4 = s.irqPin 1 ∧ b.getLsbD 5 = usable)) ∧
    (q → exec .qspiUnknownOpcode s = .next wrong) ∧
    exec (.bar0BadAccess .read) s = .next { s.raise GBL_HOST.bad_acc with read := [0xFFFFFFFF] } ∧
    exec (.bar0BadAccess .write) s = .next (s.raise GBL_HOST.bad_acc) ∧ exec (.bar0BadAccess .poisoned) s = .next (s.raise GBL_HOST.poison_rx) ∧
    (¬ p → Nothing .hotReset s ∧ Nothing (.perst true) s ∧ Nothing (.perst false) s) ∧
    (p → Gives .hotReset s down ∧ Gives (.perst true) s (fun u => down u ∧ u.host.pcie.perst = true) ∧
      exec (.perst false) s = .next (pcie fun x => { x with perst := false })) ∧
    (up → exec (.pcieLinkUp speed width) s = .next (((s.raise GBL_HOST.dl_up).set GBL_HOST.speed speed.toNat).set GBL_HOST.width width.toNat)) ∧
    (¬ up → Nothing (.pcieLinkUp speed width) s) ∧
    (¬ p ∨ s.host.pcie.perst = true → Nothing (.pcieConfigRequest (.read o)) s) ∧
    (p → s.host.pcie.perst = false → usable = false → exec (.pcieConfigRequest (.read o)) s = .next { s with out := s.out ++ [.retry] }) ∧
    (config → exec (.pcieConfigRequest (.read 0)) s = .next { s with read := [0x05121F3A] } ∧ Gives (.pcieConfigRequest (.read o)) s (fun u => u.regs = s.regs ∧ u.host = s.host ∧ u.read.length = 1) ∧
      exec (.pcieConfigRequest (.write (.command mem master))) s = .next (pcie fun x => { x with mem := mem, master := master }) ∧
      exec (.pcieConfigRequest (.write (.msix mem master))) s = .next (pcie fun x => { x with msixEn := mem, maskAll := master }) ∧
      exec (.pcieConfigRequest (.write (.bar k base))) s = .next (pcie fun x => { x with
        bars := x.bars.set k (BitVec.ofNat 64 (base.toNat / (if k = 0 then 2 ^ 24 else if k = 1 then 2 ^ 25 else 2 ^ 28) * (if k = 0 then 2 ^ 24 else if k = 1 then 2 ^ 25 else 2 ^ 28))) })) ∧
    Nothing (.jtagAccess .bypass) s ∧ Nothing (.jtagAccess .step) s ∧ Gives (.jtagAccess .idcode) s (fun u => u.regs = s.regs ∧ ∃ x, u.out = s.out ++ [.jtag x]) ∧
    (level = 0 → Nothing (.jtagAccess .halt) s ∧ Nothing (.jtagAccess .inspect) s ∧ Nothing (.jtagAccess (.regRead off)) s ∧ Nothing (.jtagAccess (.regWrite off v)) s ∧
      Nothing (.jtagAccess (.vaultRead a24 m eccs)) s ∧ Nothing (.jtagAccess (.vaultWrite a24 bytes eccs)) s) ∧
    (level ≠ 0 → Gives (.jtagAccess (.regRead GBL_SCRATCH)) s (fun u => u.out = s.out ++ [.jtag (s.rd GBL_SCRATCH)] ∧ u.regs = s.regs) ∧
      exec (.jtagAccess (.regWrite GBL_SCRATCH v)) s = .next (s.wr GBL_SCRATCH v) ∧
      (0 < m → a24.toNat + m ≤ 0x1000000 → exec (.jtagAccess (.vaultRead a24 m eccs)) s = .next (asks (.read a24.toNat m 0 [] eccs 0 .jtag))) ∧
      (bytes ≠ [] → a24.toNat + bytes.length ≤ 0x1000000 → exec (.jtagAccess (.vaultWrite a24 bytes eccs)) s = .next (asks (.write a24.toNat (bytes.map some) eccs))) ∧
      Gives (.jtagAccess .halt) s (fun u => u.flag ASY_STAT.ready = false ∧ u.asy.queue = [] ∧ u.asy.challenge = none ∧ u.asy.ledger = s.asy.ledger ∧ VaultKept s u))

/-! ### The Assayer (spec/17) -/

/-- Part of R397–R399, R403–R406, R408, R411, R416: the mailbox. A command runs only when it is the one waiting, within its arguments and mode; INFO,
LEDGER_READ, LEDGER_NOTE, FW_RESTART, an unlisted opcode; the response, which waits until the Assayer's accesses have had their slots; closing debug
access. Rests in part on choices of the model, log entries 2 and 26. -/
def Obligations.MailboxCommands : Prop :=
  ∀ (s : State) (c : MboxCmd) (st : Nat) (ws : List Word) (x : LedgerEntry) (pl : Nat) (ok : Bool), s.wf = true →
    let codes : List Nat := [0x01, 0x02, 0x03, 0x10, 0x11, 0x12, 0x13, 0x14, 0x15, 0x20, 0x21, 0x22, 0x30, 0x31]
    let done (r : Nat × List Word) : State := { s with asy := { s.asy with result := some r } }
    let rom := s.flag ASY_STAT.rom_mode
    let free := s.asy.result = none ∧ s.asyReady = true
    let count := (s.arg 1).toNat
    let a := (s.arg 2).toNat
    let held := (s.asy.ledger.filter fun y => s.arg 0 = 0xFFFFFFFF ∨ (s.arg 0).toNat ≤ y.2.seq.toNat).length
    let gated (i : Instr) (op args : Nat) : Prop :=
      ((s.asy.cmd = none ∨ (s.asy.cmd = some c ∧ c.op.toNat ≠ op)) → Nothing i s) ∧
      (s.asy.cmd = some c → c.op.toNat = op → ¬ free → Nothing i s) ∧
      (s.asy.cmd = some c → c.op.toNat = op → free → rom = true → op ∉ [0x01, 0x02, 0x15] → exec i s = .next (done (8, []))) ∧
      (s.asy.cmd = some c → c.op.toNat = op → free → rom = false → c.len < args → exec i s = .next (done (3, [])))
    let bad := count < 1 ∨ 256 < count ∨ a % 32 ≠ 0 ∨ 0x1000000 < a + 32 * count
    gated .mailboxInfo 0x01 0 ∧ gated .ledgerRead 0x02 3 ∧ gated .ledgerNote 0x03 3 ∧ gated (.fwUpdate ok) 0x10 2 ∧ gated .fwRestart 0x11 0 ∧ gated .ucodeLoad 0x12 2 ∧
    gated .progLoad 0x13 2 ∧ gated .mintLoad 0x14 2 ∧ gated .fwBoot 0x15 2 ∧ gated (.otpKey ok) 0x20 3 ∧ gated (.otpCfg ok) 0x21 1 ∧ gated (.rollback ok) 0x22 2 ∧ gated .dbgChal 0x30 0 ∧
    gated .dbgResp 0x31 18 ∧
    (Running 0x01 0 s → exec .mailboxInfo s = .next (done (0, [s.asy.version, s.rd MNT_VER,
      BitVec.ofNat 32 (s.counter 0 + s.counter 1 * 2 ^ 8 + s.counter 2 * 2 ^ 16 + s.counter 3 * 2 ^ 24), s.otpCfg, s.asy.boots.setWidth 32, s.asy.seq]))) ∧
    (Running 0x02 3 s → bad → exec .ledgerRead s = .next (done (3, []))) ∧
    (Running 0x02 3 s → ¬ bad → Gives .ledgerRead s (fun u => (∃ w, u.asy.result = some (0, [BitVec.ofNat 32 (min count held), w])) ∧
      VaultKept s u ∧ u.asy.ledger = s.asy.ledger ∧ u.regs = s.regs ∧
      (held = 0 → u.vlt = s.vlt) ∧ (0 < held → ∃ bs, u.vlt = { s.vlt with asy := s.vlt.asy ++ [.write a bs []] } ∧ bs.length = 32 * min count held ∧
        (s.asy.ledger = [(pl, x)] → bs = x.bytes.map some)))) ∧
    (Running 0x03 3 s → s.asy.queue.length < 64 → Gives .ledgerNote s (fun u => u.asy.result = some (0, [s.asy.seq]) ∧ u.asy.seq = s.asy.seq + 1 ∧
      ∃ sev, u.asy.queue = s.asy.queue ++ [⟨s.asy.seq, s.asy.boots, sev, ⟨5, (s.arg 0).setWidth 16, 3, s.arg 2 ++ s.arg 1, s.eventTime⟩⟩] ∧ u.regs = s.regs)) ∧
    (Running 0x11 0 s → Gives .fwRestart s (fun u => u.asy.result = some (0, []) ∧ u.flag ASY_STAT.ready = false ∧ u.asy.queue = [] ∧ u.asy.challenge = none ∧
      u.flag (bitFld FLT_STAT 23) = true)) ∧
    (s.asy.cmd = some c → free → c.op.toNat ∉ codes → exec .mailboxUnknownOpcode s = .next (done (2, []))) ∧
    (s.asy.cmd = some c → c.op.toNat ∈ codes → Nothing .mailboxUnknownOpcode s) ∧
    (s.asy.cmd = some c → s.asy.result = some (st, ws) → s.asyReady = true → s.vlt.asy = [] → st < 256 → ws.length ≤ 64 → Gives .mailboxResponse s (fun u =>
      u.flag ASY_MBOX_RSP.busy = false ∧ u.flag ASY_MBOX_RSP.done' = true ∧ u.get ASY_MBOX_RSP.status = st ∧ u.get ASY_MBOX_RSP.tag = c.tag.toNat ∧
      u.get ASY_MBOX_RSP.len = ws.length ∧ (∀ k < ws.length, u.rd (ASY_MBOX_DATA k) = ws.getD k 0) ∧ u.asy.cmd = none ∧ u.asy.result = none ∧
      u.flag ASY_SEC_STAT.loading = false ∧ u.vlt = s.vlt)) ∧
    (s.asy.cmd = some c → s.asy.result = some (st, ws) → s.asyReady = true → s.vlt.asy ≠ [] → exec .mailboxResponse s =
      .next { s with inflight := s.inflight ++ [(s.tb.cyc + 1, .mailboxResponse)] }) ∧
    (s.asy.cmd = none ∨ s.asy.result = none ∨ s.asyReady = false → Nothing .mailboxResponse s) ∧
    exec .debugClose s = .next (s.set ASY_DBG.level 0)

/-- Part of R407–R414, R416, R417: images, OTP and debug unlock. An image that its first pass refuses is answered with that status and changes no store;
one that it accepts goes where its type says. A command that reads the Vault waits until its bytes have come through the Assayer's slots. An OTP bit
once blown stays blown. Where the outcome rests on a signature, the statement names the outcome of the check. Rests in part on choices of the model,
log entries 26, 27 and 40. -/
def Obligations.SecurityCommands : Prop :=
  ∀ (s : State) (ok : Bool) (bs : List Byte), s.wf = true → Sparse.wf zeroByte s.asy.otp = true →
    let slot := (s.arg 0).toNat
    let kind := (s.arg 1).toNat
    let a := (s.arg 2).toNat
    let key := keyAt kind slot
    let w := s.arg 0
    let answered (st : Nat) (l : List Word) (u : State) : Prop := u.asy.result = some (st, l)
    let same (u : State) : Prop := u.asy.otp = s.asy.otp ∧ u.asy.slots = s.asy.slots ∧ u.mnt = s.mnt ∧ u.tlr.prog = s.tlr.prog ∧ u.vlt = s.vlt
    let blown (u : State) : Prop := ∀ j, s.otp j &&& u.otp j = s.otp j
    let holds (op : Nat) : Prop := (s.cmdBytes op = none ∧ bs = []) ∨ (s.cmdBytes op ≠ none ∧ s.asy.fetch = some bs)
    let waits (op : Nat) (c : Instr) : Prop := s.cmdBytes op ≠ none → s.asy.fetch = none → exec c s = .next { s with inflight := s.inflight ++ [(s.tb.cyc + 1, c)] }
    let image (op type : Nat) (c : Instr) (P : Image → List Byte → State → Prop) : Prop := waits op c ∧ (holds op → Gives c s (fun u => blown u ∧ VaultKept s u ∧ match firstPass type bs s with
      | .error st => answered st [] u ∧ same u ∧ (4 ≤ st → st ≤ 7 → u.flag ASY_STAT.sec_event = true)
      | .ok (x, p) => 128 ≤ bs.length ∧ leValue (bs.take 4) = 0x4941474A ∧ P x p u))
    let opens := s.otpBit 2 = true ∧ s.otpBit 3 = false
    let badKey := 1 < slot ∨ 1 < kind ∨ 0x1000000 < a + 32
    let fullKey := s.otpBit 8 = true ∨ (s.otpBytes key 32).any (fun b => b != 0) = true
    let badCnt := 3 < slot ∨ kind < s.counter slot ∨ 64 < kind
    let verified (x : BitVec 256) (level : Nat) (k : List Byte) : Prop :=
      Config.ecdsaVerify k (Config.sha256 (leBytes 32 x.toNat ++ leBytes 8 Config.deviceUid.toNat ++ [BitVec.ofNat 8 level])) ((List.range 16).flatMap fun j => leBytes 4 (s.arg (2 + j)).toNat) = true
    let unlocks (x : BitVec 256) (level : Nat) (k : List Byte) : Prop := Gives .dbgResp s (fun u => u.asy.challenge = none ∧ u.flag ASY_STAT.sec_event = true ∧
      (verified x level k → answered 0 [] u ∧ u.get ASY_DBG.level = level) ∧ (¬ verified x level k → answered 4 [] u ∧ u.get ASY_DBG.level = s.get ASY_DBG.level))
    (Running 0x10 2 s → image 0x10 1 (.fwUpdate true) (fun x p u => answered 0 [] u ∧ u.mnt = s.mnt ∧ u.tlr.prog = s.tlr.prog ∧
        ∃ order, u.asy.slots = s.asy.slots.set (1 - s.asy.running) (some ⟨x.sver, order, x.advance, Config.fwVersion p⟩)) ∧
      image 0x10 1 (.fwUpdate false) (fun _ _ u => answered 9 [] u ∧ same u)) ∧
    (Running 0x12 2 s → image 0x12 2 .ucodeLoad (fun x p u => if s.enginesOff = false then answered 8 [] u ∧ same u else match goodRecords 2 p with
      | none => answered 3 [] u ∧ same u
      | some _ => answered 0 [] u ∧ u.rd MNT_VER = Config.ucodeVersion p ∧ u.tlr.prog = s.tlr.prog ∧ u.asy.slots = s.asy.slots)) ∧
    (Running 0x14 2 s → image 0x14 4 .mintLoad (fun x p u => if s.flag MNT_CTRL.lock then answered 8 [] u ∧ same u else match goodRecords 4 p with
      | none => answered 3 [] u ∧ same u
      | some _ => answered 0 [] u ∧ u.get MNT_STAT.img_src = (if x.encrypted then 2 else 1) ∧ (x.encrypted = true → u.flag MNT_CTRL.lock = true ∧ u.flag MNT_CTRL.hide = true) ∧
        u.tlr.prog = s.tlr.prog)) ∧
    (Running 0x13 2 s → image 0x13 3 .progLoad (fun x p u => if 65536 < x.addr + p.length / 4 then answered 3 [] u ∧ same u else
      (∃ l, answered 0 l u) ∧ u.mnt = s.mnt ∧ (x.encrypted = true → ∀ i < p.length / 4, (u.rd64 ASY_PS_PROT).getLsbD ((x.addr + i) / 1024) = true))) ∧
    (Running 0x15 2 s → image 0x15 1 .fwBoot (fun _ _ u => answered 8 [] u ∧ same u)) ∧
    (∀ c, s.asy.cmd = some c → c.op = 0x15 → 2 ≤ c.len → s.asy.result = none → s.asyReady = true → s.flag ASY_STAT.rom_mode = true → image 0x15 1 .fwBoot (fun _ p u =>
      answered 0 [] u ∧ u.flag ASY_STAT.rom_mode = false ∧ u.flag FLT_BOOT.fw = true ∧ u.asy.version = Config.fwVersion p ∧ u.asy.slots = s.asy.slots)) ∧
    (Running 0x20 3 s → waits 0x20 (.otpKey ok)) ∧
    (Running 0x20 3 s → holds 0x20 → badKey → Gives (.otpKey ok) s (fun u => answered 3 [] u ∧ same u)) ∧
    (Running 0x20 3 s → holds 0x20 → ¬ badKey → fullKey → Gives (.otpKey ok) s (fun u => answered 10 [] u ∧ same u)) ∧
    (Running 0x20 3 s → holds 0x20 → ¬ badKey → ¬ fullKey → bs.length = 32 → Gives (.otpKey true) s (fun u => answered 0 [] u ∧ u.otpBytes key 32 = bs ∧ blown u ∧
        u.flag ASY_STAT.sec_event = true ∧ u.vlt = { s.vlt with asy := s.vlt.asy ++ [.write a (List.replicate 32 (some 0)) []] }) ∧
      Gives (.otpKey false) s (fun u => answered 10 [] u ∧ blown u ∧ u.flag ASY_SEC_STAT.otp_err = true ∧ u.vlt = s.vlt)) ∧
    (Running 0x21 1 s → w &&& 0xFFFFFE00 ≠ 0 → Gives (.otpCfg ok) s (fun u => answered 3 [] u ∧ same u)) ∧
    (Running 0x21 1 s → w &&& 0xFFFFFE00 = 0 → s.otpBit 8 = true → w &&& 0xFFFFFF07 ≠ 0 → Gives (.otpCfg ok) s (fun u => answered 10 [] u ∧ same u)) ∧
    (Running 0x21 1 s → w &&& 0xFFFFFE00 = 0 → s.otpBit 8 = false ∨ w &&& 0xFFFFFF07 = 0 → Gives (.otpCfg true) s (fun u => u.otpCfg = s.otpCfg ||| w ∧ answered 0 [s.otpCfg ||| w] u ∧
        u.flag ASY_STAT.sec_event = true ∧ u.vlt = s.vlt) ∧
      Gives (.otpCfg false) s (fun u => answered 10 [] u ∧ u.otpCfg &&& (s.otpCfg ||| w) = u.otpCfg ∧ blown u)) ∧
    (Running 0x22 2 s → badCnt → Gives (.rollback ok) s (fun u => answered 3 [] u ∧ same u)) ∧
    (Running 0x22 2 s → ¬ badCnt → Gives (.rollback true) s (fun u => answered 0 [BitVec.ofNat 32 (u.counter slot)] u ∧ s.counter slot ≤ u.counter slot ∧ kind ≤ u.counter slot ∧ blown u ∧
        u.flag ASY_STAT.sec_event = true) ∧
      Gives (.rollback false) s (fun u => answered 10 [] u ∧ blown u ∧ u.flag ASY_SEC_STAT.otp_err = true)) ∧
    (Running 0x30 0 s → ¬ opens → Gives .dbgChal s (fun u => answered 8 [] u ∧ u.asy.challenge = s.asy.challenge)) ∧
    (Running 0x30 0 s → opens → Gives .dbgChal s (fun u => ∃ x, u.asy.challenge = some x ∧ answered 0 ((List.range 8).map fun k => (x >>> (32 * k)).setWidth 32) u)) ∧
    (Running 0x31 18 s → s.asy.challenge = none ∨ ¬ opens → Gives .dbgResp s (fun u => answered 8 [] u ∧ u.asy.challenge = none ∧ u.get ASY_DBG.level = s.get ASY_DBG.level)) ∧
    (∀ x, Running 0x31 18 s → s.asy.challenge = some x → opens →
      (slot = 2 → unlocks x 2 Config.vendorKey) ∧
      (slot = 1 → kind ≤ 1 → s.keyPresent 0 kind = true → unlocks x 1 (Config.customerKey (s.otpBytes (keyAt 0 kind) 32))) ∧
      (slot = 1 → kind ≤ 1 → s.keyPresent 0 kind = false → Gives .dbgResp s (fun u => answered 6 [] u ∧ u.flag ASY_STAT.sec_event = true ∧ u.get ASY_DBG.level = s.get ASY_DBG.level)) ∧
      (slot = 0 ∨ 2 < slot ∨ (slot = 1 ∧ 1 < kind) → Gives .dbgResp s (fun u => answered 3 [] u ∧ u.get ASY_DBG.level = s.get ASY_DBG.level)))

/-- Part of R397, R400–R406, R412: what the Assayer logs and measures: a fault's or a sensor's edge becomes a queued entry, the oldest entry goes to the
NOR, readings and limits, the stopped clock, the watchdog. Rests in part on choices of the model, log entries 2, 28 and 41. -/
def Obligations.LedgerAndSensors : Prop :=
  ∀ (s : State) (x : LedgerEntry) (l : List LedgerEntry) (e : AsyEdge) (r : List AsyEdge) (temps : Vector (BitVec 16) 9) (sups : Vector (BitVec 16) 10) (ref : Word) (ok : Bool)
    (vio : List (Fin 8 × BitVec 16)) (b : Fin 8) (mv : BitVec 16), s.wf = true →
    let a := s.asy
    let p := a.place
    let temp (i : Fin 9) (k : Fld) (d : Fld) : Nat := 16 * s.get (if i = 8 then d else k)
    let level := if temps[8].toInt ≤ 1360 then 0 else if temps[8].toInt ≤ 1520 then 1 else 2
    (s.asyReady = false ∨ a.queue = [] → Nothing (.ledgerWrite ok) s) ∧
    (s.asyReady = true → a.queue = x :: l → a.lost = 0 → p < 4224 → Gives (.ledgerWrite true) s (fun u => u.asy.queue = l ∧ (p, x) ∈ u.asy.ledger ∧ u.asy.place = (p + 1) % 4224 ∧
      (∀ y ∈ u.asy.ledger, y = (p, x) ∨ (y ∈ a.ledger ∧ y.1 ≠ p)) ∧ (∀ y ∈ a.ledger, y.1 ≠ p → p % 128 ≠ 0 ∨ y.1 / 128 ≠ p / 128 → y ∈ u.asy.ledger) ∧ u.regs = s.regs)) ∧
    (s.asyReady = true → a.queue = x :: l → a.lost ≠ 0 → l.length < 64 → Gives (.ledgerWrite true) s (fun u => u.asy.lost = 0 ∧ u.flag ASY_STAT.ledger_lost = true ∧ (p, x) ∈ u.asy.ledger ∧
      OnlyRegs [ASY_STAT] s u ∧ ∃ sev, u.asy.queue = l ++ [⟨a.seq, a.boots, sev, ⟨6, 0, 0, BitVec.ofNat 64 a.lost, s.eventTime⟩⟩])) ∧
    (s.asyReady = true → a.queue = x :: l → Gives (.ledgerWrite false) s (fun u => u.asy.queue = a.queue ∧ u.asy.place = (p / 128 + 1) % 33 * 128 ∧ u.flag ASY_STAT.nor_err = true ∧ OnlyRegs [ASY_STAT] s u)) ∧
    (s.asyReady = false ∨ s.asyEdges = [] → Nothing .faultEdge s) ∧
    (s.asyReady = true → s.asyEdges = e :: r → a.queue.length < 64 → Gives .faultEdge s (fun u => u.asyEdges = r ∧ u.asy.seq = a.seq + 1 ∧ u.regs = s.regs ∧
      ∃ sev, u.asy.queue = a.queue ++ [⟨a.seq, a.boots, sev, e⟩])) ∧
    (s.asyReady = true → s.asyEdges = e :: r → 64 ≤ a.queue.length → Gives .faultEdge s (fun u => u.asyEdges = r ∧ u.asy.queue = a.queue ∧ u.asy.lost = a.lost + 1)) ∧
    Gives (.sensorSample temps sups vio ref) s (fun u => (∀ i : Fin 9, u.get (ASY_TEMP.temp i) = temps[i].toNat) ∧ (∀ j : Fin 10, u.get (ASY_SUP.mv j) = sups[j].toNat) ∧
      u.rd ASY_REF = ref ∧ u.get DBK_GSTAT.throttle = level ∧ u.asy.stopped = false ∧
      ((∃ i : Fin 9, a.hot[i.castLE (by decide : 9 ≤ 18)] = false ∧ (temp i ASY_TLIM.die_warn ASY_TLIM.dram_warn : Int) ≤ temps[i].toInt) → u.flag ASY_STAT.temp_warn = true) ∧
      ((∃ j : Fin 10, sups[j].toNat < s.get (ASY_SUP_LIM.lo j) ∨ s.get (ASY_SUP_LIM.hi j) < sups[j].toNat) → u.flag ASY_STAT.sup_out = true) ∧
      (3000 < ref.toInt.natAbs → u.flag ASY_STAT.ref_out = true) ∧ u.vlt = s.vlt ∧ u.dbk = s.dbk ∧ u.tlr = s.tlr) ∧
    (let off := mv.toNat * 10 < (if s.flag (FCT_BANK.vsel b) then 3300 else 1800) * 9 ∨ (if s.flag (FCT_BANK.vsel b) then 3300 else 1800) * 11 < mv.toNat * 10
     Gives (.sensorSample temps sups [(b, mv)] ref) s (fun u => u.get (ASY_VIO.mv b) = mv.toNat ∧ u.flag (FCT_BANK.vmis b) = decide off ∧ (off → u.flag ASY_STAT.sup_out = true))) ∧
    Gives .asyClockStop s (fun u => u.asy.stopped = true ∧ u.get DBK_GSTAT.throttle = 2 ∧ (s.get DBK_GSTAT.throttle ≠ 2 → u.flag (bitFld FLT_STAT 14) = true) ∧
      u.vlt = s.vlt ∧ u.dbk = s.dbk) ∧
    Gives .watchdogRestart s (fun u => u.flag ASY_STAT.ready = false ∧ u.flag ASY_STAT.fw_fault = true ∧ u.flag (bitFld FLT_STAT 23) = true ∧ u.asy.queue = [] ∧
      u.asy.result = (if a.cmd.isSome then some (11, []) else none) ∧ u.asy.ledger = a.ledger ∧ u.asy.otp = a.otp ∧ VaultKept s u)

/-- Part of R34, R346, R378, R408, R412, R435, R436: RESET_N and the boot. What reset keeps is the OTP, the NOR and what stands outside; the firmware that
runs is that of the valid slot with the higher security version. Rests in part on choices of the model, log entries 8, 27 and 39. -/
def Obligations.ResetAndBoot : Prop :=
  ∀ (s : State) (strap : BitVec 2) (root bootSrc bad0 bad1 : Bool) (x y : FwSlot) (v : Word) (ms : BitVec 16) (disp legacy : List Word), s.wf = true →
    let a := s.asy
    let fw := s.flag FLT_BOOT.fw
    let ready := s.flag ASY_STAT.ready
    let ms' := s.get PWR_STAT.state
    let target := s.get PWR_CTRL.target
    let boots := ready = false ∧ s.resetLow = false ∧ s.flag GBL_HOST.ready = true
    let valid (z : FwSlot) : Prop := s.counter 0 ≤ z.sver ∧ z.sver ≤ 64
    Gives .resetNAssert s (fun u => u.resetLow = true ∧ (∀ off, off ≠ FCT_GSAFE → u.rd off = resetWord off) ∧ u.tb = TimeBase.reset ∧ u.tlr = Teller.reset ∧ u.asy.otp = a.otp ∧
      u.asy.slots = a.slots ∧ u.asy.ledger = a.ledger ∧ u.pending = s.pending ∧ ∀ n : Fin 256, (u.fct[n]).ext = (s.fct[n]).ext ∧ (u.fct[n]).queue = []) ∧
    (s.resetLow = false → Nothing (.resetNRelease strap root bootSrc) s) ∧
    (s.resetLow = true → Gives (.resetNRelease strap root bootSrc) s (fun u => u.resetLow = false ∧ u.get GBL_STRAP.hostsel = strap.toNat ∧ u.flag GBL_STRAP.node_root = root ∧
      u.flag GBL_STRAP.boot_src = bootSrc ∧ u.asy.boots = a.boots + 1 ∧ u.asy.otp = a.otp ∧
      (s.otpBit 2 = true ∨ s.otpBit 3 = true → u.get ASY_DBG.level = 0) ∧ u.vlt = s.vlt ∧ u.fct = s.fct)) ∧
    (¬ boots → Nothing (.firmwareReady bad0 bad1) s) ∧
    (boots → s.flag GBL_STRAP.boot_src = true → Gives (.firmwareReady bad0 bad1) s (fun u => u.flag ASY_STAT.ready = true ∧ u.flag ASY_STAT.rom_mode = true)) ∧
    (boots → s.flag GBL_STRAP.boot_src = false → a.slots[0] = some x → a.slots[1] = some y → valid x → valid y → y.sver < x.sver → Gives (.firmwareReady bad0 bad1) s (fun u =>
      u.flag ASY_STAT.ready = true ∧ u.flag ASY_STAT.rom_mode = (bad0 && bad1) ∧ (bad0 = false → u.asy.running = 0 ∧ u.asy.version = x.version ∧ u.flag FLT_BOOT.fw = true ∧ u.flag FLT_BOOT.fallback = false) ∧
      (bad0 = true → bad1 = false → u.asy.running = 1 ∧ u.asy.version = y.version ∧ u.flag FLT_BOOT.fw = true ∧ u.flag FLT_BOOT.fallback = true))) ∧
    (boots → a.slots[0] = none → a.slots[1] = none → Gives (.firmwareReady bad0 bad1) s (fun u => u.flag ASY_STAT.ready = true ∧ u.flag ASY_STAT.rom_mode = true)) ∧
    (fw = false ∨ s.flag FLT_BOOT.ucode = true → Nothing (.ucodeLoaded v ms disp legacy) s) ∧
    (fw = true → s.flag FLT_BOOT.ucode = false → Gives (.ucodeLoaded v ms disp legacy) s (fun u => u.rd MNT_VER = v ∧ u.flag FLT_BOOT.ucode = true ∧ u.get FLT_BOOT.ucode_ms = ms.toNat ∧
      (∀ k < 0xE0, u.rd (MNT_DISP k) = disp.getD k 0) ∧ u.vlt = s.vlt ∧ u.tlr = s.tlr ∧
      (Sparse.wf (fun _ => (0 : Word)) s.mnt.legacy = true → ∀ k < 0x100, Sparse.get (fun _ => 0) u.mnt.legacy k = legacy.getD k 0))) ∧
    (fw = false ∨ s.flag FLT_BOOT.daybook = true → Nothing .daybookTrained s) ∧
    (fw = true → s.flag FLT_BOOT.daybook = false → Gives .daybookTrained s (fun u => u.flag DBK_GSTAT.trained = true ∧ u.flag FLT_BOOT.daybook = true ∧
      (ms' ≠ 6 → u.get PWR_STAT.state = ms') ∧ (ms' = 6 → u.flag PWR_STAT.dp_resumed = true ∧ u.get PWR_CTRL.target = target ∧
        u.get PWR_STAT.state = (if 2 ≤ target then 2 else target))))

/-! ### The queue, reset, and what every step keeps -/

/-- A step takes the command at the front of the queue and is that command's effect on the state with the rest of the queue; with the queue empty it is a
tick of the block (the model's choice, log entry 1). -/
def Obligations.StepTakesTheFront : Prop :=
  ∀ (s : State) (c : Instr) (rest : List Instr),
    step { s with pending := c :: rest } = exec c { s with pending := rest } ∧ step { s with pending := [] } = .next (tick { s with pending := [] })

/-- Part of R34, R60, R142, R379, R435 and the register tables: what stands at reset. GTB is 0 with no boundary pending, facets drive nothing and hold no
entry, every context has budget 800 and no wake time, no routine runs, the queue of commands is empty, memories list nothing, and the stored data are
in canonical form. Rests in part on choices of the model, log entries 8 and 9. -/
def Obligations.ResetState : Prop :=
  State.reset.wf = true ∧ State.reset.pending = [] ∧ State.reset.tb.gtb = 0 ∧ State.reset.rd TB_SLEW = 0 ∧ State.reset.get TLR_CTRL.run = 0 ∧
    (∀ n : Fin 256, (State.reset.fct[n]).queue = [] ∧ (State.reset.fct[n]).caps = [] ∧ State.reset.rd (FCT_CTRL n) = resetWord (FCT_CTRL n)) ∧
    (∀ ch : Fin 512, (State.reset.tlr.ctx[ch]).budget = 800 ∧ (State.reset.tlr.ctx[ch]).wake = noTime ∧ (State.reset.tlr.ctx[ch]).pc = 0) ∧
    (∀ e : Fin 17, State.reset.tlr.eng[e] = Engine.reset) ∧ (∀ n : Fin 32, State.reset.rd (CNT_VAL n) = 0) ∧ State.reset.ic.queue = [] ∧ State.reset.vlt.mem = [] ∧ State.reset.dbk.mem = []

/-- From every state whose register words, Vault, Daybook and program store are in canonical form (keys strictly rising, nothing listed at its resting
value), a step answers a state of which the same holds. Rests in part on choices of the model, log entries 10, 11 and 12. -/
def Obligations.CanonicalKept : Prop := ∀ s t : State, s.wf = true → step s = .next t → t.wf = true

/-- A command that is no store leaves every byte of the Vault and of the Daybook as it was. The stores are the commands excepted here: the granted slots
of the Vault (commit unit, writers of the blocks, host atomics, VAULT_ACCESS), the line writes of DMA channels, of the assemblers and of the consumer
counts, the clearing of the Vault, reset and Deep Park. A command that only asks for a write (a BAR2 access, a QSPI or JTAG access, a posted command
of a routine) is no store. -/
def Obligations.MemoryFrame : Prop :=
  ∀ (c : Instr) (s t : State),
    (match c with
      | .commitVaultWrite _ | .hostAtomicApply _ | .writerLineWrite _ | .dmaWriteIssue .. | .assemblerLineWrite .. | .consumerCountWrite _ | .vaultAccess _ | .vaultClearDone | .resetNAssert | .deepParkEntry => False
      | _ => True) →
    exec c s = .next t → VaultKept s t ∧ DaybookKept s t
end

