-- ==== Sys2Proof/Laws/Sparse.lean ====
section
/-!
SUPPORT. The canonical lists: reading after writing, and the form kept.
-/
namespace Sys2Proof

/-- Every key of the list lies above `n`. -/
def Sparse.Above {α : Type} (n : Nat) (m : Sparse α) : Prop := ∀ p ∈ m, n < p.1

variable {α : Type} [DecidableEq α] {d : Nat → α}

theorem Sparse.wf_cons {k : Nat} {x : α} {m : Sparse α} :
    Sparse.wf d ((k, x) :: m) = true ↔ x ≠ d k ∧ Sparse.Above k m ∧ Sparse.wf d m = true := by
  induction m generalizing k x with
  | nil => simp [Sparse.wf, Sparse.Above]
  | cons p r ih =>
    obtain ⟨j, y⟩ := p
    simp only [Sparse.wf, Bool.and_eq_true, decide_eq_true_eq, ih]
    constructor
    · rintro ⟨⟨hx, hk⟩, hy, ha, hr⟩
      refine ⟨hx, ?_, hy, ha, hr⟩
      intro q hq
      rcases List.mem_cons.1 hq with rfl | hq
      · exact hk
      · exact Nat.lt_trans hk (ha q hq)
    · rintro ⟨hx, ha, hr⟩
      exact ⟨⟨hx, ha _ List.mem_cons_self⟩, hr⟩

omit [DecidableEq α] in
theorem Sparse.get_above {n j : Nat} {m : Sparse α} (h : Sparse.Above n m) (hj : j ≤ n) : Sparse.get d m j = d j := by
  cases m with
  | nil => rfl
  | cons p r =>
    have := h p List.mem_cons_self
    simp [Sparse.get, show j ≠ p.1 by omega, show j < p.1 by omega]

theorem Sparse.put_above {n k : Nat} {x : α} {m : Sparse α} (h : Sparse.Above n m) (hk : n < k) : Sparse.Above n (Sparse.put d m k x) := by
  induction m with
  | nil =>
    unfold Sparse.put
    split <;> simp [Sparse.Above, hk]
  | cons p r ih =>
    have hp := h p List.mem_cons_self
    have hr : Sparse.Above n r := fun q hq => h q (List.mem_cons_of_mem _ hq)
    have cons {q : Nat × α} {l : Sparse α} (hq : n < q.1) (hl : Sparse.Above n l) : Sparse.Above n (q :: l) := by
      intro z hz
      rcases List.mem_cons.1 hz with rfl | hz
      · exact hq
      · exact hl z hz
    unfold Sparse.put
    split
    · split
      · exact hr
      · exact cons hk hr
    · split
      · split
        · exact cons hp hr
        · exact cons hk (cons hp hr)
      · exact cons hp (ih hr)

/-- A write keeps the canonical form. -/
theorem Sparse.wf_put {m : Sparse α} (k : Nat) (x : α) (h : Sparse.wf d m = true) : Sparse.wf d (Sparse.put d m k x) = true := by
  induction m with
  | nil =>
    unfold Sparse.put
    split
    · rfl
    · simp [Sparse.wf, *]
  | cons p r ih =>
    obtain ⟨j, y⟩ := p
    obtain ⟨hy, ha, hr⟩ := Sparse.wf_cons.1 h
    unfold Sparse.put
    split
    · next e =>
      subst e
      split
      · exact hr
      · exact Sparse.wf_cons.2 ⟨by assumption, ha, hr⟩
    · split
      · next hlt =>
        split
        · exact h
        · refine Sparse.wf_cons.2 ⟨by assumption, ?_, h⟩
          intro q hq
          rcases List.mem_cons.1 hq with rfl | hq
          · exact hlt
          · exact Nat.lt_trans hlt (ha q hq)
      · next h1 h2 => exact Sparse.wf_cons.2 ⟨hy, Sparse.put_above ha (by omega), ih hr⟩

/-- What a read finds after a write. -/
theorem Sparse.get_put {m : Sparse α} (k : Nat) (x : α) (j : Nat) (h : Sparse.wf d m = true) :
    Sparse.get d (Sparse.put d m k x) j = if j = k then x else Sparse.get d m j := by
  induction m with
  | nil =>
    unfold Sparse.put
    split
    · next e => split <;> simp_all [Sparse.get]
    · split <;> simp_all [Sparse.get]
  | cons p r ih =>
    obtain ⟨i, y⟩ := p
    obtain ⟨-, ha, hr⟩ := Sparse.wf_cons.1 h
    unfold Sparse.put
    split
    · next e =>
      subst e
      split
      · next hx =>
        split
        · next hj => rw [hj, Sparse.get_above ha (Nat.le_refl _), hx]
        · next hj =>
          simp only [Sparse.get, hj, if_false]
          split
          · next hlt => exact Sparse.get_above ha (by omega)
          · rfl
      · split <;> simp_all [Sparse.get]
    · next hki =>
      split
      · next hlt =>
        split
        · next hx =>
          split
          · next hj => subst hj; simp [Sparse.get, hki, hlt, hx]
          · rfl
        · split
          · next hj => simp [Sparse.get, hj]
          · next hj =>
            simp only [Sparse.get, hj, if_false]
            split
            · rw [if_neg (by omega), if_pos (by omega)]
            · rfl
      · next hlt =>
        simp only [Sparse.get, ih hr]
        split
        · next hj => rw [if_neg (by omega)]
        · split
          · rw [if_neg (by omega)]
          · rfl

/-- The value written, if the list was canonical. -/
theorem Sparse.get_put_same {m : Sparse α} (k : Nat) (x : α) (h : Sparse.wf d m = true) : Sparse.get d (Sparse.put d m k x) k = x := by
  rw [Sparse.get_put k x k h, if_pos rfl]

theorem Sparse.get_put_ne {m : Sparse α} {k j : Nat} (x : α) (h : Sparse.wf d m = true) (hj : j ≠ k) :
    Sparse.get d (Sparse.put d m k x) j = Sparse.get d m j := by
  rw [Sparse.get_put k x j h, if_neg hj]

end Sys2Proof
end

