-- ==== Sys2Proof/Laws/State.lean ====
section
/-!
SUPPORT. Every field after every update of the state: one lemma a field and an update, so that no proof unfolds a record update.
-/
namespace Sys2Proof.Machine
open Sys2Proof

@[simp] theorem State.wr_tb (s : State) (off : Nat) (w : Word) : (s.wr off w).tb = s.tb := rfl
@[simp] theorem State.wr_goAt (s : State) (off : Nat) (w : Word) : (s.wr off w).goAt = s.goAt := rfl
@[simp] theorem State.wr_goDone (s : State) (off : Nat) (w : Word) : (s.wr off w).goDone = s.goDone := rfl
@[simp] theorem State.wr_hst (s : State) (off : Nat) (w : Word) : (s.wr off w).hst = s.hst := rfl
@[simp] theorem State.wr_cnt (s : State) (off : Nat) (w : Word) : (s.wr off w).cnt = s.cnt := rfl
@[simp] theorem State.wr_pinActs (s : State) (off : Nat) (w : Word) : (s.wr off w).pinActs = s.pinActs := rfl
@[simp] theorem State.wr_goNow (s : State) (off : Nat) (w : Word) : (s.wr off w).goNow = s.goNow := rfl
@[simp] theorem State.wr_haltNow (s : State) (off : Nat) (w : Word) : (s.wr off w).haltNow = s.haltNow := rfl
@[simp] theorem State.wr_fct (s : State) (off : Nat) (w : Word) : (s.wr off w).fct = s.fct := rfl
@[simp] theorem State.wr_safeN (s : State) (off : Nat) (w : Word) : (s.wr off w).safeN = s.safeN := rfl
@[simp] theorem State.wr_whl (s : State) (off : Nat) (w : Word) : (s.wr off w).whl = s.whl := rfl
@[simp] theorem State.wr_bzl (s : State) (off : Nat) (w : Word) : (s.wr off w).bzl = s.bzl := rfl
@[simp] theorem State.wr_tlr (s : State) (off : Nat) (w : Word) : (s.wr off w).tlr = s.tlr := rfl
@[simp] theorem State.wr_vlt (s : State) (off : Nat) (w : Word) : (s.wr off w).vlt = s.vlt := rfl
@[simp] theorem State.wr_mnt (s : State) (off : Nat) (w : Word) : (s.wr off w).mnt = s.mnt := rfl
@[simp] theorem State.wr_adc (s : State) (off : Nat) (w : Word) : (s.wr off w).adc = s.adc := rfl
@[simp] theorem State.wr_dma (s : State) (off : Nat) (w : Word) : (s.wr off w).dma = s.dma := rfl
@[simp] theorem State.wr_dbk (s : State) (off : Nat) (w : Word) : (s.wr off w).dbk = s.dbk := rfl
@[simp] theorem State.wr_eth (s : State) (off : Nat) (w : Word) : (s.wr off w).eth = s.eth := rfl
@[simp] theorem State.wr_asy (s : State) (off : Nat) (w : Word) : (s.wr off w).asy = s.asy := rfl
@[simp] theorem State.wr_slo (s : State) (off : Nat) (w : Word) : (s.wr off w).slo = s.slo := rfl
@[simp] theorem State.wr_ic (s : State) (off : Nat) (w : Word) : (s.wr off w).ic = s.ic := rfl
@[simp] theorem State.wr_host (s : State) (off : Nat) (w : Word) : (s.wr off w).host = s.host := rfl
@[simp] theorem State.wr_health (s : State) (off : Nat) (w : Word) : (s.wr off w).health = s.health := rfl
@[simp] theorem State.wr_wakePin (s : State) (off : Nat) (w : Word) : (s.wr off w).wakePin = s.wakePin := rfl
@[simp] theorem State.wr_resetLow (s : State) (off : Nat) (w : Word) : (s.wr off w).resetLow = s.resetLow := rfl
@[simp] theorem State.wr_retained (s : State) (off : Nat) (w : Word) : (s.wr off w).retained = s.retained := rfl
@[simp] theorem State.wr_pulses (s : State) (off : Nat) (w : Word) : (s.wr off w).pulses = s.pulses := rfl
@[simp] theorem State.wr_out (s : State) (off : Nat) (w : Word) : (s.wr off w).out = s.out := rfl
@[simp] theorem State.wr_read (s : State) (off : Nat) (w : Word) : (s.wr off w).read = s.read := rfl
@[simp] theorem State.wr_latch (s : State) (off : Nat) (w : Word) : (s.wr off w).latch = s.latch := rfl
@[simp] theorem State.wr_setNow (s : State) (off : Nat) (w : Word) : (s.wr off w).setNow = s.setNow := rfl
@[simp] theorem State.wr_asyEdges (s : State) (off : Nat) (w : Word) : (s.wr off w).asyEdges = s.asyEdges := rfl
@[simp] theorem State.wr_free (s : State) (off : Nat) (w : Word) : (s.wr off w).free = s.free := rfl
@[simp] theorem State.wr_inflight (s : State) (off : Nat) (w : Word) : (s.wr off w).inflight = s.inflight := rfl
@[simp] theorem State.wr_pending (s : State) (off : Nat) (w : Word) : (s.wr off w).pending = s.pending := rfl
@[simp] theorem State.wr_now (s : State) (off : Nat) (w : Word) : (s.wr off w).now = s.now := rfl
@[simp] theorem State.wr_tally (s : State) (off : Nat) (w : Word) : (s.wr off w).tally = s.tally := rfl
@[simp] theorem State.wr_nextNow (s : State) (off : Nat) (w : Word) : (s.wr off w).nextNow = s.nextNow := rfl
@[simp] theorem State.wr_engCycle (s : State) (off : Nat) (w : Word) : (s.wr off w).engCycle = s.engCycle := rfl
@[simp] theorem State.wr64_tb (s : State) (off : Nat) (x : Dword) : (s.wr64 off x).tb = s.tb := rfl
@[simp] theorem State.wr64_goAt (s : State) (off : Nat) (x : Dword) : (s.wr64 off x).goAt = s.goAt := rfl
@[simp] theorem State.wr64_goDone (s : State) (off : Nat) (x : Dword) : (s.wr64 off x).goDone = s.goDone := rfl
@[simp] theorem State.wr64_hst (s : State) (off : Nat) (x : Dword) : (s.wr64 off x).hst = s.hst := rfl
@[simp] theorem State.wr64_cnt (s : State) (off : Nat) (x : Dword) : (s.wr64 off x).cnt = s.cnt := rfl
@[simp] theorem State.wr64_pinActs (s : State) (off : Nat) (x : Dword) : (s.wr64 off x).pinActs = s.pinActs := rfl
@[simp] theorem State.wr64_goNow (s : State) (off : Nat) (x : Dword) : (s.wr64 off x).goNow = s.goNow := rfl
@[simp] theorem State.wr64_haltNow (s : State) (off : Nat) (x : Dword) : (s.wr64 off x).haltNow = s.haltNow := rfl
@[simp] theorem State.wr64_fct (s : State) (off : Nat) (x : Dword) : (s.wr64 off x).fct = s.fct := rfl
@[simp] theorem State.wr64_safeN (s : State) (off : Nat) (x : Dword) : (s.wr64 off x).safeN = s.safeN := rfl
@[simp] theorem State.wr64_whl (s : State) (off : Nat) (x : Dword) : (s.wr64 off x).whl = s.whl := rfl
@[simp] theorem State.wr64_bzl (s : State) (off : Nat) (x : Dword) : (s.wr64 off x).bzl = s.bzl := rfl
@[simp] theorem State.wr64_tlr (s : State) (off : Nat) (x : Dword) : (s.wr64 off x).tlr = s.tlr := rfl
@[simp] theorem State.wr64_vlt (s : State) (off : Nat) (x : Dword) : (s.wr64 off x).vlt = s.vlt := rfl
@[simp] theorem State.wr64_mnt (s : State) (off : Nat) (x : Dword) : (s.wr64 off x).mnt = s.mnt := rfl
@[simp] theorem State.wr64_adc (s : State) (off : Nat) (x : Dword) : (s.wr64 off x).adc = s.adc := rfl
@[simp] theorem State.wr64_dma (s : State) (off : Nat) (x : Dword) : (s.wr64 off x).dma = s.dma := rfl
@[simp] theorem State.wr64_dbk (s : State) (off : Nat) (x : Dword) : (s.wr64 off x).dbk = s.dbk := rfl
@[simp] theorem State.wr64_eth (s : State) (off : Nat) (x : Dword) : (s.wr64 off x).eth = s.eth := rfl
@[simp] theorem State.wr64_asy (s : State) (off : Nat) (x : Dword) : (s.wr64 off x).asy = s.asy := rfl
@[simp] theorem State.wr64_slo (s : State) (off : Nat) (x : Dword) : (s.wr64 off x).slo = s.slo := rfl
@[simp] theorem State.wr64_ic (s : State) (off : Nat) (x : Dword) : (s.wr64 off x).ic = s.ic := rfl
@[simp] theorem State.wr64_host (s : State) (off : Nat) (x : Dword) : (s.wr64 off x).host = s.host := rfl
@[simp] theorem State.wr64_health (s : State) (off : Nat) (x : Dword) : (s.wr64 off x).health = s.health := rfl
@[simp] theorem State.wr64_wakePin (s : State) (off : Nat) (x : Dword) : (s.wr64 off x).wakePin = s.wakePin := rfl
@[simp] theorem State.wr64_resetLow (s : State) (off : Nat) (x : Dword) : (s.wr64 off x).resetLow = s.resetLow := rfl
@[simp] theorem State.wr64_retained (s : State) (off : Nat) (x : Dword) : (s.wr64 off x).retained = s.retained := rfl
@[simp] theorem State.wr64_pulses (s : State) (off : Nat) (x : Dword) : (s.wr64 off x).pulses = s.pulses := rfl
@[simp] theorem State.wr64_out (s : State) (off : Nat) (x : Dword) : (s.wr64 off x).out = s.out := rfl
@[simp] theorem State.wr64_read (s : State) (off : Nat) (x : Dword) : (s.wr64 off x).read = s.read := rfl
@[simp] theorem State.wr64_latch (s : State) (off : Nat) (x : Dword) : (s.wr64 off x).latch = s.latch := rfl
@[simp] theorem State.wr64_setNow (s : State) (off : Nat) (x : Dword) : (s.wr64 off x).setNow = s.setNow := rfl
@[simp] theorem State.wr64_asyEdges (s : State) (off : Nat) (x : Dword) : (s.wr64 off x).asyEdges = s.asyEdges := rfl
@[simp] theorem State.wr64_free (s : State) (off : Nat) (x : Dword) : (s.wr64 off x).free = s.free := rfl
@[simp] theorem State.wr64_inflight (s : State) (off : Nat) (x : Dword) : (s.wr64 off x).inflight = s.inflight := rfl
@[simp] theorem State.wr64_pending (s : State) (off : Nat) (x : Dword) : (s.wr64 off x).pending = s.pending := rfl
@[simp] theorem State.wr64_now (s : State) (off : Nat) (x : Dword) : (s.wr64 off x).now = s.now := rfl
@[simp] theorem State.wr64_tally (s : State) (off : Nat) (x : Dword) : (s.wr64 off x).tally = s.tally := rfl
@[simp] theorem State.wr64_nextNow (s : State) (off : Nat) (x : Dword) : (s.wr64 off x).nextNow = s.nextNow := rfl
@[simp] theorem State.wr64_engCycle (s : State) (off : Nat) (x : Dword) : (s.wr64 off x).engCycle = s.engCycle := rfl
@[simp] theorem State.set_tb (s : State) (f : Fld) (v : Nat) : (s.set f v).tb = s.tb := rfl
@[simp] theorem State.set_goAt (s : State) (f : Fld) (v : Nat) : (s.set f v).goAt = s.goAt := rfl
@[simp] theorem State.set_goDone (s : State) (f : Fld) (v : Nat) : (s.set f v).goDone = s.goDone := rfl
@[simp] theorem State.set_hst (s : State) (f : Fld) (v : Nat) : (s.set f v).hst = s.hst := rfl
@[simp] theorem State.set_cnt (s : State) (f : Fld) (v : Nat) : (s.set f v).cnt = s.cnt := rfl
@[simp] theorem State.set_pinActs (s : State) (f : Fld) (v : Nat) : (s.set f v).pinActs = s.pinActs := rfl
@[simp] theorem State.set_goNow (s : State) (f : Fld) (v : Nat) : (s.set f v).goNow = s.goNow := rfl
@[simp] theorem State.set_haltNow (s : State) (f : Fld) (v : Nat) : (s.set f v).haltNow = s.haltNow := rfl
@[simp] theorem State.set_fct (s : State) (f : Fld) (v : Nat) : (s.set f v).fct = s.fct := rfl
@[simp] theorem State.set_safeN (s : State) (f : Fld) (v : Nat) : (s.set f v).safeN = s.safeN := rfl
@[simp] theorem State.set_whl (s : State) (f : Fld) (v : Nat) : (s.set f v).whl = s.whl := rfl
@[simp] theorem State.set_bzl (s : State) (f : Fld) (v : Nat) : (s.set f v).bzl = s.bzl := rfl
@[simp] theorem State.set_tlr (s : State) (f : Fld) (v : Nat) : (s.set f v).tlr = s.tlr := rfl
@[simp] theorem State.set_vlt (s : State) (f : Fld) (v : Nat) : (s.set f v).vlt = s.vlt := rfl
@[simp] theorem State.set_mnt (s : State) (f : Fld) (v : Nat) : (s.set f v).mnt = s.mnt := rfl
@[simp] theorem State.set_adc (s : State) (f : Fld) (v : Nat) : (s.set f v).adc = s.adc := rfl
@[simp] theorem State.set_dma (s : State) (f : Fld) (v : Nat) : (s.set f v).dma = s.dma := rfl
@[simp] theorem State.set_dbk (s : State) (f : Fld) (v : Nat) : (s.set f v).dbk = s.dbk := rfl
@[simp] theorem State.set_eth (s : State) (f : Fld) (v : Nat) : (s.set f v).eth = s.eth := rfl
@[simp] theorem State.set_asy (s : State) (f : Fld) (v : Nat) : (s.set f v).asy = s.asy := rfl
@[simp] theorem State.set_slo (s : State) (f : Fld) (v : Nat) : (s.set f v).slo = s.slo := rfl
@[simp] theorem State.set_ic (s : State) (f : Fld) (v : Nat) : (s.set f v).ic = s.ic := rfl
@[simp] theorem State.set_host (s : State) (f : Fld) (v : Nat) : (s.set f v).host = s.host := rfl
@[simp] theorem State.set_health (s : State) (f : Fld) (v : Nat) : (s.set f v).health = s.health := rfl
@[simp] theorem State.set_wakePin (s : State) (f : Fld) (v : Nat) : (s.set f v).wakePin = s.wakePin := rfl
@[simp] theorem State.set_resetLow (s : State) (f : Fld) (v : Nat) : (s.set f v).resetLow = s.resetLow := rfl
@[simp] theorem State.set_retained (s : State) (f : Fld) (v : Nat) : (s.set f v).retained = s.retained := rfl
@[simp] theorem State.set_pulses (s : State) (f : Fld) (v : Nat) : (s.set f v).pulses = s.pulses := rfl
@[simp] theorem State.set_out (s : State) (f : Fld) (v : Nat) : (s.set f v).out = s.out := rfl
@[simp] theorem State.set_read (s : State) (f : Fld) (v : Nat) : (s.set f v).read = s.read := rfl
@[simp] theorem State.set_latch (s : State) (f : Fld) (v : Nat) : (s.set f v).latch = s.latch := rfl
@[simp] theorem State.set_setNow (s : State) (f : Fld) (v : Nat) : (s.set f v).setNow = s.setNow := rfl
@[simp] theorem State.set_asyEdges (s : State) (f : Fld) (v : Nat) : (s.set f v).asyEdges = s.asyEdges := rfl
@[simp] theorem State.set_free (s : State) (f : Fld) (v : Nat) : (s.set f v).free = s.free := rfl
@[simp] theorem State.set_inflight (s : State) (f : Fld) (v : Nat) : (s.set f v).inflight = s.inflight := rfl
@[simp] theorem State.set_pending (s : State) (f : Fld) (v : Nat) : (s.set f v).pending = s.pending := rfl
@[simp] theorem State.set_now (s : State) (f : Fld) (v : Nat) : (s.set f v).now = s.now := rfl
@[simp] theorem State.set_tally (s : State) (f : Fld) (v : Nat) : (s.set f v).tally = s.tally := rfl
@[simp] theorem State.set_nextNow (s : State) (f : Fld) (v : Nat) : (s.set f v).nextNow = s.nextNow := rfl
@[simp] theorem State.set_engCycle (s : State) (f : Fld) (v : Nat) : (s.set f v).engCycle = s.engCycle := rfl
@[simp] theorem State.clear_tb (s : State) (f : Fld) : (s.clear f).tb = s.tb := rfl
@[simp] theorem State.clear_goAt (s : State) (f : Fld) : (s.clear f).goAt = s.goAt := rfl
@[simp] theorem State.clear_goDone (s : State) (f : Fld) : (s.clear f).goDone = s.goDone := rfl
@[simp] theorem State.clear_hst (s : State) (f : Fld) : (s.clear f).hst = s.hst := rfl
@[simp] theorem State.clear_cnt (s : State) (f : Fld) : (s.clear f).cnt = s.cnt := rfl
@[simp] theorem State.clear_pinActs (s : State) (f : Fld) : (s.clear f).pinActs = s.pinActs := rfl
@[simp] theorem State.clear_goNow (s : State) (f : Fld) : (s.clear f).goNow = s.goNow := rfl
@[simp] theorem State.clear_haltNow (s : State) (f : Fld) : (s.clear f).haltNow = s.haltNow := rfl
@[simp] theorem State.clear_fct (s : State) (f : Fld) : (s.clear f).fct = s.fct := rfl
@[simp] theorem State.clear_safeN (s : State) (f : Fld) : (s.clear f).safeN = s.safeN := rfl
@[simp] theorem State.clear_whl (s : State) (f : Fld) : (s.clear f).whl = s.whl := rfl
@[simp] theorem State.clear_bzl (s : State) (f : Fld) : (s.clear f).bzl = s.bzl := rfl
@[simp] theorem State.clear_tlr (s : State) (f : Fld) : (s.clear f).tlr = s.tlr := rfl
@[simp] theorem State.clear_vlt (s : State) (f : Fld) : (s.clear f).vlt = s.vlt := rfl
@[simp] theorem State.clear_mnt (s : State) (f : Fld) : (s.clear f).mnt = s.mnt := rfl
@[simp] theorem State.clear_adc (s : State) (f : Fld) : (s.clear f).adc = s.adc := rfl
@[simp] theorem State.clear_dma (s : State) (f : Fld) : (s.clear f).dma = s.dma := rfl
@[simp] theorem State.clear_dbk (s : State) (f : Fld) : (s.clear f).dbk = s.dbk := rfl
@[simp] theorem State.clear_eth (s : State) (f : Fld) : (s.clear f).eth = s.eth := rfl
@[simp] theorem State.clear_asy (s : State) (f : Fld) : (s.clear f).asy = s.asy := rfl
@[simp] theorem State.clear_slo (s : State) (f : Fld) : (s.clear f).slo = s.slo := rfl
@[simp] theorem State.clear_ic (s : State) (f : Fld) : (s.clear f).ic = s.ic := rfl
@[simp] theorem State.clear_host (s : State) (f : Fld) : (s.clear f).host = s.host := rfl
@[simp] theorem State.clear_health (s : State) (f : Fld) : (s.clear f).health = s.health := rfl
@[simp] theorem State.clear_wakePin (s : State) (f : Fld) : (s.clear f).wakePin = s.wakePin := rfl
@[simp] theorem State.clear_resetLow (s : State) (f : Fld) : (s.clear f).resetLow = s.resetLow := rfl
@[simp] theorem State.clear_retained (s : State) (f : Fld) : (s.clear f).retained = s.retained := rfl
@[simp] theorem State.clear_pulses (s : State) (f : Fld) : (s.clear f).pulses = s.pulses := rfl
@[simp] theorem State.clear_out (s : State) (f : Fld) : (s.clear f).out = s.out := rfl
@[simp] theorem State.clear_read (s : State) (f : Fld) : (s.clear f).read = s.read := rfl
@[simp] theorem State.clear_latch (s : State) (f : Fld) : (s.clear f).latch = s.latch := rfl
@[simp] theorem State.clear_setNow (s : State) (f : Fld) : (s.clear f).setNow = s.setNow := rfl
@[simp] theorem State.clear_asyEdges (s : State) (f : Fld) : (s.clear f).asyEdges = s.asyEdges := rfl
@[simp] theorem State.clear_free (s : State) (f : Fld) : (s.clear f).free = s.free := rfl
@[simp] theorem State.clear_inflight (s : State) (f : Fld) : (s.clear f).inflight = s.inflight := rfl
@[simp] theorem State.clear_pending (s : State) (f : Fld) : (s.clear f).pending = s.pending := rfl
@[simp] theorem State.clear_now (s : State) (f : Fld) : (s.clear f).now = s.now := rfl
@[simp] theorem State.clear_tally (s : State) (f : Fld) : (s.clear f).tally = s.tally := rfl
@[simp] theorem State.clear_nextNow (s : State) (f : Fld) : (s.clear f).nextNow = s.nextNow := rfl
@[simp] theorem State.clear_engCycle (s : State) (f : Fld) : (s.clear f).engCycle = s.engCycle := rfl
@[simp] theorem State.setBool_tb (s : State) (f : Fld) (b : Bool) : (s.setBool f b).tb = s.tb := rfl
@[simp] theorem State.setBool_goAt (s : State) (f : Fld) (b : Bool) : (s.setBool f b).goAt = s.goAt := rfl
@[simp] theorem State.setBool_goDone (s : State) (f : Fld) (b : Bool) : (s.setBool f b).goDone = s.goDone := rfl
@[simp] theorem State.setBool_hst (s : State) (f : Fld) (b : Bool) : (s.setBool f b).hst = s.hst := rfl
@[simp] theorem State.setBool_cnt (s : State) (f : Fld) (b : Bool) : (s.setBool f b).cnt = s.cnt := rfl
@[simp] theorem State.setBool_pinActs (s : State) (f : Fld) (b : Bool) : (s.setBool f b).pinActs = s.pinActs := rfl
@[simp] theorem State.setBool_goNow (s : State) (f : Fld) (b : Bool) : (s.setBool f b).goNow = s.goNow := rfl
@[simp] theorem State.setBool_haltNow (s : State) (f : Fld) (b : Bool) : (s.setBool f b).haltNow = s.haltNow := rfl
@[simp] theorem State.setBool_fct (s : State) (f : Fld) (b : Bool) : (s.setBool f b).fct = s.fct := rfl
@[simp] theorem State.setBool_safeN (s : State) (f : Fld) (b : Bool) : (s.setBool f b).safeN = s.safeN := rfl
@[simp] theorem State.setBool_whl (s : State) (f : Fld) (b : Bool) : (s.setBool f b).whl = s.whl := rfl
@[simp] theorem State.setBool_bzl (s : State) (f : Fld) (b : Bool) : (s.setBool f b).bzl = s.bzl := rfl
@[simp] theorem State.setBool_tlr (s : State) (f : Fld) (b : Bool) : (s.setBool f b).tlr = s.tlr := rfl
@[simp] theorem State.setBool_vlt (s : State) (f : Fld) (b : Bool) : (s.setBool f b).vlt = s.vlt := rfl
@[simp] theorem State.setBool_mnt (s : State) (f : Fld) (b : Bool) : (s.setBool f b).mnt = s.mnt := rfl
@[simp] theorem State.setBool_adc (s : State) (f : Fld) (b : Bool) : (s.setBool f b).adc = s.adc := rfl
@[simp] theorem State.setBool_dma (s : State) (f : Fld) (b : Bool) : (s.setBool f b).dma = s.dma := rfl
@[simp] theorem State.setBool_dbk (s : State) (f : Fld) (b : Bool) : (s.setBool f b).dbk = s.dbk := rfl
@[simp] theorem State.setBool_eth (s : State) (f : Fld) (b : Bool) : (s.setBool f b).eth = s.eth := rfl
@[simp] theorem State.setBool_asy (s : State) (f : Fld) (b : Bool) : (s.setBool f b).asy = s.asy := rfl
@[simp] theorem State.setBool_slo (s : State) (f : Fld) (b : Bool) : (s.setBool f b).slo = s.slo := rfl
@[simp] theorem State.setBool_ic (s : State) (f : Fld) (b : Bool) : (s.setBool f b).ic = s.ic := rfl
@[simp] theorem State.setBool_host (s : State) (f : Fld) (b : Bool) : (s.setBool f b).host = s.host := rfl
@[simp] theorem State.setBool_health (s : State) (f : Fld) (b : Bool) : (s.setBool f b).health = s.health := rfl
@[simp] theorem State.setBool_wakePin (s : State) (f : Fld) (b : Bool) : (s.setBool f b).wakePin = s.wakePin := rfl
@[simp] theorem State.setBool_resetLow (s : State) (f : Fld) (b : Bool) : (s.setBool f b).resetLow = s.resetLow := rfl
@[simp] theorem State.setBool_retained (s : State) (f : Fld) (b : Bool) : (s.setBool f b).retained = s.retained := rfl
@[simp] theorem State.setBool_pulses (s : State) (f : Fld) (b : Bool) : (s.setBool f b).pulses = s.pulses := rfl
@[simp] theorem State.setBool_out (s : State) (f : Fld) (b : Bool) : (s.setBool f b).out = s.out := rfl
@[simp] theorem State.setBool_read (s : State) (f : Fld) (b : Bool) : (s.setBool f b).read = s.read := rfl
@[simp] theorem State.setBool_latch (s : State) (f : Fld) (b : Bool) : (s.setBool f b).latch = s.latch := rfl
@[simp] theorem State.setBool_setNow (s : State) (f : Fld) (b : Bool) : (s.setBool f b).setNow = s.setNow := rfl
@[simp] theorem State.setBool_asyEdges (s : State) (f : Fld) (b : Bool) : (s.setBool f b).asyEdges = s.asyEdges := rfl
@[simp] theorem State.setBool_free (s : State) (f : Fld) (b : Bool) : (s.setBool f b).free = s.free := rfl
@[simp] theorem State.setBool_inflight (s : State) (f : Fld) (b : Bool) : (s.setBool f b).inflight = s.inflight := rfl
@[simp] theorem State.setBool_pending (s : State) (f : Fld) (b : Bool) : (s.setBool f b).pending = s.pending := rfl
@[simp] theorem State.setBool_now (s : State) (f : Fld) (b : Bool) : (s.setBool f b).now = s.now := rfl
@[simp] theorem State.setBool_tally (s : State) (f : Fld) (b : Bool) : (s.setBool f b).tally = s.tally := rfl
@[simp] theorem State.setBool_nextNow (s : State) (f : Fld) (b : Bool) : (s.setBool f b).nextNow = s.nextNow := rfl
@[simp] theorem State.setBool_engCycle (s : State) (f : Fld) (b : Bool) : (s.setBool f b).engCycle = s.engCycle := rfl
@[simp] theorem State.incSat_tb (s : State) (f : Fld) : (s.incSat f).tb = s.tb := rfl
@[simp] theorem State.incSat_goAt (s : State) (f : Fld) : (s.incSat f).goAt = s.goAt := rfl
@[simp] theorem State.incSat_goDone (s : State) (f : Fld) : (s.incSat f).goDone = s.goDone := rfl
@[simp] theorem State.incSat_hst (s : State) (f : Fld) : (s.incSat f).hst = s.hst := rfl
@[simp] theorem State.incSat_cnt (s : State) (f : Fld) : (s.incSat f).cnt = s.cnt := rfl
@[simp] theorem State.incSat_pinActs (s : State) (f : Fld) : (s.incSat f).pinActs = s.pinActs := rfl
@[simp] theorem State.incSat_goNow (s : State) (f : Fld) : (s.incSat f).goNow = s.goNow := rfl
@[simp] theorem State.incSat_haltNow (s : State) (f : Fld) : (s.incSat f).haltNow = s.haltNow := rfl
@[simp] theorem State.incSat_fct (s : State) (f : Fld) : (s.incSat f).fct = s.fct := rfl
@[simp] theorem State.incSat_safeN (s : State) (f : Fld) : (s.incSat f).safeN = s.safeN := rfl
@[simp] theorem State.incSat_whl (s : State) (f : Fld) : (s.incSat f).whl = s.whl := rfl
@[simp] theorem State.incSat_bzl (s : State) (f : Fld) : (s.incSat f).bzl = s.bzl := rfl
@[simp] theorem State.incSat_tlr (s : State) (f : Fld) : (s.incSat f).tlr = s.tlr := rfl
@[simp] theorem State.incSat_vlt (s : State) (f : Fld) : (s.incSat f).vlt = s.vlt := rfl
@[simp] theorem State.incSat_mnt (s : State) (f : Fld) : (s.incSat f).mnt = s.mnt := rfl
@[simp] theorem State.incSat_adc (s : State) (f : Fld) : (s.incSat f).adc = s.adc := rfl
@[simp] theorem State.incSat_dma (s : State) (f : Fld) : (s.incSat f).dma = s.dma := rfl
@[simp] theorem State.incSat_dbk (s : State) (f : Fld) : (s.incSat f).dbk = s.dbk := rfl
@[simp] theorem State.incSat_eth (s : State) (f : Fld) : (s.incSat f).eth = s.eth := rfl
@[simp] theorem State.incSat_asy (s : State) (f : Fld) : (s.incSat f).asy = s.asy := rfl
@[simp] theorem State.incSat_slo (s : State) (f : Fld) : (s.incSat f).slo = s.slo := rfl
@[simp] theorem State.incSat_ic (s : State) (f : Fld) : (s.incSat f).ic = s.ic := rfl
@[simp] theorem State.incSat_host (s : State) (f : Fld) : (s.incSat f).host = s.host := rfl
@[simp] theorem State.incSat_health (s : State) (f : Fld) : (s.incSat f).health = s.health := rfl
@[simp] theorem State.incSat_wakePin (s : State) (f : Fld) : (s.incSat f).wakePin = s.wakePin := rfl
@[simp] theorem State.incSat_resetLow (s : State) (f : Fld) : (s.incSat f).resetLow = s.resetLow := rfl
@[simp] theorem State.incSat_retained (s : State) (f : Fld) : (s.incSat f).retained = s.retained := rfl
@[simp] theorem State.incSat_pulses (s : State) (f : Fld) : (s.incSat f).pulses = s.pulses := rfl
@[simp] theorem State.incSat_out (s : State) (f : Fld) : (s.incSat f).out = s.out := rfl
@[simp] theorem State.incSat_read (s : State) (f : Fld) : (s.incSat f).read = s.read := rfl
@[simp] theorem State.incSat_latch (s : State) (f : Fld) : (s.incSat f).latch = s.latch := rfl
@[simp] theorem State.incSat_setNow (s : State) (f : Fld) : (s.incSat f).setNow = s.setNow := rfl
@[simp] theorem State.incSat_asyEdges (s : State) (f : Fld) : (s.incSat f).asyEdges = s.asyEdges := rfl
@[simp] theorem State.incSat_free (s : State) (f : Fld) : (s.incSat f).free = s.free := rfl
@[simp] theorem State.incSat_inflight (s : State) (f : Fld) : (s.incSat f).inflight = s.inflight := rfl
@[simp] theorem State.incSat_pending (s : State) (f : Fld) : (s.incSat f).pending = s.pending := rfl
@[simp] theorem State.incSat_now (s : State) (f : Fld) : (s.incSat f).now = s.now := rfl
@[simp] theorem State.incSat_tally (s : State) (f : Fld) : (s.incSat f).tally = s.tally := rfl
@[simp] theorem State.incSat_nextNow (s : State) (f : Fld) : (s.incSat f).nextNow = s.nextNow := rfl
@[simp] theorem State.incSat_engCycle (s : State) (f : Fld) : (s.incSat f).engCycle = s.engCycle := rfl
@[simp] theorem State.raise_tb (s : State) (f : Fld) : (s.raise f).tb = s.tb := rfl
@[simp] theorem State.raise_goAt (s : State) (f : Fld) : (s.raise f).goAt = s.goAt := rfl
@[simp] theorem State.raise_goDone (s : State) (f : Fld) : (s.raise f).goDone = s.goDone := rfl
@[simp] theorem State.raise_hst (s : State) (f : Fld) : (s.raise f).hst = s.hst := rfl
@[simp] theorem State.raise_cnt (s : State) (f : Fld) : (s.raise f).cnt = s.cnt := rfl
@[simp] theorem State.raise_pinActs (s : State) (f : Fld) : (s.raise f).pinActs = s.pinActs := rfl
@[simp] theorem State.raise_goNow (s : State) (f : Fld) : (s.raise f).goNow = s.goNow := rfl
@[simp] theorem State.raise_haltNow (s : State) (f : Fld) : (s.raise f).haltNow = s.haltNow := rfl
@[simp] theorem State.raise_fct (s : State) (f : Fld) : (s.raise f).fct = s.fct := rfl
@[simp] theorem State.raise_safeN (s : State) (f : Fld) : (s.raise f).safeN = s.safeN := rfl
@[simp] theorem State.raise_whl (s : State) (f : Fld) : (s.raise f).whl = s.whl := rfl
@[simp] theorem State.raise_bzl (s : State) (f : Fld) : (s.raise f).bzl = s.bzl := rfl
@[simp] theorem State.raise_tlr (s : State) (f : Fld) : (s.raise f).tlr = s.tlr := rfl
@[simp] theorem State.raise_vlt (s : State) (f : Fld) : (s.raise f).vlt = s.vlt := rfl
@[simp] theorem State.raise_mnt (s : State) (f : Fld) : (s.raise f).mnt = s.mnt := rfl
@[simp] theorem State.raise_adc (s : State) (f : Fld) : (s.raise f).adc = s.adc := rfl
@[simp] theorem State.raise_dma (s : State) (f : Fld) : (s.raise f).dma = s.dma := rfl
@[simp] theorem State.raise_dbk (s : State) (f : Fld) : (s.raise f).dbk = s.dbk := rfl
@[simp] theorem State.raise_eth (s : State) (f : Fld) : (s.raise f).eth = s.eth := rfl
@[simp] theorem State.raise_asy (s : State) (f : Fld) : (s.raise f).asy = s.asy := rfl
@[simp] theorem State.raise_slo (s : State) (f : Fld) : (s.raise f).slo = s.slo := rfl
@[simp] theorem State.raise_ic (s : State) (f : Fld) : (s.raise f).ic = s.ic := rfl
@[simp] theorem State.raise_host (s : State) (f : Fld) : (s.raise f).host = s.host := rfl
@[simp] theorem State.raise_health (s : State) (f : Fld) : (s.raise f).health = s.health := rfl
@[simp] theorem State.raise_wakePin (s : State) (f : Fld) : (s.raise f).wakePin = s.wakePin := rfl
@[simp] theorem State.raise_resetLow (s : State) (f : Fld) : (s.raise f).resetLow = s.resetLow := rfl
@[simp] theorem State.raise_retained (s : State) (f : Fld) : (s.raise f).retained = s.retained := rfl
@[simp] theorem State.raise_pulses (s : State) (f : Fld) : (s.raise f).pulses = s.pulses := rfl
@[simp] theorem State.raise_out (s : State) (f : Fld) : (s.raise f).out = s.out := rfl
@[simp] theorem State.raise_read (s : State) (f : Fld) : (s.raise f).read = s.read := rfl
@[simp] theorem State.raise_latch (s : State) (f : Fld) : (s.raise f).latch = s.latch := rfl
@[simp] theorem State.raise_asyEdges (s : State) (f : Fld) : (s.raise f).asyEdges = s.asyEdges := rfl
@[simp] theorem State.raise_free (s : State) (f : Fld) : (s.raise f).free = s.free := rfl
@[simp] theorem State.raise_inflight (s : State) (f : Fld) : (s.raise f).inflight = s.inflight := rfl
@[simp] theorem State.raise_pending (s : State) (f : Fld) : (s.raise f).pending = s.pending := rfl
@[simp] theorem State.raise_now (s : State) (f : Fld) : (s.raise f).now = s.now := rfl
@[simp] theorem State.raise_tally (s : State) (f : Fld) : (s.raise f).tally = s.tally := rfl
@[simp] theorem State.raise_nextNow (s : State) (f : Fld) : (s.raise f).nextNow = s.nextNow := rfl
@[simp] theorem State.raise_engCycle (s : State) (f : Fld) : (s.raise f).engCycle = s.engCycle := rfl
@[simp] theorem State.modCnt_regs (s : State) (n : Fin 32) (f : Counter → Counter) : (s.modCnt n f).regs = s.regs := rfl
@[simp] theorem State.modCnt_tb (s : State) (n : Fin 32) (f : Counter → Counter) : (s.modCnt n f).tb = s.tb := rfl
@[simp] theorem State.modCnt_goAt (s : State) (n : Fin 32) (f : Counter → Counter) : (s.modCnt n f).goAt = s.goAt := rfl
@[simp] theorem State.modCnt_goDone (s : State) (n : Fin 32) (f : Counter → Counter) : (s.modCnt n f).goDone = s.goDone := rfl
@[simp] theorem State.modCnt_hst (s : State) (n : Fin 32) (f : Counter → Counter) : (s.modCnt n f).hst = s.hst := rfl
@[simp] theorem State.modCnt_cnt (s : State) (n : Fin 32) (f : Counter → Counter) : (s.modCnt n f).cnt = vmod s.cnt n f := rfl
@[simp] theorem State.modCnt_pinActs (s : State) (n : Fin 32) (f : Counter → Counter) : (s.modCnt n f).pinActs = s.pinActs := rfl
@[simp] theorem State.modCnt_goNow (s : State) (n : Fin 32) (f : Counter → Counter) : (s.modCnt n f).goNow = s.goNow := rfl
@[simp] theorem State.modCnt_haltNow (s : State) (n : Fin 32) (f : Counter → Counter) : (s.modCnt n f).haltNow = s.haltNow := rfl
@[simp] theorem State.modCnt_fct (s : State) (n : Fin 32) (f : Counter → Counter) : (s.modCnt n f).fct = s.fct := rfl
@[simp] theorem State.modCnt_safeN (s : State) (n : Fin 32) (f : Counter → Counter) : (s.modCnt n f).safeN = s.safeN := rfl
@[simp] theorem State.modCnt_whl (s : State) (n : Fin 32) (f : Counter → Counter) : (s.modCnt n f).whl = s.whl := rfl
@[simp] theorem State.modCnt_bzl (s : State) (n : Fin 32) (f : Counter → Counter) : (s.modCnt n f).bzl = s.bzl := rfl
@[simp] theorem State.modCnt_tlr (s : State) (n : Fin 32) (f : Counter → Counter) : (s.modCnt n f).tlr = s.tlr := rfl
@[simp] theorem State.modCnt_vlt (s : State) (n : Fin 32) (f : Counter → Counter) : (s.modCnt n f).vlt = s.vlt := rfl
@[simp] theorem State.modCnt_mnt (s : State) (n : Fin 32) (f : Counter → Counter) : (s.modCnt n f).mnt = s.mnt := rfl
@[simp] theorem State.modCnt_adc (s : State) (n : Fin 32) (f : Counter → Counter) : (s.modCnt n f).adc = s.adc := rfl
@[simp] theorem State.modCnt_dma (s : State) (n : Fin 32) (f : Counter → Counter) : (s.modCnt n f).dma = s.dma := rfl
@[simp] theorem State.modCnt_dbk (s : State) (n : Fin 32) (f : Counter → Counter) : (s.modCnt n f).dbk = s.dbk := rfl
@[simp] theorem State.modCnt_eth (s : State) (n : Fin 32) (f : Counter → Counter) : (s.modCnt n f).eth = s.eth := rfl
@[simp] theorem State.modCnt_asy (s : State) (n : Fin 32) (f : Counter → Counter) : (s.modCnt n f).asy = s.asy := rfl
@[simp] theorem State.modCnt_slo (s : State) (n : Fin 32) (f : Counter → Counter) : (s.modCnt n f).slo = s.slo := rfl
@[simp] theorem State.modCnt_ic (s : State) (n : Fin 32) (f : Counter → Counter) : (s.modCnt n f).ic = s.ic := rfl
@[simp] theorem State.modCnt_host (s : State) (n : Fin 32) (f : Counter → Counter) : (s.modCnt n f).host = s.host := rfl
@[simp] theorem State.modCnt_health (s : State) (n : Fin 32) (f : Counter → Counter) : (s.modCnt n f).health = s.health := rfl
@[simp] theorem State.modCnt_wakePin (s : State) (n : Fin 32) (f : Counter → Counter) : (s.modCnt n f).wakePin = s.wakePin := rfl
@[simp] theorem State.modCnt_resetLow (s : State) (n : Fin 32) (f : Counter → Counter) : (s.modCnt n f).resetLow = s.resetLow := rfl
@[simp] theorem State.modCnt_retained (s : State) (n : Fin 32) (f : Counter → Counter) : (s.modCnt n f).retained = s.retained := rfl
@[simp] theorem State.modCnt_pulses (s : State) (n : Fin 32) (f : Counter → Counter) : (s.modCnt n f).pulses = s.pulses := rfl
@[simp] theorem State.modCnt_out (s : State) (n : Fin 32) (f : Counter → Counter) : (s.modCnt n f).out = s.out := rfl
@[simp] theorem State.modCnt_read (s : State) (n : Fin 32) (f : Counter → Counter) : (s.modCnt n f).read = s.read := rfl
@[simp] theorem State.modCnt_latch (s : State) (n : Fin 32) (f : Counter → Counter) : (s.modCnt n f).latch = s.latch := rfl
@[simp] theorem State.modCnt_setNow (s : State) (n : Fin 32) (f : Counter → Counter) : (s.modCnt n f).setNow = s.setNow := rfl
@[simp] theorem State.modCnt_asyEdges (s : State) (n : Fin 32) (f : Counter → Counter) : (s.modCnt n f).asyEdges = s.asyEdges := rfl
@[simp] theorem State.modCnt_free (s : State) (n : Fin 32) (f : Counter → Counter) : (s.modCnt n f).free = s.free := rfl
@[simp] theorem State.modCnt_inflight (s : State) (n : Fin 32) (f : Counter → Counter) : (s.modCnt n f).inflight = s.inflight := rfl
@[simp] theorem State.modCnt_pending (s : State) (n : Fin 32) (f : Counter → Counter) : (s.modCnt n f).pending = s.pending := rfl
@[simp] theorem State.modCnt_rd (s : State) (n : Fin 32) (f : Counter → Counter) (a : Nat) : (s.modCnt n f).rd a = s.rd a := rfl
@[simp] theorem State.modCnt_rd64 (s : State) (n : Fin 32) (f : Counter → Counter) (a : Nat) : (s.modCnt n f).rd64 a = s.rd64 a := rfl
@[simp] theorem State.modCnt_get (s : State) (n : Fin 32) (f : Counter → Counter) (g : Fld) : (s.modCnt n f).get g = s.get g := rfl
@[simp] theorem State.modCnt_flag (s : State) (n : Fin 32) (f : Counter → Counter) (g : Fld) : (s.modCnt n f).flag g = s.flag g := rfl
@[simp] theorem State.modCnt_now (s : State) (n : Fin 32) (f : Counter → Counter) : (s.modCnt n f).now = s.now := rfl
@[simp] theorem State.modCnt_tally (s : State) (n : Fin 32) (f : Counter → Counter) : (s.modCnt n f).tally = s.tally := rfl
@[simp] theorem State.modCnt_nextNow (s : State) (n : Fin 32) (f : Counter → Counter) : (s.modCnt n f).nextNow = s.nextNow := rfl
@[simp] theorem State.modCnt_engCycle (s : State) (n : Fin 32) (f : Counter → Counter) : (s.modCnt n f).engCycle = s.engCycle := rfl
@[simp] theorem State.modFct_regs (s : State) (n : Fin 256) (f : Facet → Facet) : (s.modFct n f).regs = s.regs := rfl
@[simp] theorem State.modFct_tb (s : State) (n : Fin 256) (f : Facet → Facet) : (s.modFct n f).tb = s.tb := rfl
@[simp] theorem State.modFct_goAt (s : State) (n : Fin 256) (f : Facet → Facet) : (s.modFct n f).goAt = s.goAt := rfl
@[simp] theorem State.modFct_goDone (s : State) (n : Fin 256) (f : Facet → Facet) : (s.modFct n f).goDone = s.goDone := rfl
@[simp] theorem State.modFct_hst (s : State) (n : Fin 256) (f : Facet → Facet) : (s.modFct n f).hst = s.hst := rfl
@[simp] theorem State.modFct_cnt (s : State) (n : Fin 256) (f : Facet → Facet) : (s.modFct n f).cnt = s.cnt := rfl
@[simp] theorem State.modFct_pinActs (s : State) (n : Fin 256) (f : Facet → Facet) : (s.modFct n f).pinActs = s.pinActs := rfl
@[simp] theorem State.modFct_goNow (s : State) (n : Fin 256) (f : Facet → Facet) : (s.modFct n f).goNow = s.goNow := rfl
@[simp] theorem State.modFct_haltNow (s : State) (n : Fin 256) (f : Facet → Facet) : (s.modFct n f).haltNow = s.haltNow := rfl
@[simp] theorem State.modFct_fct (s : State) (n : Fin 256) (f : Facet → Facet) : (s.modFct n f).fct = vmod s.fct n f := rfl
@[simp] theorem State.modFct_safeN (s : State) (n : Fin 256) (f : Facet → Facet) : (s.modFct n f).safeN = s.safeN := rfl
@[simp] theorem State.modFct_whl (s : State) (n : Fin 256) (f : Facet → Facet) : (s.modFct n f).whl = s.whl := rfl
@[simp] theorem State.modFct_bzl (s : State) (n : Fin 256) (f : Facet → Facet) : (s.modFct n f).bzl = s.bzl := rfl
@[simp] theorem State.modFct_tlr (s : State) (n : Fin 256) (f : Facet → Facet) : (s.modFct n f).tlr = s.tlr := rfl
@[simp] theorem State.modFct_vlt (s : State) (n : Fin 256) (f : Facet → Facet) : (s.modFct n f).vlt = s.vlt := rfl
@[simp] theorem State.modFct_mnt (s : State) (n : Fin 256) (f : Facet → Facet) : (s.modFct n f).mnt = s.mnt := rfl
@[simp] theorem State.modFct_adc (s : State) (n : Fin 256) (f : Facet → Facet) : (s.modFct n f).adc = s.adc := rfl
@[simp] theorem State.modFct_dma (s : State) (n : Fin 256) (f : Facet → Facet) : (s.modFct n f).dma = s.dma := rfl
@[simp] theorem State.modFct_dbk (s : State) (n : Fin 256) (f : Facet → Facet) : (s.modFct n f).dbk = s.dbk := rfl
@[simp] theorem State.modFct_eth (s : State) (n : Fin 256) (f : Facet → Facet) : (s.modFct n f).eth = s.eth := rfl
@[simp] theorem State.modFct_asy (s : State) (n : Fin 256) (f : Facet → Facet) : (s.modFct n f).asy = s.asy := rfl
@[simp] theorem State.modFct_slo (s : State) (n : Fin 256) (f : Facet → Facet) : (s.modFct n f).slo = s.slo := rfl
@[simp] theorem State.modFct_ic (s : State) (n : Fin 256) (f : Facet → Facet) : (s.modFct n f).ic = s.ic := rfl
@[simp] theorem State.modFct_host (s : State) (n : Fin 256) (f : Facet → Facet) : (s.modFct n f).host = s.host := rfl
@[simp] theorem State.modFct_health (s : State) (n : Fin 256) (f : Facet → Facet) : (s.modFct n f).health = s.health := rfl
@[simp] theorem State.modFct_wakePin (s : State) (n : Fin 256) (f : Facet → Facet) : (s.modFct n f).wakePin = s.wakePin := rfl
@[simp] theorem State.modFct_resetLow (s : State) (n : Fin 256) (f : Facet → Facet) : (s.modFct n f).resetLow = s.resetLow := rfl
@[simp] theorem State.modFct_retained (s : State) (n : Fin 256) (f : Facet → Facet) : (s.modFct n f).retained = s.retained := rfl
@[simp] theorem State.modFct_pulses (s : State) (n : Fin 256) (f : Facet → Facet) : (s.modFct n f).pulses = s.pulses := rfl
@[simp] theorem State.modFct_out (s : State) (n : Fin 256) (f : Facet → Facet) : (s.modFct n f).out = s.out := rfl
@[simp] theorem State.modFct_read (s : State) (n : Fin 256) (f : Facet → Facet) : (s.modFct n f).read = s.read := rfl
@[simp] theorem State.modFct_latch (s : State) (n : Fin 256) (f : Facet → Facet) : (s.modFct n f).latch = s.latch := rfl
@[simp] theorem State.modFct_setNow (s : State) (n : Fin 256) (f : Facet → Facet) : (s.modFct n f).setNow = s.setNow := rfl
@[simp] theorem State.modFct_asyEdges (s : State) (n : Fin 256) (f : Facet → Facet) : (s.modFct n f).asyEdges = s.asyEdges := rfl
@[simp] theorem State.modFct_free (s : State) (n : Fin 256) (f : Facet → Facet) : (s.modFct n f).free = s.free := rfl
@[simp] theorem State.modFct_inflight (s : State) (n : Fin 256) (f : Facet → Facet) : (s.modFct n f).inflight = s.inflight := rfl
@[simp] theorem State.modFct_pending (s : State) (n : Fin 256) (f : Facet → Facet) : (s.modFct n f).pending = s.pending := rfl
@[simp] theorem State.modFct_rd (s : State) (n : Fin 256) (f : Facet → Facet) (a : Nat) : (s.modFct n f).rd a = s.rd a := rfl
@[simp] theorem State.modFct_rd64 (s : State) (n : Fin 256) (f : Facet → Facet) (a : Nat) : (s.modFct n f).rd64 a = s.rd64 a := rfl
@[simp] theorem State.modFct_get (s : State) (n : Fin 256) (f : Facet → Facet) (g : Fld) : (s.modFct n f).get g = s.get g := rfl
@[simp] theorem State.modFct_flag (s : State) (n : Fin 256) (f : Facet → Facet) (g : Fld) : (s.modFct n f).flag g = s.flag g := rfl
@[simp] theorem State.modFct_now (s : State) (n : Fin 256) (f : Facet → Facet) : (s.modFct n f).now = s.now := rfl
@[simp] theorem State.modFct_tally (s : State) (n : Fin 256) (f : Facet → Facet) : (s.modFct n f).tally = s.tally := rfl
@[simp] theorem State.modFct_nextNow (s : State) (n : Fin 256) (f : Facet → Facet) : (s.modFct n f).nextNow = s.nextNow := rfl
@[simp] theorem State.modFct_engCycle (s : State) (n : Fin 256) (f : Facet → Facet) : (s.modFct n f).engCycle = s.engCycle := rfl
@[simp] theorem State.modWhl_regs (s : State) (n : Fin 8) (f : Wheel → Wheel) : (s.modWhl n f).regs = s.regs := rfl
@[simp] theorem State.modWhl_tb (s : State) (n : Fin 8) (f : Wheel → Wheel) : (s.modWhl n f).tb = s.tb := rfl
@[simp] theorem State.modWhl_goAt (s : State) (n : Fin 8) (f : Wheel → Wheel) : (s.modWhl n f).goAt = s.goAt := rfl
@[simp] theorem State.modWhl_goDone (s : State) (n : Fin 8) (f : Wheel → Wheel) : (s.modWhl n f).goDone = s.goDone := rfl
@[simp] theorem State.modWhl_hst (s : State) (n : Fin 8) (f : Wheel → Wheel) : (s.modWhl n f).hst = s.hst := rfl
@[simp] theorem State.modWhl_cnt (s : State) (n : Fin 8) (f : Wheel → Wheel) : (s.modWhl n f).cnt = s.cnt := rfl
@[simp] theorem State.modWhl_pinActs (s : State) (n : Fin 8) (f : Wheel → Wheel) : (s.modWhl n f).pinActs = s.pinActs := rfl
@[simp] theorem State.modWhl_goNow (s : State) (n : Fin 8) (f : Wheel → Wheel) : (s.modWhl n f).goNow = s.goNow := rfl
@[simp] theorem State.modWhl_haltNow (s : State) (n : Fin 8) (f : Wheel → Wheel) : (s.modWhl n f).haltNow = s.haltNow := rfl
@[simp] theorem State.modWhl_fct (s : State) (n : Fin 8) (f : Wheel → Wheel) : (s.modWhl n f).fct = s.fct := rfl
@[simp] theorem State.modWhl_safeN (s : State) (n : Fin 8) (f : Wheel → Wheel) : (s.modWhl n f).safeN = s.safeN := rfl
@[simp] theorem State.modWhl_whl (s : State) (n : Fin 8) (f : Wheel → Wheel) : (s.modWhl n f).whl = vmod s.whl n f := rfl
@[simp] theorem State.modWhl_bzl (s : State) (n : Fin 8) (f : Wheel → Wheel) : (s.modWhl n f).bzl = s.bzl := rfl
@[simp] theorem State.modWhl_tlr (s : State) (n : Fin 8) (f : Wheel → Wheel) : (s.modWhl n f).tlr = s.tlr := rfl
@[simp] theorem State.modWhl_vlt (s : State) (n : Fin 8) (f : Wheel → Wheel) : (s.modWhl n f).vlt = s.vlt := rfl
@[simp] theorem State.modWhl_mnt (s : State) (n : Fin 8) (f : Wheel → Wheel) : (s.modWhl n f).mnt = s.mnt := rfl
@[simp] theorem State.modWhl_adc (s : State) (n : Fin 8) (f : Wheel → Wheel) : (s.modWhl n f).adc = s.adc := rfl
@[simp] theorem State.modWhl_dma (s : State) (n : Fin 8) (f : Wheel → Wheel) : (s.modWhl n f).dma = s.dma := rfl
@[simp] theorem State.modWhl_dbk (s : State) (n : Fin 8) (f : Wheel → Wheel) : (s.modWhl n f).dbk = s.dbk := rfl
@[simp] theorem State.modWhl_eth (s : State) (n : Fin 8) (f : Wheel → Wheel) : (s.modWhl n f).eth = s.eth := rfl
@[simp] theorem State.modWhl_asy (s : State) (n : Fin 8) (f : Wheel → Wheel) : (s.modWhl n f).asy = s.asy := rfl
@[simp] theorem State.modWhl_slo (s : State) (n : Fin 8) (f : Wheel → Wheel) : (s.modWhl n f).slo = s.slo := rfl
@[simp] theorem State.modWhl_ic (s : State) (n : Fin 8) (f : Wheel → Wheel) : (s.modWhl n f).ic = s.ic := rfl
@[simp] theorem State.modWhl_host (s : State) (n : Fin 8) (f : Wheel → Wheel) : (s.modWhl n f).host = s.host := rfl
@[simp] theorem State.modWhl_health (s : State) (n : Fin 8) (f : Wheel → Wheel) : (s.modWhl n f).health = s.health := rfl
@[simp] theorem State.modWhl_wakePin (s : State) (n : Fin 8) (f : Wheel → Wheel) : (s.modWhl n f).wakePin = s.wakePin := rfl
@[simp] theorem State.modWhl_resetLow (s : State) (n : Fin 8) (f : Wheel → Wheel) : (s.modWhl n f).resetLow = s.resetLow := rfl
@[simp] theorem State.modWhl_retained (s : State) (n : Fin 8) (f : Wheel → Wheel) : (s.modWhl n f).retained = s.retained := rfl
@[simp] theorem State.modWhl_pulses (s : State) (n : Fin 8) (f : Wheel → Wheel) : (s.modWhl n f).pulses = s.pulses := rfl
@[simp] theorem State.modWhl_out (s : State) (n : Fin 8) (f : Wheel → Wheel) : (s.modWhl n f).out = s.out := rfl
@[simp] theorem State.modWhl_read (s : State) (n : Fin 8) (f : Wheel → Wheel) : (s.modWhl n f).read = s.read := rfl
@[simp] theorem State.modWhl_latch (s : State) (n : Fin 8) (f : Wheel → Wheel) : (s.modWhl n f).latch = s.latch := rfl
@[simp] theorem State.modWhl_setNow (s : State) (n : Fin 8) (f : Wheel → Wheel) : (s.modWhl n f).setNow = s.setNow := rfl
@[simp] theorem State.modWhl_asyEdges (s : State) (n : Fin 8) (f : Wheel → Wheel) : (s.modWhl n f).asyEdges = s.asyEdges := rfl
@[simp] theorem State.modWhl_free (s : State) (n : Fin 8) (f : Wheel → Wheel) : (s.modWhl n f).free = s.free := rfl
@[simp] theorem State.modWhl_inflight (s : State) (n : Fin 8) (f : Wheel → Wheel) : (s.modWhl n f).inflight = s.inflight := rfl
@[simp] theorem State.modWhl_pending (s : State) (n : Fin 8) (f : Wheel → Wheel) : (s.modWhl n f).pending = s.pending := rfl
@[simp] theorem State.modWhl_rd (s : State) (n : Fin 8) (f : Wheel → Wheel) (a : Nat) : (s.modWhl n f).rd a = s.rd a := rfl
@[simp] theorem State.modWhl_rd64 (s : State) (n : Fin 8) (f : Wheel → Wheel) (a : Nat) : (s.modWhl n f).rd64 a = s.rd64 a := rfl
@[simp] theorem State.modWhl_get (s : State) (n : Fin 8) (f : Wheel → Wheel) (g : Fld) : (s.modWhl n f).get g = s.get g := rfl
@[simp] theorem State.modWhl_flag (s : State) (n : Fin 8) (f : Wheel → Wheel) (g : Fld) : (s.modWhl n f).flag g = s.flag g := rfl
@[simp] theorem State.modWhl_now (s : State) (n : Fin 8) (f : Wheel → Wheel) : (s.modWhl n f).now = s.now := rfl
@[simp] theorem State.modWhl_tally (s : State) (n : Fin 8) (f : Wheel → Wheel) : (s.modWhl n f).tally = s.tally := rfl
@[simp] theorem State.modWhl_nextNow (s : State) (n : Fin 8) (f : Wheel → Wheel) : (s.modWhl n f).nextNow = s.nextNow := rfl
@[simp] theorem State.modWhl_engCycle (s : State) (n : Fin 8) (f : Wheel → Wheel) : (s.modWhl n f).engCycle = s.engCycle := rfl
@[simp] theorem State.modDom_regs (s : State) (d : Fin 8) (f : Domain → Domain) : (s.modDom d f).regs = s.regs := rfl
@[simp] theorem State.modDom_tb (s : State) (d : Fin 8) (f : Domain → Domain) : (s.modDom d f).tb = s.tb := rfl
@[simp] theorem State.modDom_goAt (s : State) (d : Fin 8) (f : Domain → Domain) : (s.modDom d f).goAt = s.goAt := rfl
@[simp] theorem State.modDom_goDone (s : State) (d : Fin 8) (f : Domain → Domain) : (s.modDom d f).goDone = s.goDone := rfl
@[simp] theorem State.modDom_hst (s : State) (d : Fin 8) (f : Domain → Domain) : (s.modDom d f).hst = s.hst := rfl
@[simp] theorem State.modDom_cnt (s : State) (d : Fin 8) (f : Domain → Domain) : (s.modDom d f).cnt = s.cnt := rfl
@[simp] theorem State.modDom_pinActs (s : State) (d : Fin 8) (f : Domain → Domain) : (s.modDom d f).pinActs = s.pinActs := rfl
@[simp] theorem State.modDom_goNow (s : State) (d : Fin 8) (f : Domain → Domain) : (s.modDom d f).goNow = s.goNow := rfl
@[simp] theorem State.modDom_haltNow (s : State) (d : Fin 8) (f : Domain → Domain) : (s.modDom d f).haltNow = s.haltNow := rfl
@[simp] theorem State.modDom_fct (s : State) (d : Fin 8) (f : Domain → Domain) : (s.modDom d f).fct = s.fct := rfl
@[simp] theorem State.modDom_safeN (s : State) (d : Fin 8) (f : Domain → Domain) : (s.modDom d f).safeN = s.safeN := rfl
@[simp] theorem State.modDom_whl (s : State) (d : Fin 8) (f : Domain → Domain) : (s.modDom d f).whl = s.whl := rfl
@[simp] theorem State.modDom_bzl (s : State) (d : Fin 8) (f : Domain → Domain) : (s.modDom d f).bzl = vmod s.bzl d f := rfl
@[simp] theorem State.modDom_tlr (s : State) (d : Fin 8) (f : Domain → Domain) : (s.modDom d f).tlr = s.tlr := rfl
@[simp] theorem State.modDom_vlt (s : State) (d : Fin 8) (f : Domain → Domain) : (s.modDom d f).vlt = s.vlt := rfl
@[simp] theorem State.modDom_mnt (s : State) (d : Fin 8) (f : Domain → Domain) : (s.modDom d f).mnt = s.mnt := rfl
@[simp] theorem State.modDom_adc (s : State) (d : Fin 8) (f : Domain → Domain) : (s.modDom d f).adc = s.adc := rfl
@[simp] theorem State.modDom_dma (s : State) (d : Fin 8) (f : Domain → Domain) : (s.modDom d f).dma = s.dma := rfl
@[simp] theorem State.modDom_dbk (s : State) (d : Fin 8) (f : Domain → Domain) : (s.modDom d f).dbk = s.dbk := rfl
@[simp] theorem State.modDom_eth (s : State) (d : Fin 8) (f : Domain → Domain) : (s.modDom d f).eth = s.eth := rfl
@[simp] theorem State.modDom_asy (s : State) (d : Fin 8) (f : Domain → Domain) : (s.modDom d f).asy = s.asy := rfl
@[simp] theorem State.modDom_slo (s : State) (d : Fin 8) (f : Domain → Domain) : (s.modDom d f).slo = s.slo := rfl
@[simp] theorem State.modDom_ic (s : State) (d : Fin 8) (f : Domain → Domain) : (s.modDom d f).ic = s.ic := rfl
@[simp] theorem State.modDom_host (s : State) (d : Fin 8) (f : Domain → Domain) : (s.modDom d f).host = s.host := rfl
@[simp] theorem State.modDom_health (s : State) (d : Fin 8) (f : Domain → Domain) : (s.modDom d f).health = s.health := rfl
@[simp] theorem State.modDom_wakePin (s : State) (d : Fin 8) (f : Domain → Domain) : (s.modDom d f).wakePin = s.wakePin := rfl
@[simp] theorem State.modDom_resetLow (s : State) (d : Fin 8) (f : Domain → Domain) : (s.modDom d f).resetLow = s.resetLow := rfl
@[simp] theorem State.modDom_retained (s : State) (d : Fin 8) (f : Domain → Domain) : (s.modDom d f).retained = s.retained := rfl
@[simp] theorem State.modDom_pulses (s : State) (d : Fin 8) (f : Domain → Domain) : (s.modDom d f).pulses = s.pulses := rfl
@[simp] theorem State.modDom_out (s : State) (d : Fin 8) (f : Domain → Domain) : (s.modDom d f).out = s.out := rfl
@[simp] theorem State.modDom_read (s : State) (d : Fin 8) (f : Domain → Domain) : (s.modDom d f).read = s.read := rfl
@[simp] theorem State.modDom_latch (s : State) (d : Fin 8) (f : Domain → Domain) : (s.modDom d f).latch = s.latch := rfl
@[simp] theorem State.modDom_setNow (s : State) (d : Fin 8) (f : Domain → Domain) : (s.modDom d f).setNow = s.setNow := rfl
@[simp] theorem State.modDom_asyEdges (s : State) (d : Fin 8) (f : Domain → Domain) : (s.modDom d f).asyEdges = s.asyEdges := rfl
@[simp] theorem State.modDom_free (s : State) (d : Fin 8) (f : Domain → Domain) : (s.modDom d f).free = s.free := rfl
@[simp] theorem State.modDom_inflight (s : State) (d : Fin 8) (f : Domain → Domain) : (s.modDom d f).inflight = s.inflight := rfl
@[simp] theorem State.modDom_pending (s : State) (d : Fin 8) (f : Domain → Domain) : (s.modDom d f).pending = s.pending := rfl
@[simp] theorem State.modDom_rd (s : State) (d : Fin 8) (f : Domain → Domain) (a : Nat) : (s.modDom d f).rd a = s.rd a := rfl
@[simp] theorem State.modDom_rd64 (s : State) (d : Fin 8) (f : Domain → Domain) (a : Nat) : (s.modDom d f).rd64 a = s.rd64 a := rfl
@[simp] theorem State.modDom_get (s : State) (d : Fin 8) (f : Domain → Domain) (g : Fld) : (s.modDom d f).get g = s.get g := rfl
@[simp] theorem State.modDom_flag (s : State) (d : Fin 8) (f : Domain → Domain) (g : Fld) : (s.modDom d f).flag g = s.flag g := rfl
@[simp] theorem State.modDom_now (s : State) (d : Fin 8) (f : Domain → Domain) : (s.modDom d f).now = s.now := rfl
@[simp] theorem State.modDom_tally (s : State) (d : Fin 8) (f : Domain → Domain) : (s.modDom d f).tally = s.tally := rfl
@[simp] theorem State.modDom_nextNow (s : State) (d : Fin 8) (f : Domain → Domain) : (s.modDom d f).nextNow = s.nextNow := rfl
@[simp] theorem State.modDom_engCycle (s : State) (d : Fin 8) (f : Domain → Domain) : (s.modDom d f).engCycle = s.engCycle := rfl
@[simp] theorem State.modTlr_regs (s : State) (f : Teller → Teller) : (s.modTlr f).regs = s.regs := rfl
@[simp] theorem State.modTlr_tb (s : State) (f : Teller → Teller) : (s.modTlr f).tb = s.tb := rfl
@[simp] theorem State.modTlr_goAt (s : State) (f : Teller → Teller) : (s.modTlr f).goAt = s.goAt := rfl
@[simp] theorem State.modTlr_goDone (s : State) (f : Teller → Teller) : (s.modTlr f).goDone = s.goDone := rfl
@[simp] theorem State.modTlr_hst (s : State) (f : Teller → Teller) : (s.modTlr f).hst = s.hst := rfl
@[simp] theorem State.modTlr_cnt (s : State) (f : Teller → Teller) : (s.modTlr f).cnt = s.cnt := rfl
@[simp] theorem State.modTlr_pinActs (s : State) (f : Teller → Teller) : (s.modTlr f).pinActs = s.pinActs := rfl
@[simp] theorem State.modTlr_goNow (s : State) (f : Teller → Teller) : (s.modTlr f).goNow = s.goNow := rfl
@[simp] theorem State.modTlr_haltNow (s : State) (f : Teller → Teller) : (s.modTlr f).haltNow = s.haltNow := rfl
@[simp] theorem State.modTlr_fct (s : State) (f : Teller → Teller) : (s.modTlr f).fct = s.fct := rfl
@[simp] theorem State.modTlr_safeN (s : State) (f : Teller → Teller) : (s.modTlr f).safeN = s.safeN := rfl
@[simp] theorem State.modTlr_whl (s : State) (f : Teller → Teller) : (s.modTlr f).whl = s.whl := rfl
@[simp] theorem State.modTlr_bzl (s : State) (f : Teller → Teller) : (s.modTlr f).bzl = s.bzl := rfl
@[simp] theorem State.modTlr_tlr (s : State) (f : Teller → Teller) : (s.modTlr f).tlr = f s.tlr := rfl
@[simp] theorem State.modTlr_vlt (s : State) (f : Teller → Teller) : (s.modTlr f).vlt = s.vlt := rfl
@[simp] theorem State.modTlr_mnt (s : State) (f : Teller → Teller) : (s.modTlr f).mnt = s.mnt := rfl
@[simp] theorem State.modTlr_adc (s : State) (f : Teller → Teller) : (s.modTlr f).adc = s.adc := rfl
@[simp] theorem State.modTlr_dma (s : State) (f : Teller → Teller) : (s.modTlr f).dma = s.dma := rfl
@[simp] theorem State.modTlr_dbk (s : State) (f : Teller → Teller) : (s.modTlr f).dbk = s.dbk := rfl
@[simp] theorem State.modTlr_eth (s : State) (f : Teller → Teller) : (s.modTlr f).eth = s.eth := rfl
@[simp] theorem State.modTlr_asy (s : State) (f : Teller → Teller) : (s.modTlr f).asy = s.asy := rfl
@[simp] theorem State.modTlr_slo (s : State) (f : Teller → Teller) : (s.modTlr f).slo = s.slo := rfl
@[simp] theorem State.modTlr_ic (s : State) (f : Teller → Teller) : (s.modTlr f).ic = s.ic := rfl
@[simp] theorem State.modTlr_host (s : State) (f : Teller → Teller) : (s.modTlr f).host = s.host := rfl
@[simp] theorem State.modTlr_health (s : State) (f : Teller → Teller) : (s.modTlr f).health = s.health := rfl
@[simp] theorem State.modTlr_wakePin (s : State) (f : Teller → Teller) : (s.modTlr f).wakePin = s.wakePin := rfl
@[simp] theorem State.modTlr_resetLow (s : State) (f : Teller → Teller) : (s.modTlr f).resetLow = s.resetLow := rfl
@[simp] theorem State.modTlr_retained (s : State) (f : Teller → Teller) : (s.modTlr f).retained = s.retained := rfl
@[simp] theorem State.modTlr_pulses (s : State) (f : Teller → Teller) : (s.modTlr f).pulses = s.pulses := rfl
@[simp] theorem State.modTlr_out (s : State) (f : Teller → Teller) : (s.modTlr f).out = s.out := rfl
@[simp] theorem State.modTlr_read (s : State) (f : Teller → Teller) : (s.modTlr f).read = s.read := rfl
@[simp] theorem State.modTlr_latch (s : State) (f : Teller → Teller) : (s.modTlr f).latch = s.latch := rfl
@[simp] theorem State.modTlr_setNow (s : State) (f : Teller → Teller) : (s.modTlr f).setNow = s.setNow := rfl
@[simp] theorem State.modTlr_asyEdges (s : State) (f : Teller → Teller) : (s.modTlr f).asyEdges = s.asyEdges := rfl
@[simp] theorem State.modTlr_free (s : State) (f : Teller → Teller) : (s.modTlr f).free = s.free := rfl
@[simp] theorem State.modTlr_inflight (s : State) (f : Teller → Teller) : (s.modTlr f).inflight = s.inflight := rfl
@[simp] theorem State.modTlr_pending (s : State) (f : Teller → Teller) : (s.modTlr f).pending = s.pending := rfl
@[simp] theorem State.modTlr_rd (s : State) (f : Teller → Teller) (a : Nat) : (s.modTlr f).rd a = s.rd a := rfl
@[simp] theorem State.modTlr_rd64 (s : State) (f : Teller → Teller) (a : Nat) : (s.modTlr f).rd64 a = s.rd64 a := rfl
@[simp] theorem State.modTlr_get (s : State) (f : Teller → Teller) (g : Fld) : (s.modTlr f).get g = s.get g := rfl
@[simp] theorem State.modTlr_flag (s : State) (f : Teller → Teller) (g : Fld) : (s.modTlr f).flag g = s.flag g := rfl
@[simp] theorem State.modTlr_now (s : State) (f : Teller → Teller) : (s.modTlr f).now = s.now := rfl
@[simp] theorem State.modTlr_tally (s : State) (f : Teller → Teller) : (s.modTlr f).tally = s.tally := rfl
@[simp] theorem State.modTlr_nextNow (s : State) (f : Teller → Teller) : (s.modTlr f).nextNow = s.nextNow := rfl
@[simp] theorem State.modTlr_engCycle (s : State) (f : Teller → Teller) : (s.modTlr f).engCycle = s.engCycle := rfl
@[simp] theorem State.modCh_regs (s : State) (c : Fin 512) (f : Channel → Channel) : (s.modCh c f).regs = s.regs := rfl
@[simp] theorem State.modCh_tb (s : State) (c : Fin 512) (f : Channel → Channel) : (s.modCh c f).tb = s.tb := rfl
@[simp] theorem State.modCh_goAt (s : State) (c : Fin 512) (f : Channel → Channel) : (s.modCh c f).goAt = s.goAt := rfl
@[simp] theorem State.modCh_goDone (s : State) (c : Fin 512) (f : Channel → Channel) : (s.modCh c f).goDone = s.goDone := rfl
@[simp] theorem State.modCh_hst (s : State) (c : Fin 512) (f : Channel → Channel) : (s.modCh c f).hst = s.hst := rfl
@[simp] theorem State.modCh_cnt (s : State) (c : Fin 512) (f : Channel → Channel) : (s.modCh c f).cnt = s.cnt := rfl
@[simp] theorem State.modCh_pinActs (s : State) (c : Fin 512) (f : Channel → Channel) : (s.modCh c f).pinActs = s.pinActs := rfl
@[simp] theorem State.modCh_goNow (s : State) (c : Fin 512) (f : Channel → Channel) : (s.modCh c f).goNow = s.goNow := rfl
@[simp] theorem State.modCh_haltNow (s : State) (c : Fin 512) (f : Channel → Channel) : (s.modCh c f).haltNow = s.haltNow := rfl
@[simp] theorem State.modCh_fct (s : State) (c : Fin 512) (f : Channel → Channel) : (s.modCh c f).fct = s.fct := rfl
@[simp] theorem State.modCh_safeN (s : State) (c : Fin 512) (f : Channel → Channel) : (s.modCh c f).safeN = s.safeN := rfl
@[simp] theorem State.modCh_whl (s : State) (c : Fin 512) (f : Channel → Channel) : (s.modCh c f).whl = s.whl := rfl
@[simp] theorem State.modCh_bzl (s : State) (c : Fin 512) (f : Channel → Channel) : (s.modCh c f).bzl = s.bzl := rfl
@[simp] theorem State.modCh_tlr (s : State) (c : Fin 512) (f : Channel → Channel) : (s.modCh c f).tlr = { s.tlr with chan := vmod s.tlr.chan c f } := rfl
@[simp] theorem State.modCh_vlt (s : State) (c : Fin 512) (f : Channel → Channel) : (s.modCh c f).vlt = s.vlt := rfl
@[simp] theorem State.modCh_mnt (s : State) (c : Fin 512) (f : Channel → Channel) : (s.modCh c f).mnt = s.mnt := rfl
@[simp] theorem State.modCh_adc (s : State) (c : Fin 512) (f : Channel → Channel) : (s.modCh c f).adc = s.adc := rfl
@[simp] theorem State.modCh_dma (s : State) (c : Fin 512) (f : Channel → Channel) : (s.modCh c f).dma = s.dma := rfl
@[simp] theorem State.modCh_dbk (s : State) (c : Fin 512) (f : Channel → Channel) : (s.modCh c f).dbk = s.dbk := rfl
@[simp] theorem State.modCh_eth (s : State) (c : Fin 512) (f : Channel → Channel) : (s.modCh c f).eth = s.eth := rfl
@[simp] theorem State.modCh_asy (s : State) (c : Fin 512) (f : Channel → Channel) : (s.modCh c f).asy = s.asy := rfl
@[simp] theorem State.modCh_slo (s : State) (c : Fin 512) (f : Channel → Channel) : (s.modCh c f).slo = s.slo := rfl
@[simp] theorem State.modCh_ic (s : State) (c : Fin 512) (f : Channel → Channel) : (s.modCh c f).ic = s.ic := rfl
@[simp] theorem State.modCh_host (s : State) (c : Fin 512) (f : Channel → Channel) : (s.modCh c f).host = s.host := rfl
@[simp] theorem State.modCh_health (s : State) (c : Fin 512) (f : Channel → Channel) : (s.modCh c f).health = s.health := rfl
@[simp] theorem State.modCh_wakePin (s : State) (c : Fin 512) (f : Channel → Channel) : (s.modCh c f).wakePin = s.wakePin := rfl
@[simp] theorem State.modCh_resetLow (s : State) (c : Fin 512) (f : Channel → Channel) : (s.modCh c f).resetLow = s.resetLow := rfl
@[simp] theorem State.modCh_retained (s : State) (c : Fin 512) (f : Channel → Channel) : (s.modCh c f).retained = s.retained := rfl
@[simp] theorem State.modCh_pulses (s : State) (c : Fin 512) (f : Channel → Channel) : (s.modCh c f).pulses = s.pulses := rfl
@[simp] theorem State.modCh_out (s : State) (c : Fin 512) (f : Channel → Channel) : (s.modCh c f).out = s.out := rfl
@[simp] theorem State.modCh_read (s : State) (c : Fin 512) (f : Channel → Channel) : (s.modCh c f).read = s.read := rfl
@[simp] theorem State.modCh_latch (s : State) (c : Fin 512) (f : Channel → Channel) : (s.modCh c f).latch = s.latch := rfl
@[simp] theorem State.modCh_setNow (s : State) (c : Fin 512) (f : Channel → Channel) : (s.modCh c f).setNow = s.setNow := rfl
@[simp] theorem State.modCh_asyEdges (s : State) (c : Fin 512) (f : Channel → Channel) : (s.modCh c f).asyEdges = s.asyEdges := rfl
@[simp] theorem State.modCh_free (s : State) (c : Fin 512) (f : Channel → Channel) : (s.modCh c f).free = s.free := rfl
@[simp] theorem State.modCh_inflight (s : State) (c : Fin 512) (f : Channel → Channel) : (s.modCh c f).inflight = s.inflight := rfl
@[simp] theorem State.modCh_pending (s : State) (c : Fin 512) (f : Channel → Channel) : (s.modCh c f).pending = s.pending := rfl
@[simp] theorem State.modCh_rd (s : State) (c : Fin 512) (f : Channel → Channel) (a : Nat) : (s.modCh c f).rd a = s.rd a := rfl
@[simp] theorem State.modCh_rd64 (s : State) (c : Fin 512) (f : Channel → Channel) (a : Nat) : (s.modCh c f).rd64 a = s.rd64 a := rfl
@[simp] theorem State.modCh_get (s : State) (c : Fin 512) (f : Channel → Channel) (g : Fld) : (s.modCh c f).get g = s.get g := rfl
@[simp] theorem State.modCh_flag (s : State) (c : Fin 512) (f : Channel → Channel) (g : Fld) : (s.modCh c f).flag g = s.flag g := rfl
@[simp] theorem State.modCh_now (s : State) (c : Fin 512) (f : Channel → Channel) : (s.modCh c f).now = s.now := rfl
@[simp] theorem State.modCh_tally (s : State) (c : Fin 512) (f : Channel → Channel) : (s.modCh c f).tally = s.tally := rfl
@[simp] theorem State.modCh_nextNow (s : State) (c : Fin 512) (f : Channel → Channel) : (s.modCh c f).nextNow = s.nextNow := rfl
@[simp] theorem State.modCh_engCycle (s : State) (c : Fin 512) (f : Channel → Channel) : (s.modCh c f).engCycle = s.engCycle := rfl
@[simp] theorem State.modCtx_regs (s : State) (c : Fin 512) (f : Context → Context) : (s.modCtx c f).regs = s.regs := rfl
@[simp] theorem State.modCtx_tb (s : State) (c : Fin 512) (f : Context → Context) : (s.modCtx c f).tb = s.tb := rfl
@[simp] theorem State.modCtx_goAt (s : State) (c : Fin 512) (f : Context → Context) : (s.modCtx c f).goAt = s.goAt := rfl
@[simp] theorem State.modCtx_goDone (s : State) (c : Fin 512) (f : Context → Context) : (s.modCtx c f).goDone = s.goDone := rfl
@[simp] theorem State.modCtx_hst (s : State) (c : Fin 512) (f : Context → Context) : (s.modCtx c f).hst = s.hst := rfl
@[simp] theorem State.modCtx_cnt (s : State) (c : Fin 512) (f : Context → Context) : (s.modCtx c f).cnt = s.cnt := rfl
@[simp] theorem State.modCtx_pinActs (s : State) (c : Fin 512) (f : Context → Context) : (s.modCtx c f).pinActs = s.pinActs := rfl
@[simp] theorem State.modCtx_goNow (s : State) (c : Fin 512) (f : Context → Context) : (s.modCtx c f).goNow = s.goNow := rfl
@[simp] theorem State.modCtx_haltNow (s : State) (c : Fin 512) (f : Context → Context) : (s.modCtx c f).haltNow = s.haltNow := rfl
@[simp] theorem State.modCtx_fct (s : State) (c : Fin 512) (f : Context → Context) : (s.modCtx c f).fct = s.fct := rfl
@[simp] theorem State.modCtx_safeN (s : State) (c : Fin 512) (f : Context → Context) : (s.modCtx c f).safeN = s.safeN := rfl
@[simp] theorem State.modCtx_whl (s : State) (c : Fin 512) (f : Context → Context) : (s.modCtx c f).whl = s.whl := rfl
@[simp] theorem State.modCtx_bzl (s : State) (c : Fin 512) (f : Context → Context) : (s.modCtx c f).bzl = s.bzl := rfl
@[simp] theorem State.modCtx_tlr (s : State) (c : Fin 512) (f : Context → Context) : (s.modCtx c f).tlr = { s.tlr with ctx := vmod s.tlr.ctx c f } := rfl
@[simp] theorem State.modCtx_vlt (s : State) (c : Fin 512) (f : Context → Context) : (s.modCtx c f).vlt = s.vlt := rfl
@[simp] theorem State.modCtx_mnt (s : State) (c : Fin 512) (f : Context → Context) : (s.modCtx c f).mnt = s.mnt := rfl
@[simp] theorem State.modCtx_adc (s : State) (c : Fin 512) (f : Context → Context) : (s.modCtx c f).adc = s.adc := rfl
@[simp] theorem State.modCtx_dma (s : State) (c : Fin 512) (f : Context → Context) : (s.modCtx c f).dma = s.dma := rfl
@[simp] theorem State.modCtx_dbk (s : State) (c : Fin 512) (f : Context → Context) : (s.modCtx c f).dbk = s.dbk := rfl
@[simp] theorem State.modCtx_eth (s : State) (c : Fin 512) (f : Context → Context) : (s.modCtx c f).eth = s.eth := rfl
@[simp] theorem State.modCtx_asy (s : State) (c : Fin 512) (f : Context → Context) : (s.modCtx c f).asy = s.asy := rfl
@[simp] theorem State.modCtx_slo (s : State) (c : Fin 512) (f : Context → Context) : (s.modCtx c f).slo = s.slo := rfl
@[simp] theorem State.modCtx_ic (s : State) (c : Fin 512) (f : Context → Context) : (s.modCtx c f).ic = s.ic := rfl
@[simp] theorem State.modCtx_host (s : State) (c : Fin 512) (f : Context → Context) : (s.modCtx c f).host = s.host := rfl
@[simp] theorem State.modCtx_health (s : State) (c : Fin 512) (f : Context → Context) : (s.modCtx c f).health = s.health := rfl
@[simp] theorem State.modCtx_wakePin (s : State) (c : Fin 512) (f : Context → Context) : (s.modCtx c f).wakePin = s.wakePin := rfl
@[simp] theorem State.modCtx_resetLow (s : State) (c : Fin 512) (f : Context → Context) : (s.modCtx c f).resetLow = s.resetLow := rfl
@[simp] theorem State.modCtx_retained (s : State) (c : Fin 512) (f : Context → Context) : (s.modCtx c f).retained = s.retained := rfl
@[simp] theorem State.modCtx_pulses (s : State) (c : Fin 512) (f : Context → Context) : (s.modCtx c f).pulses = s.pulses := rfl
@[simp] theorem State.modCtx_out (s : State) (c : Fin 512) (f : Context → Context) : (s.modCtx c f).out = s.out := rfl
@[simp] theorem State.modCtx_read (s : State) (c : Fin 512) (f : Context → Context) : (s.modCtx c f).read = s.read := rfl
@[simp] theorem State.modCtx_latch (s : State) (c : Fin 512) (f : Context → Context) : (s.modCtx c f).latch = s.latch := rfl
@[simp] theorem State.modCtx_setNow (s : State) (c : Fin 512) (f : Context → Context) : (s.modCtx c f).setNow = s.setNow := rfl
@[simp] theorem State.modCtx_asyEdges (s : State) (c : Fin 512) (f : Context → Context) : (s.modCtx c f).asyEdges = s.asyEdges := rfl
@[simp] theorem State.modCtx_free (s : State) (c : Fin 512) (f : Context → Context) : (s.modCtx c f).free = s.free := rfl
@[simp] theorem State.modCtx_inflight (s : State) (c : Fin 512) (f : Context → Context) : (s.modCtx c f).inflight = s.inflight := rfl
@[simp] theorem State.modCtx_pending (s : State) (c : Fin 512) (f : Context → Context) : (s.modCtx c f).pending = s.pending := rfl
@[simp] theorem State.modCtx_rd (s : State) (c : Fin 512) (f : Context → Context) (a : Nat) : (s.modCtx c f).rd a = s.rd a := rfl
@[simp] theorem State.modCtx_rd64 (s : State) (c : Fin 512) (f : Context → Context) (a : Nat) : (s.modCtx c f).rd64 a = s.rd64 a := rfl
@[simp] theorem State.modCtx_get (s : State) (c : Fin 512) (f : Context → Context) (g : Fld) : (s.modCtx c f).get g = s.get g := rfl
@[simp] theorem State.modCtx_flag (s : State) (c : Fin 512) (f : Context → Context) (g : Fld) : (s.modCtx c f).flag g = s.flag g := rfl
@[simp] theorem State.modCtx_now (s : State) (c : Fin 512) (f : Context → Context) : (s.modCtx c f).now = s.now := rfl
@[simp] theorem State.modCtx_tally (s : State) (c : Fin 512) (f : Context → Context) : (s.modCtx c f).tally = s.tally := rfl
@[simp] theorem State.modCtx_nextNow (s : State) (c : Fin 512) (f : Context → Context) : (s.modCtx c f).nextNow = s.nextNow := rfl
@[simp] theorem State.modCtx_engCycle (s : State) (c : Fin 512) (f : Context → Context) : (s.modCtx c f).engCycle = s.engCycle := rfl
@[simp] theorem State.modEng_regs (s : State) (e : Fin 17) (f : Engine → Engine) : (s.modEng e f).regs = s.regs := rfl
@[simp] theorem State.modEng_tb (s : State) (e : Fin 17) (f : Engine → Engine) : (s.modEng e f).tb = s.tb := rfl
@[simp] theorem State.modEng_goAt (s : State) (e : Fin 17) (f : Engine → Engine) : (s.modEng e f).goAt = s.goAt := rfl
@[simp] theorem State.modEng_goDone (s : State) (e : Fin 17) (f : Engine → Engine) : (s.modEng e f).goDone = s.goDone := rfl
@[simp] theorem State.modEng_hst (s : State) (e : Fin 17) (f : Engine → Engine) : (s.modEng e f).hst = s.hst := rfl
@[simp] theorem State.modEng_cnt (s : State) (e : Fin 17) (f : Engine → Engine) : (s.modEng e f).cnt = s.cnt := rfl
@[simp] theorem State.modEng_pinActs (s : State) (e : Fin 17) (f : Engine → Engine) : (s.modEng e f).pinActs = s.pinActs := rfl
@[simp] theorem State.modEng_goNow (s : State) (e : Fin 17) (f : Engine → Engine) : (s.modEng e f).goNow = s.goNow := rfl
@[simp] theorem State.modEng_haltNow (s : State) (e : Fin 17) (f : Engine → Engine) : (s.modEng e f).haltNow = s.haltNow := rfl
@[simp] theorem State.modEng_fct (s : State) (e : Fin 17) (f : Engine → Engine) : (s.modEng e f).fct = s.fct := rfl
@[simp] theorem State.modEng_safeN (s : State) (e : Fin 17) (f : Engine → Engine) : (s.modEng e f).safeN = s.safeN := rfl
@[simp] theorem State.modEng_whl (s : State) (e : Fin 17) (f : Engine → Engine) : (s.modEng e f).whl = s.whl := rfl
@[simp] theorem State.modEng_bzl (s : State) (e : Fin 17) (f : Engine → Engine) : (s.modEng e f).bzl = s.bzl := rfl
@[simp] theorem State.modEng_tlr (s : State) (e : Fin 17) (f : Engine → Engine) : (s.modEng e f).tlr = { s.tlr with eng := vmod s.tlr.eng e f } := rfl
@[simp] theorem State.modEng_vlt (s : State) (e : Fin 17) (f : Engine → Engine) : (s.modEng e f).vlt = s.vlt := rfl
@[simp] theorem State.modEng_mnt (s : State) (e : Fin 17) (f : Engine → Engine) : (s.modEng e f).mnt = s.mnt := rfl
@[simp] theorem State.modEng_adc (s : State) (e : Fin 17) (f : Engine → Engine) : (s.modEng e f).adc = s.adc := rfl
@[simp] theorem State.modEng_dma (s : State) (e : Fin 17) (f : Engine → Engine) : (s.modEng e f).dma = s.dma := rfl
@[simp] theorem State.modEng_dbk (s : State) (e : Fin 17) (f : Engine → Engine) : (s.modEng e f).dbk = s.dbk := rfl
@[simp] theorem State.modEng_eth (s : State) (e : Fin 17) (f : Engine → Engine) : (s.modEng e f).eth = s.eth := rfl
@[simp] theorem State.modEng_asy (s : State) (e : Fin 17) (f : Engine → Engine) : (s.modEng e f).asy = s.asy := rfl
@[simp] theorem State.modEng_slo (s : State) (e : Fin 17) (f : Engine → Engine) : (s.modEng e f).slo = s.slo := rfl
@[simp] theorem State.modEng_ic (s : State) (e : Fin 17) (f : Engine → Engine) : (s.modEng e f).ic = s.ic := rfl
@[simp] theorem State.modEng_host (s : State) (e : Fin 17) (f : Engine → Engine) : (s.modEng e f).host = s.host := rfl
@[simp] theorem State.modEng_health (s : State) (e : Fin 17) (f : Engine → Engine) : (s.modEng e f).health = s.health := rfl
@[simp] theorem State.modEng_wakePin (s : State) (e : Fin 17) (f : Engine → Engine) : (s.modEng e f).wakePin = s.wakePin := rfl
@[simp] theorem State.modEng_resetLow (s : State) (e : Fin 17) (f : Engine → Engine) : (s.modEng e f).resetLow = s.resetLow := rfl
@[simp] theorem State.modEng_retained (s : State) (e : Fin 17) (f : Engine → Engine) : (s.modEng e f).retained = s.retained := rfl
@[simp] theorem State.modEng_pulses (s : State) (e : Fin 17) (f : Engine → Engine) : (s.modEng e f).pulses = s.pulses := rfl
@[simp] theorem State.modEng_out (s : State) (e : Fin 17) (f : Engine → Engine) : (s.modEng e f).out = s.out := rfl
@[simp] theorem State.modEng_read (s : State) (e : Fin 17) (f : Engine → Engine) : (s.modEng e f).read = s.read := rfl
@[simp] theorem State.modEng_latch (s : State) (e : Fin 17) (f : Engine → Engine) : (s.modEng e f).latch = s.latch := rfl
@[simp] theorem State.modEng_setNow (s : State) (e : Fin 17) (f : Engine → Engine) : (s.modEng e f).setNow = s.setNow := rfl
@[simp] theorem State.modEng_asyEdges (s : State) (e : Fin 17) (f : Engine → Engine) : (s.modEng e f).asyEdges = s.asyEdges := rfl
@[simp] theorem State.modEng_free (s : State) (e : Fin 17) (f : Engine → Engine) : (s.modEng e f).free = s.free := rfl
@[simp] theorem State.modEng_inflight (s : State) (e : Fin 17) (f : Engine → Engine) : (s.modEng e f).inflight = s.inflight := rfl
@[simp] theorem State.modEng_pending (s : State) (e : Fin 17) (f : Engine → Engine) : (s.modEng e f).pending = s.pending := rfl
@[simp] theorem State.modEng_rd (s : State) (e : Fin 17) (f : Engine → Engine) (a : Nat) : (s.modEng e f).rd a = s.rd a := rfl
@[simp] theorem State.modEng_rd64 (s : State) (e : Fin 17) (f : Engine → Engine) (a : Nat) : (s.modEng e f).rd64 a = s.rd64 a := rfl
@[simp] theorem State.modEng_get (s : State) (e : Fin 17) (f : Engine → Engine) (g : Fld) : (s.modEng e f).get g = s.get g := rfl
@[simp] theorem State.modEng_flag (s : State) (e : Fin 17) (f : Engine → Engine) (g : Fld) : (s.modEng e f).flag g = s.flag g := rfl
@[simp] theorem State.modEng_now (s : State) (e : Fin 17) (f : Engine → Engine) : (s.modEng e f).now = s.now := rfl
@[simp] theorem State.modEng_tally (s : State) (e : Fin 17) (f : Engine → Engine) : (s.modEng e f).tally = s.tally := rfl
@[simp] theorem State.modEng_nextNow (s : State) (e : Fin 17) (f : Engine → Engine) : (s.modEng e f).nextNow = s.nextNow := rfl
@[simp] theorem State.modEng_engCycle (s : State) (e : Fin 17) (f : Engine → Engine) : (s.modEng e f).engCycle = s.engCycle := rfl
@[simp] theorem State.modTb_regs (s : State) (f : TimeBase → TimeBase) : (s.modTb f).regs = s.regs := rfl
@[simp] theorem State.modTb_tb (s : State) (f : TimeBase → TimeBase) : (s.modTb f).tb = f s.tb := rfl
@[simp] theorem State.modTb_goAt (s : State) (f : TimeBase → TimeBase) : (s.modTb f).goAt = s.goAt := rfl
@[simp] theorem State.modTb_goDone (s : State) (f : TimeBase → TimeBase) : (s.modTb f).goDone = s.goDone := rfl
@[simp] theorem State.modTb_hst (s : State) (f : TimeBase → TimeBase) : (s.modTb f).hst = s.hst := rfl
@[simp] theorem State.modTb_cnt (s : State) (f : TimeBase → TimeBase) : (s.modTb f).cnt = s.cnt := rfl
@[simp] theorem State.modTb_pinActs (s : State) (f : TimeBase → TimeBase) : (s.modTb f).pinActs = s.pinActs := rfl
@[simp] theorem State.modTb_goNow (s : State) (f : TimeBase → TimeBase) : (s.modTb f).goNow = s.goNow := rfl
@[simp] theorem State.modTb_haltNow (s : State) (f : TimeBase → TimeBase) : (s.modTb f).haltNow = s.haltNow := rfl
@[simp] theorem State.modTb_fct (s : State) (f : TimeBase → TimeBase) : (s.modTb f).fct = s.fct := rfl
@[simp] theorem State.modTb_safeN (s : State) (f : TimeBase → TimeBase) : (s.modTb f).safeN = s.safeN := rfl
@[simp] theorem State.modTb_whl (s : State) (f : TimeBase → TimeBase) : (s.modTb f).whl = s.whl := rfl
@[simp] theorem State.modTb_bzl (s : State) (f : TimeBase → TimeBase) : (s.modTb f).bzl = s.bzl := rfl
@[simp] theorem State.modTb_tlr (s : State) (f : TimeBase → TimeBase) : (s.modTb f).tlr = s.tlr := rfl
@[simp] theorem State.modTb_vlt (s : State) (f : TimeBase → TimeBase) : (s.modTb f).vlt = s.vlt := rfl
@[simp] theorem State.modTb_mnt (s : State) (f : TimeBase → TimeBase) : (s.modTb f).mnt = s.mnt := rfl
@[simp] theorem State.modTb_adc (s : State) (f : TimeBase → TimeBase) : (s.modTb f).adc = s.adc := rfl
@[simp] theorem State.modTb_dma (s : State) (f : TimeBase → TimeBase) : (s.modTb f).dma = s.dma := rfl
@[simp] theorem State.modTb_dbk (s : State) (f : TimeBase → TimeBase) : (s.modTb f).dbk = s.dbk := rfl
@[simp] theorem State.modTb_eth (s : State) (f : TimeBase → TimeBase) : (s.modTb f).eth = s.eth := rfl
@[simp] theorem State.modTb_asy (s : State) (f : TimeBase → TimeBase) : (s.modTb f).asy = s.asy := rfl
@[simp] theorem State.modTb_slo (s : State) (f : TimeBase → TimeBase) : (s.modTb f).slo = s.slo := rfl
@[simp] theorem State.modTb_ic (s : State) (f : TimeBase → TimeBase) : (s.modTb f).ic = s.ic := rfl
@[simp] theorem State.modTb_host (s : State) (f : TimeBase → TimeBase) : (s.modTb f).host = s.host := rfl
@[simp] theorem State.modTb_health (s : State) (f : TimeBase → TimeBase) : (s.modTb f).health = s.health := rfl
@[simp] theorem State.modTb_wakePin (s : State) (f : TimeBase → TimeBase) : (s.modTb f).wakePin = s.wakePin := rfl
@[simp] theorem State.modTb_resetLow (s : State) (f : TimeBase → TimeBase) : (s.modTb f).resetLow = s.resetLow := rfl
@[simp] theorem State.modTb_retained (s : State) (f : TimeBase → TimeBase) : (s.modTb f).retained = s.retained := rfl
@[simp] theorem State.modTb_pulses (s : State) (f : TimeBase → TimeBase) : (s.modTb f).pulses = s.pulses := rfl
@[simp] theorem State.modTb_out (s : State) (f : TimeBase → TimeBase) : (s.modTb f).out = s.out := rfl
@[simp] theorem State.modTb_read (s : State) (f : TimeBase → TimeBase) : (s.modTb f).read = s.read := rfl
@[simp] theorem State.modTb_latch (s : State) (f : TimeBase → TimeBase) : (s.modTb f).latch = s.latch := rfl
@[simp] theorem State.modTb_setNow (s : State) (f : TimeBase → TimeBase) : (s.modTb f).setNow = s.setNow := rfl
@[simp] theorem State.modTb_asyEdges (s : State) (f : TimeBase → TimeBase) : (s.modTb f).asyEdges = s.asyEdges := rfl
@[simp] theorem State.modTb_free (s : State) (f : TimeBase → TimeBase) : (s.modTb f).free = s.free := rfl
@[simp] theorem State.modTb_inflight (s : State) (f : TimeBase → TimeBase) : (s.modTb f).inflight = s.inflight := rfl
@[simp] theorem State.modTb_pending (s : State) (f : TimeBase → TimeBase) : (s.modTb f).pending = s.pending := rfl
@[simp] theorem State.modTb_rd (s : State) (f : TimeBase → TimeBase) (a : Nat) : (s.modTb f).rd a = s.rd a := rfl
@[simp] theorem State.modTb_rd64 (s : State) (f : TimeBase → TimeBase) (a : Nat) : (s.modTb f).rd64 a = s.rd64 a := rfl
@[simp] theorem State.modTb_get (s : State) (f : TimeBase → TimeBase) (g : Fld) : (s.modTb f).get g = s.get g := rfl
@[simp] theorem State.modTb_flag (s : State) (f : TimeBase → TimeBase) (g : Fld) : (s.modTb f).flag g = s.flag g := rfl
@[simp] theorem State.modVlt_regs (s : State) (f : Vault → Vault) : (s.modVlt f).regs = s.regs := rfl
@[simp] theorem State.modVlt_tb (s : State) (f : Vault → Vault) : (s.modVlt f).tb = s.tb := rfl
@[simp] theorem State.modVlt_goAt (s : State) (f : Vault → Vault) : (s.modVlt f).goAt = s.goAt := rfl
@[simp] theorem State.modVlt_goDone (s : State) (f : Vault → Vault) : (s.modVlt f).goDone = s.goDone := rfl
@[simp] theorem State.modVlt_hst (s : State) (f : Vault → Vault) : (s.modVlt f).hst = s.hst := rfl
@[simp] theorem State.modVlt_cnt (s : State) (f : Vault → Vault) : (s.modVlt f).cnt = s.cnt := rfl
@[simp] theorem State.modVlt_pinActs (s : State) (f : Vault → Vault) : (s.modVlt f).pinActs = s.pinActs := rfl
@[simp] theorem State.modVlt_goNow (s : State) (f : Vault → Vault) : (s.modVlt f).goNow = s.goNow := rfl
@[simp] theorem State.modVlt_haltNow (s : State) (f : Vault → Vault) : (s.modVlt f).haltNow = s.haltNow := rfl
@[simp] theorem State.modVlt_fct (s : State) (f : Vault → Vault) : (s.modVlt f).fct = s.fct := rfl
@[simp] theorem State.modVlt_safeN (s : State) (f : Vault → Vault) : (s.modVlt f).safeN = s.safeN := rfl
@[simp] theorem State.modVlt_whl (s : State) (f : Vault → Vault) : (s.modVlt f).whl = s.whl := rfl
@[simp] theorem State.modVlt_bzl (s : State) (f : Vault → Vault) : (s.modVlt f).bzl = s.bzl := rfl
@[simp] theorem State.modVlt_tlr (s : State) (f : Vault → Vault) : (s.modVlt f).tlr = s.tlr := rfl
@[simp] theorem State.modVlt_vlt (s : State) (f : Vault → Vault) : (s.modVlt f).vlt = f s.vlt := rfl
@[simp] theorem State.modVlt_mnt (s : State) (f : Vault → Vault) : (s.modVlt f).mnt = s.mnt := rfl
@[simp] theorem State.modVlt_adc (s : State) (f : Vault → Vault) : (s.modVlt f).adc = s.adc := rfl
@[simp] theorem State.modVlt_dma (s : State) (f : Vault → Vault) : (s.modVlt f).dma = s.dma := rfl
@[simp] theorem State.modVlt_dbk (s : State) (f : Vault → Vault) : (s.modVlt f).dbk = s.dbk := rfl
@[simp] theorem State.modVlt_eth (s : State) (f : Vault → Vault) : (s.modVlt f).eth = s.eth := rfl
@[simp] theorem State.modVlt_asy (s : State) (f : Vault → Vault) : (s.modVlt f).asy = s.asy := rfl
@[simp] theorem State.modVlt_slo (s : State) (f : Vault → Vault) : (s.modVlt f).slo = s.slo := rfl
@[simp] theorem State.modVlt_ic (s : State) (f : Vault → Vault) : (s.modVlt f).ic = s.ic := rfl
@[simp] theorem State.modVlt_host (s : State) (f : Vault → Vault) : (s.modVlt f).host = s.host := rfl
@[simp] theorem State.modVlt_health (s : State) (f : Vault → Vault) : (s.modVlt f).health = s.health := rfl
@[simp] theorem State.modVlt_wakePin (s : State) (f : Vault → Vault) : (s.modVlt f).wakePin = s.wakePin := rfl
@[simp] theorem State.modVlt_resetLow (s : State) (f : Vault → Vault) : (s.modVlt f).resetLow = s.resetLow := rfl
@[simp] theorem State.modVlt_retained (s : State) (f : Vault → Vault) : (s.modVlt f).retained = s.retained := rfl
@[simp] theorem State.modVlt_pulses (s : State) (f : Vault → Vault) : (s.modVlt f).pulses = s.pulses := rfl
@[simp] theorem State.modVlt_out (s : State) (f : Vault → Vault) : (s.modVlt f).out = s.out := rfl
@[simp] theorem State.modVlt_read (s : State) (f : Vault → Vault) : (s.modVlt f).read = s.read := rfl
@[simp] theorem State.modVlt_latch (s : State) (f : Vault → Vault) : (s.modVlt f).latch = s.latch := rfl
@[simp] theorem State.modVlt_setNow (s : State) (f : Vault → Vault) : (s.modVlt f).setNow = s.setNow := rfl
@[simp] theorem State.modVlt_asyEdges (s : State) (f : Vault → Vault) : (s.modVlt f).asyEdges = s.asyEdges := rfl
@[simp] theorem State.modVlt_free (s : State) (f : Vault → Vault) : (s.modVlt f).free = s.free := rfl
@[simp] theorem State.modVlt_inflight (s : State) (f : Vault → Vault) : (s.modVlt f).inflight = s.inflight := rfl
@[simp] theorem State.modVlt_pending (s : State) (f : Vault → Vault) : (s.modVlt f).pending = s.pending := rfl
@[simp] theorem State.modVlt_rd (s : State) (f : Vault → Vault) (a : Nat) : (s.modVlt f).rd a = s.rd a := rfl
@[simp] theorem State.modVlt_rd64 (s : State) (f : Vault → Vault) (a : Nat) : (s.modVlt f).rd64 a = s.rd64 a := rfl
@[simp] theorem State.modVlt_get (s : State) (f : Vault → Vault) (g : Fld) : (s.modVlt f).get g = s.get g := rfl
@[simp] theorem State.modVlt_flag (s : State) (f : Vault → Vault) (g : Fld) : (s.modVlt f).flag g = s.flag g := rfl
@[simp] theorem State.modVlt_now (s : State) (f : Vault → Vault) : (s.modVlt f).now = s.now := rfl
@[simp] theorem State.modVlt_tally (s : State) (f : Vault → Vault) : (s.modVlt f).tally = s.tally := rfl
@[simp] theorem State.modVlt_nextNow (s : State) (f : Vault → Vault) : (s.modVlt f).nextNow = s.nextNow := rfl
@[simp] theorem State.modVlt_engCycle (s : State) (f : Vault → Vault) : (s.modVlt f).engCycle = s.engCycle := rfl
@[simp] theorem State.modMnt_regs (s : State) (f : Mint → Mint) : (s.modMnt f).regs = s.regs := rfl
@[simp] theorem State.modMnt_tb (s : State) (f : Mint → Mint) : (s.modMnt f).tb = s.tb := rfl
@[simp] theorem State.modMnt_goAt (s : State) (f : Mint → Mint) : (s.modMnt f).goAt = s.goAt := rfl
@[simp] theorem State.modMnt_goDone (s : State) (f : Mint → Mint) : (s.modMnt f).goDone = s.goDone := rfl
@[simp] theorem State.modMnt_hst (s : State) (f : Mint → Mint) : (s.modMnt f).hst = s.hst := rfl
@[simp] theorem State.modMnt_cnt (s : State) (f : Mint → Mint) : (s.modMnt f).cnt = s.cnt := rfl
@[simp] theorem State.modMnt_pinActs (s : State) (f : Mint → Mint) : (s.modMnt f).pinActs = s.pinActs := rfl
@[simp] theorem State.modMnt_goNow (s : State) (f : Mint → Mint) : (s.modMnt f).goNow = s.goNow := rfl
@[simp] theorem State.modMnt_haltNow (s : State) (f : Mint → Mint) : (s.modMnt f).haltNow = s.haltNow := rfl
@[simp] theorem State.modMnt_fct (s : State) (f : Mint → Mint) : (s.modMnt f).fct = s.fct := rfl
@[simp] theorem State.modMnt_safeN (s : State) (f : Mint → Mint) : (s.modMnt f).safeN = s.safeN := rfl
@[simp] theorem State.modMnt_whl (s : State) (f : Mint → Mint) : (s.modMnt f).whl = s.whl := rfl
@[simp] theorem State.modMnt_bzl (s : State) (f : Mint → Mint) : (s.modMnt f).bzl = s.bzl := rfl
@[simp] theorem State.modMnt_tlr (s : State) (f : Mint → Mint) : (s.modMnt f).tlr = s.tlr := rfl
@[simp] theorem State.modMnt_vlt (s : State) (f : Mint → Mint) : (s.modMnt f).vlt = s.vlt := rfl
@[simp] theorem State.modMnt_mnt (s : State) (f : Mint → Mint) : (s.modMnt f).mnt = f s.mnt := rfl
@[simp] theorem State.modMnt_adc (s : State) (f : Mint → Mint) : (s.modMnt f).adc = s.adc := rfl
@[simp] theorem State.modMnt_dma (s : State) (f : Mint → Mint) : (s.modMnt f).dma = s.dma := rfl
@[simp] theorem State.modMnt_dbk (s : State) (f : Mint → Mint) : (s.modMnt f).dbk = s.dbk := rfl
@[simp] theorem State.modMnt_eth (s : State) (f : Mint → Mint) : (s.modMnt f).eth = s.eth := rfl
@[simp] theorem State.modMnt_asy (s : State) (f : Mint → Mint) : (s.modMnt f).asy = s.asy := rfl
@[simp] theorem State.modMnt_slo (s : State) (f : Mint → Mint) : (s.modMnt f).slo = s.slo := rfl
@[simp] theorem State.modMnt_ic (s : State) (f : Mint → Mint) : (s.modMnt f).ic = s.ic := rfl
@[simp] theorem State.modMnt_host (s : State) (f : Mint → Mint) : (s.modMnt f).host = s.host := rfl
@[simp] theorem State.modMnt_health (s : State) (f : Mint → Mint) : (s.modMnt f).health = s.health := rfl
@[simp] theorem State.modMnt_wakePin (s : State) (f : Mint → Mint) : (s.modMnt f).wakePin = s.wakePin := rfl
@[simp] theorem State.modMnt_resetLow (s : State) (f : Mint → Mint) : (s.modMnt f).resetLow = s.resetLow := rfl
@[simp] theorem State.modMnt_retained (s : State) (f : Mint → Mint) : (s.modMnt f).retained = s.retained := rfl
@[simp] theorem State.modMnt_pulses (s : State) (f : Mint → Mint) : (s.modMnt f).pulses = s.pulses := rfl
@[simp] theorem State.modMnt_out (s : State) (f : Mint → Mint) : (s.modMnt f).out = s.out := rfl
@[simp] theorem State.modMnt_read (s : State) (f : Mint → Mint) : (s.modMnt f).read = s.read := rfl
@[simp] theorem State.modMnt_latch (s : State) (f : Mint → Mint) : (s.modMnt f).latch = s.latch := rfl
@[simp] theorem State.modMnt_setNow (s : State) (f : Mint → Mint) : (s.modMnt f).setNow = s.setNow := rfl
@[simp] theorem State.modMnt_asyEdges (s : State) (f : Mint → Mint) : (s.modMnt f).asyEdges = s.asyEdges := rfl
@[simp] theorem State.modMnt_free (s : State) (f : Mint → Mint) : (s.modMnt f).free = s.free := rfl
@[simp] theorem State.modMnt_inflight (s : State) (f : Mint → Mint) : (s.modMnt f).inflight = s.inflight := rfl
@[simp] theorem State.modMnt_pending (s : State) (f : Mint → Mint) : (s.modMnt f).pending = s.pending := rfl
@[simp] theorem State.modMnt_rd (s : State) (f : Mint → Mint) (a : Nat) : (s.modMnt f).rd a = s.rd a := rfl
@[simp] theorem State.modMnt_rd64 (s : State) (f : Mint → Mint) (a : Nat) : (s.modMnt f).rd64 a = s.rd64 a := rfl
@[simp] theorem State.modMnt_get (s : State) (f : Mint → Mint) (g : Fld) : (s.modMnt f).get g = s.get g := rfl
@[simp] theorem State.modMnt_flag (s : State) (f : Mint → Mint) (g : Fld) : (s.modMnt f).flag g = s.flag g := rfl
@[simp] theorem State.modMnt_now (s : State) (f : Mint → Mint) : (s.modMnt f).now = s.now := rfl
@[simp] theorem State.modMnt_tally (s : State) (f : Mint → Mint) : (s.modMnt f).tally = s.tally := rfl
@[simp] theorem State.modMnt_nextNow (s : State) (f : Mint → Mint) : (s.modMnt f).nextNow = s.nextNow := rfl
@[simp] theorem State.modMnt_engCycle (s : State) (f : Mint → Mint) : (s.modMnt f).engCycle = s.engCycle := rfl
@[simp] theorem State.modAdc_regs (s : State) (f : Adc → Adc) : (s.modAdc f).regs = s.regs := rfl
@[simp] theorem State.modAdc_tb (s : State) (f : Adc → Adc) : (s.modAdc f).tb = s.tb := rfl
@[simp] theorem State.modAdc_goAt (s : State) (f : Adc → Adc) : (s.modAdc f).goAt = s.goAt := rfl
@[simp] theorem State.modAdc_goDone (s : State) (f : Adc → Adc) : (s.modAdc f).goDone = s.goDone := rfl
@[simp] theorem State.modAdc_hst (s : State) (f : Adc → Adc) : (s.modAdc f).hst = s.hst := rfl
@[simp] theorem State.modAdc_cnt (s : State) (f : Adc → Adc) : (s.modAdc f).cnt = s.cnt := rfl
@[simp] theorem State.modAdc_pinActs (s : State) (f : Adc → Adc) : (s.modAdc f).pinActs = s.pinActs := rfl
@[simp] theorem State.modAdc_goNow (s : State) (f : Adc → Adc) : (s.modAdc f).goNow = s.goNow := rfl
@[simp] theorem State.modAdc_haltNow (s : State) (f : Adc → Adc) : (s.modAdc f).haltNow = s.haltNow := rfl
@[simp] theorem State.modAdc_fct (s : State) (f : Adc → Adc) : (s.modAdc f).fct = s.fct := rfl
@[simp] theorem State.modAdc_safeN (s : State) (f : Adc → Adc) : (s.modAdc f).safeN = s.safeN := rfl
@[simp] theorem State.modAdc_whl (s : State) (f : Adc → Adc) : (s.modAdc f).whl = s.whl := rfl
@[simp] theorem State.modAdc_bzl (s : State) (f : Adc → Adc) : (s.modAdc f).bzl = s.bzl := rfl
@[simp] theorem State.modAdc_tlr (s : State) (f : Adc → Adc) : (s.modAdc f).tlr = s.tlr := rfl
@[simp] theorem State.modAdc_vlt (s : State) (f : Adc → Adc) : (s.modAdc f).vlt = s.vlt := rfl
@[simp] theorem State.modAdc_mnt (s : State) (f : Adc → Adc) : (s.modAdc f).mnt = s.mnt := rfl
@[simp] theorem State.modAdc_adc (s : State) (f : Adc → Adc) : (s.modAdc f).adc = f s.adc := rfl
@[simp] theorem State.modAdc_dma (s : State) (f : Adc → Adc) : (s.modAdc f).dma = s.dma := rfl
@[simp] theorem State.modAdc_dbk (s : State) (f : Adc → Adc) : (s.modAdc f).dbk = s.dbk := rfl
@[simp] theorem State.modAdc_eth (s : State) (f : Adc → Adc) : (s.modAdc f).eth = s.eth := rfl
@[simp] theorem State.modAdc_asy (s : State) (f : Adc → Adc) : (s.modAdc f).asy = s.asy := rfl
@[simp] theorem State.modAdc_slo (s : State) (f : Adc → Adc) : (s.modAdc f).slo = s.slo := rfl
@[simp] theorem State.modAdc_ic (s : State) (f : Adc → Adc) : (s.modAdc f).ic = s.ic := rfl
@[simp] theorem State.modAdc_host (s : State) (f : Adc → Adc) : (s.modAdc f).host = s.host := rfl
@[simp] theorem State.modAdc_health (s : State) (f : Adc → Adc) : (s.modAdc f).health = s.health := rfl
@[simp] theorem State.modAdc_wakePin (s : State) (f : Adc → Adc) : (s.modAdc f).wakePin = s.wakePin := rfl
@[simp] theorem State.modAdc_resetLow (s : State) (f : Adc → Adc) : (s.modAdc f).resetLow = s.resetLow := rfl
@[simp] theorem State.modAdc_retained (s : State) (f : Adc → Adc) : (s.modAdc f).retained = s.retained := rfl
@[simp] theorem State.modAdc_pulses (s : State) (f : Adc → Adc) : (s.modAdc f).pulses = s.pulses := rfl
@[simp] theorem State.modAdc_out (s : State) (f : Adc → Adc) : (s.modAdc f).out = s.out := rfl
@[simp] theorem State.modAdc_read (s : State) (f : Adc → Adc) : (s.modAdc f).read = s.read := rfl
@[simp] theorem State.modAdc_latch (s : State) (f : Adc → Adc) : (s.modAdc f).latch = s.latch := rfl
@[simp] theorem State.modAdc_setNow (s : State) (f : Adc → Adc) : (s.modAdc f).setNow = s.setNow := rfl
@[simp] theorem State.modAdc_asyEdges (s : State) (f : Adc → Adc) : (s.modAdc f).asyEdges = s.asyEdges := rfl
@[simp] theorem State.modAdc_free (s : State) (f : Adc → Adc) : (s.modAdc f).free = s.free := rfl
@[simp] theorem State.modAdc_inflight (s : State) (f : Adc → Adc) : (s.modAdc f).inflight = s.inflight := rfl
@[simp] theorem State.modAdc_pending (s : State) (f : Adc → Adc) : (s.modAdc f).pending = s.pending := rfl
@[simp] theorem State.modAdc_rd (s : State) (f : Adc → Adc) (a : Nat) : (s.modAdc f).rd a = s.rd a := rfl
@[simp] theorem State.modAdc_rd64 (s : State) (f : Adc → Adc) (a : Nat) : (s.modAdc f).rd64 a = s.rd64 a := rfl
@[simp] theorem State.modAdc_get (s : State) (f : Adc → Adc) (g : Fld) : (s.modAdc f).get g = s.get g := rfl
@[simp] theorem State.modAdc_flag (s : State) (f : Adc → Adc) (g : Fld) : (s.modAdc f).flag g = s.flag g := rfl
@[simp] theorem State.modAdc_now (s : State) (f : Adc → Adc) : (s.modAdc f).now = s.now := rfl
@[simp] theorem State.modAdc_tally (s : State) (f : Adc → Adc) : (s.modAdc f).tally = s.tally := rfl
@[simp] theorem State.modAdc_nextNow (s : State) (f : Adc → Adc) : (s.modAdc f).nextNow = s.nextNow := rfl
@[simp] theorem State.modAdc_engCycle (s : State) (f : Adc → Adc) : (s.modAdc f).engCycle = s.engCycle := rfl
@[simp] theorem State.modDma_regs (s : State) (f : Dma → Dma) : (s.modDma f).regs = s.regs := rfl
@[simp] theorem State.modDma_tb (s : State) (f : Dma → Dma) : (s.modDma f).tb = s.tb := rfl
@[simp] theorem State.modDma_goAt (s : State) (f : Dma → Dma) : (s.modDma f).goAt = s.goAt := rfl
@[simp] theorem State.modDma_goDone (s : State) (f : Dma → Dma) : (s.modDma f).goDone = s.goDone := rfl
@[simp] theorem State.modDma_hst (s : State) (f : Dma → Dma) : (s.modDma f).hst = s.hst := rfl
@[simp] theorem State.modDma_cnt (s : State) (f : Dma → Dma) : (s.modDma f).cnt = s.cnt := rfl
@[simp] theorem State.modDma_pinActs (s : State) (f : Dma → Dma) : (s.modDma f).pinActs = s.pinActs := rfl
@[simp] theorem State.modDma_goNow (s : State) (f : Dma → Dma) : (s.modDma f).goNow = s.goNow := rfl
@[simp] theorem State.modDma_haltNow (s : State) (f : Dma → Dma) : (s.modDma f).haltNow = s.haltNow := rfl
@[simp] theorem State.modDma_fct (s : State) (f : Dma → Dma) : (s.modDma f).fct = s.fct := rfl
@[simp] theorem State.modDma_safeN (s : State) (f : Dma → Dma) : (s.modDma f).safeN = s.safeN := rfl
@[simp] theorem State.modDma_whl (s : State) (f : Dma → Dma) : (s.modDma f).whl = s.whl := rfl
@[simp] theorem State.modDma_bzl (s : State) (f : Dma → Dma) : (s.modDma f).bzl = s.bzl := rfl
@[simp] theorem State.modDma_tlr (s : State) (f : Dma → Dma) : (s.modDma f).tlr = s.tlr := rfl
@[simp] theorem State.modDma_vlt (s : State) (f : Dma → Dma) : (s.modDma f).vlt = s.vlt := rfl
@[simp] theorem State.modDma_mnt (s : State) (f : Dma → Dma) : (s.modDma f).mnt = s.mnt := rfl
@[simp] theorem State.modDma_adc (s : State) (f : Dma → Dma) : (s.modDma f).adc = s.adc := rfl
@[simp] theorem State.modDma_dma (s : State) (f : Dma → Dma) : (s.modDma f).dma = f s.dma := rfl
@[simp] theorem State.modDma_dbk (s : State) (f : Dma → Dma) : (s.modDma f).dbk = s.dbk := rfl
@[simp] theorem State.modDma_eth (s : State) (f : Dma → Dma) : (s.modDma f).eth = s.eth := rfl
@[simp] theorem State.modDma_asy (s : State) (f : Dma → Dma) : (s.modDma f).asy = s.asy := rfl
@[simp] theorem State.modDma_slo (s : State) (f : Dma → Dma) : (s.modDma f).slo = s.slo := rfl
@[simp] theorem State.modDma_ic (s : State) (f : Dma → Dma) : (s.modDma f).ic = s.ic := rfl
@[simp] theorem State.modDma_host (s : State) (f : Dma → Dma) : (s.modDma f).host = s.host := rfl
@[simp] theorem State.modDma_health (s : State) (f : Dma → Dma) : (s.modDma f).health = s.health := rfl
@[simp] theorem State.modDma_wakePin (s : State) (f : Dma → Dma) : (s.modDma f).wakePin = s.wakePin := rfl
@[simp] theorem State.modDma_resetLow (s : State) (f : Dma → Dma) : (s.modDma f).resetLow = s.resetLow := rfl
@[simp] theorem State.modDma_retained (s : State) (f : Dma → Dma) : (s.modDma f).retained = s.retained := rfl
@[simp] theorem State.modDma_pulses (s : State) (f : Dma → Dma) : (s.modDma f).pulses = s.pulses := rfl
@[simp] theorem State.modDma_out (s : State) (f : Dma → Dma) : (s.modDma f).out = s.out := rfl
@[simp] theorem State.modDma_read (s : State) (f : Dma → Dma) : (s.modDma f).read = s.read := rfl
@[simp] theorem State.modDma_latch (s : State) (f : Dma → Dma) : (s.modDma f).latch = s.latch := rfl
@[simp] theorem State.modDma_setNow (s : State) (f : Dma → Dma) : (s.modDma f).setNow = s.setNow := rfl
@[simp] theorem State.modDma_asyEdges (s : State) (f : Dma → Dma) : (s.modDma f).asyEdges = s.asyEdges := rfl
@[simp] theorem State.modDma_free (s : State) (f : Dma → Dma) : (s.modDma f).free = s.free := rfl
@[simp] theorem State.modDma_inflight (s : State) (f : Dma → Dma) : (s.modDma f).inflight = s.inflight := rfl
@[simp] theorem State.modDma_pending (s : State) (f : Dma → Dma) : (s.modDma f).pending = s.pending := rfl
@[simp] theorem State.modDma_rd (s : State) (f : Dma → Dma) (a : Nat) : (s.modDma f).rd a = s.rd a := rfl
@[simp] theorem State.modDma_rd64 (s : State) (f : Dma → Dma) (a : Nat) : (s.modDma f).rd64 a = s.rd64 a := rfl
@[simp] theorem State.modDma_get (s : State) (f : Dma → Dma) (g : Fld) : (s.modDma f).get g = s.get g := rfl
@[simp] theorem State.modDma_flag (s : State) (f : Dma → Dma) (g : Fld) : (s.modDma f).flag g = s.flag g := rfl
@[simp] theorem State.modDma_now (s : State) (f : Dma → Dma) : (s.modDma f).now = s.now := rfl
@[simp] theorem State.modDma_tally (s : State) (f : Dma → Dma) : (s.modDma f).tally = s.tally := rfl
@[simp] theorem State.modDma_nextNow (s : State) (f : Dma → Dma) : (s.modDma f).nextNow = s.nextNow := rfl
@[simp] theorem State.modDma_engCycle (s : State) (f : Dma → Dma) : (s.modDma f).engCycle = s.engCycle := rfl
@[simp] theorem State.modChan_regs (s : State) (n : Fin 32) (f : DmaChan → DmaChan) : (s.modChan n f).regs = s.regs := rfl
@[simp] theorem State.modChan_tb (s : State) (n : Fin 32) (f : DmaChan → DmaChan) : (s.modChan n f).tb = s.tb := rfl
@[simp] theorem State.modChan_goAt (s : State) (n : Fin 32) (f : DmaChan → DmaChan) : (s.modChan n f).goAt = s.goAt := rfl
@[simp] theorem State.modChan_goDone (s : State) (n : Fin 32) (f : DmaChan → DmaChan) : (s.modChan n f).goDone = s.goDone := rfl
@[simp] theorem State.modChan_hst (s : State) (n : Fin 32) (f : DmaChan → DmaChan) : (s.modChan n f).hst = s.hst := rfl
@[simp] theorem State.modChan_cnt (s : State) (n : Fin 32) (f : DmaChan → DmaChan) : (s.modChan n f).cnt = s.cnt := rfl
@[simp] theorem State.modChan_pinActs (s : State) (n : Fin 32) (f : DmaChan → DmaChan) : (s.modChan n f).pinActs = s.pinActs := rfl
@[simp] theorem State.modChan_goNow (s : State) (n : Fin 32) (f : DmaChan → DmaChan) : (s.modChan n f).goNow = s.goNow := rfl
@[simp] theorem State.modChan_haltNow (s : State) (n : Fin 32) (f : DmaChan → DmaChan) : (s.modChan n f).haltNow = s.haltNow := rfl
@[simp] theorem State.modChan_fct (s : State) (n : Fin 32) (f : DmaChan → DmaChan) : (s.modChan n f).fct = s.fct := rfl
@[simp] theorem State.modChan_safeN (s : State) (n : Fin 32) (f : DmaChan → DmaChan) : (s.modChan n f).safeN = s.safeN := rfl
@[simp] theorem State.modChan_whl (s : State) (n : Fin 32) (f : DmaChan → DmaChan) : (s.modChan n f).whl = s.whl := rfl
@[simp] theorem State.modChan_bzl (s : State) (n : Fin 32) (f : DmaChan → DmaChan) : (s.modChan n f).bzl = s.bzl := rfl
@[simp] theorem State.modChan_tlr (s : State) (n : Fin 32) (f : DmaChan → DmaChan) : (s.modChan n f).tlr = s.tlr := rfl
@[simp] theorem State.modChan_vlt (s : State) (n : Fin 32) (f : DmaChan → DmaChan) : (s.modChan n f).vlt = s.vlt := rfl
@[simp] theorem State.modChan_mnt (s : State) (n : Fin 32) (f : DmaChan → DmaChan) : (s.modChan n f).mnt = s.mnt := rfl
@[simp] theorem State.modChan_adc (s : State) (n : Fin 32) (f : DmaChan → DmaChan) : (s.modChan n f).adc = s.adc := rfl
@[simp] theorem State.modChan_dma (s : State) (n : Fin 32) (f : DmaChan → DmaChan) : (s.modChan n f).dma = { s.dma with chan := vmod s.dma.chan n f } := rfl
@[simp] theorem State.modChan_dbk (s : State) (n : Fin 32) (f : DmaChan → DmaChan) : (s.modChan n f).dbk = s.dbk := rfl
@[simp] theorem State.modChan_eth (s : State) (n : Fin 32) (f : DmaChan → DmaChan) : (s.modChan n f).eth = s.eth := rfl
@[simp] theorem State.modChan_asy (s : State) (n : Fin 32) (f : DmaChan → DmaChan) : (s.modChan n f).asy = s.asy := rfl
@[simp] theorem State.modChan_slo (s : State) (n : Fin 32) (f : DmaChan → DmaChan) : (s.modChan n f).slo = s.slo := rfl
@[simp] theorem State.modChan_ic (s : State) (n : Fin 32) (f : DmaChan → DmaChan) : (s.modChan n f).ic = s.ic := rfl
@[simp] theorem State.modChan_host (s : State) (n : Fin 32) (f : DmaChan → DmaChan) : (s.modChan n f).host = s.host := rfl
@[simp] theorem State.modChan_health (s : State) (n : Fin 32) (f : DmaChan → DmaChan) : (s.modChan n f).health = s.health := rfl
@[simp] theorem State.modChan_wakePin (s : State) (n : Fin 32) (f : DmaChan → DmaChan) : (s.modChan n f).wakePin = s.wakePin := rfl
@[simp] theorem State.modChan_resetLow (s : State) (n : Fin 32) (f : DmaChan → DmaChan) : (s.modChan n f).resetLow = s.resetLow := rfl
@[simp] theorem State.modChan_retained (s : State) (n : Fin 32) (f : DmaChan → DmaChan) : (s.modChan n f).retained = s.retained := rfl
@[simp] theorem State.modChan_pulses (s : State) (n : Fin 32) (f : DmaChan → DmaChan) : (s.modChan n f).pulses = s.pulses := rfl
@[simp] theorem State.modChan_out (s : State) (n : Fin 32) (f : DmaChan → DmaChan) : (s.modChan n f).out = s.out := rfl
@[simp] theorem State.modChan_read (s : State) (n : Fin 32) (f : DmaChan → DmaChan) : (s.modChan n f).read = s.read := rfl
@[simp] theorem State.modChan_latch (s : State) (n : Fin 32) (f : DmaChan → DmaChan) : (s.modChan n f).latch = s.latch := rfl
@[simp] theorem State.modChan_setNow (s : State) (n : Fin 32) (f : DmaChan → DmaChan) : (s.modChan n f).setNow = s.setNow := rfl
@[simp] theorem State.modChan_asyEdges (s : State) (n : Fin 32) (f : DmaChan → DmaChan) : (s.modChan n f).asyEdges = s.asyEdges := rfl
@[simp] theorem State.modChan_free (s : State) (n : Fin 32) (f : DmaChan → DmaChan) : (s.modChan n f).free = s.free := rfl
@[simp] theorem State.modChan_inflight (s : State) (n : Fin 32) (f : DmaChan → DmaChan) : (s.modChan n f).inflight = s.inflight := rfl
@[simp] theorem State.modChan_pending (s : State) (n : Fin 32) (f : DmaChan → DmaChan) : (s.modChan n f).pending = s.pending := rfl
@[simp] theorem State.modChan_rd (s : State) (n : Fin 32) (f : DmaChan → DmaChan) (a : Nat) : (s.modChan n f).rd a = s.rd a := rfl
@[simp] theorem State.modChan_rd64 (s : State) (n : Fin 32) (f : DmaChan → DmaChan) (a : Nat) : (s.modChan n f).rd64 a = s.rd64 a := rfl
@[simp] theorem State.modChan_get (s : State) (n : Fin 32) (f : DmaChan → DmaChan) (g : Fld) : (s.modChan n f).get g = s.get g := rfl
@[simp] theorem State.modChan_flag (s : State) (n : Fin 32) (f : DmaChan → DmaChan) (g : Fld) : (s.modChan n f).flag g = s.flag g := rfl
@[simp] theorem State.modChan_now (s : State) (n : Fin 32) (f : DmaChan → DmaChan) : (s.modChan n f).now = s.now := rfl
@[simp] theorem State.modChan_tally (s : State) (n : Fin 32) (f : DmaChan → DmaChan) : (s.modChan n f).tally = s.tally := rfl
@[simp] theorem State.modChan_nextNow (s : State) (n : Fin 32) (f : DmaChan → DmaChan) : (s.modChan n f).nextNow = s.nextNow := rfl
@[simp] theorem State.modChan_engCycle (s : State) (n : Fin 32) (f : DmaChan → DmaChan) : (s.modChan n f).engCycle = s.engCycle := rfl
@[simp] theorem State.modDbk_regs (s : State) (f : Daybook → Daybook) : (s.modDbk f).regs = s.regs := rfl
@[simp] theorem State.modDbk_tb (s : State) (f : Daybook → Daybook) : (s.modDbk f).tb = s.tb := rfl
@[simp] theorem State.modDbk_goAt (s : State) (f : Daybook → Daybook) : (s.modDbk f).goAt = s.goAt := rfl
@[simp] theorem State.modDbk_goDone (s : State) (f : Daybook → Daybook) : (s.modDbk f).goDone = s.goDone := rfl
@[simp] theorem State.modDbk_hst (s : State) (f : Daybook → Daybook) : (s.modDbk f).hst = s.hst := rfl
@[simp] theorem State.modDbk_cnt (s : State) (f : Daybook → Daybook) : (s.modDbk f).cnt = s.cnt := rfl
@[simp] theorem State.modDbk_pinActs (s : State) (f : Daybook → Daybook) : (s.modDbk f).pinActs = s.pinActs := rfl
@[simp] theorem State.modDbk_goNow (s : State) (f : Daybook → Daybook) : (s.modDbk f).goNow = s.goNow := rfl
@[simp] theorem State.modDbk_haltNow (s : State) (f : Daybook → Daybook) : (s.modDbk f).haltNow = s.haltNow := rfl
@[simp] theorem State.modDbk_fct (s : State) (f : Daybook → Daybook) : (s.modDbk f).fct = s.fct := rfl
@[simp] theorem State.modDbk_safeN (s : State) (f : Daybook → Daybook) : (s.modDbk f).safeN = s.safeN := rfl
@[simp] theorem State.modDbk_whl (s : State) (f : Daybook → Daybook) : (s.modDbk f).whl = s.whl := rfl
@[simp] theorem State.modDbk_bzl (s : State) (f : Daybook → Daybook) : (s.modDbk f).bzl = s.bzl := rfl
@[simp] theorem State.modDbk_tlr (s : State) (f : Daybook → Daybook) : (s.modDbk f).tlr = s.tlr := rfl
@[simp] theorem State.modDbk_vlt (s : State) (f : Daybook → Daybook) : (s.modDbk f).vlt = s.vlt := rfl
@[simp] theorem State.modDbk_mnt (s : State) (f : Daybook → Daybook) : (s.modDbk f).mnt = s.mnt := rfl
@[simp] theorem State.modDbk_adc (s : State) (f : Daybook → Daybook) : (s.modDbk f).adc = s.adc := rfl
@[simp] theorem State.modDbk_dma (s : State) (f : Daybook → Daybook) : (s.modDbk f).dma = s.dma := rfl
@[simp] theorem State.modDbk_dbk (s : State) (f : Daybook → Daybook) : (s.modDbk f).dbk = f s.dbk := rfl
@[simp] theorem State.modDbk_eth (s : State) (f : Daybook → Daybook) : (s.modDbk f).eth = s.eth := rfl
@[simp] theorem State.modDbk_asy (s : State) (f : Daybook → Daybook) : (s.modDbk f).asy = s.asy := rfl
@[simp] theorem State.modDbk_slo (s : State) (f : Daybook → Daybook) : (s.modDbk f).slo = s.slo := rfl
@[simp] theorem State.modDbk_ic (s : State) (f : Daybook → Daybook) : (s.modDbk f).ic = s.ic := rfl
@[simp] theorem State.modDbk_host (s : State) (f : Daybook → Daybook) : (s.modDbk f).host = s.host := rfl
@[simp] theorem State.modDbk_health (s : State) (f : Daybook → Daybook) : (s.modDbk f).health = s.health := rfl
@[simp] theorem State.modDbk_wakePin (s : State) (f : Daybook → Daybook) : (s.modDbk f).wakePin = s.wakePin := rfl
@[simp] theorem State.modDbk_resetLow (s : State) (f : Daybook → Daybook) : (s.modDbk f).resetLow = s.resetLow := rfl
@[simp] theorem State.modDbk_retained (s : State) (f : Daybook → Daybook) : (s.modDbk f).retained = s.retained := rfl
@[simp] theorem State.modDbk_pulses (s : State) (f : Daybook → Daybook) : (s.modDbk f).pulses = s.pulses := rfl
@[simp] theorem State.modDbk_out (s : State) (f : Daybook → Daybook) : (s.modDbk f).out = s.out := rfl
@[simp] theorem State.modDbk_read (s : State) (f : Daybook → Daybook) : (s.modDbk f).read = s.read := rfl
@[simp] theorem State.modDbk_latch (s : State) (f : Daybook → Daybook) : (s.modDbk f).latch = s.latch := rfl
@[simp] theorem State.modDbk_setNow (s : State) (f : Daybook → Daybook) : (s.modDbk f).setNow = s.setNow := rfl
@[simp] theorem State.modDbk_asyEdges (s : State) (f : Daybook → Daybook) : (s.modDbk f).asyEdges = s.asyEdges := rfl
@[simp] theorem State.modDbk_free (s : State) (f : Daybook → Daybook) : (s.modDbk f).free = s.free := rfl
@[simp] theorem State.modDbk_inflight (s : State) (f : Daybook → Daybook) : (s.modDbk f).inflight = s.inflight := rfl
@[simp] theorem State.modDbk_pending (s : State) (f : Daybook → Daybook) : (s.modDbk f).pending = s.pending := rfl
@[simp] theorem State.modDbk_rd (s : State) (f : Daybook → Daybook) (a : Nat) : (s.modDbk f).rd a = s.rd a := rfl
@[simp] theorem State.modDbk_rd64 (s : State) (f : Daybook → Daybook) (a : Nat) : (s.modDbk f).rd64 a = s.rd64 a := rfl
@[simp] theorem State.modDbk_get (s : State) (f : Daybook → Daybook) (g : Fld) : (s.modDbk f).get g = s.get g := rfl
@[simp] theorem State.modDbk_flag (s : State) (f : Daybook → Daybook) (g : Fld) : (s.modDbk f).flag g = s.flag g := rfl
@[simp] theorem State.modDbk_now (s : State) (f : Daybook → Daybook) : (s.modDbk f).now = s.now := rfl
@[simp] theorem State.modDbk_tally (s : State) (f : Daybook → Daybook) : (s.modDbk f).tally = s.tally := rfl
@[simp] theorem State.modDbk_nextNow (s : State) (f : Daybook → Daybook) : (s.modDbk f).nextNow = s.nextNow := rfl
@[simp] theorem State.modDbk_engCycle (s : State) (f : Daybook → Daybook) : (s.modDbk f).engCycle = s.engCycle := rfl
@[simp] theorem State.modAsy_regs (s : State) (f : Asy → Asy) : (s.modAsy f).regs = s.regs := rfl
@[simp] theorem State.modAsy_tb (s : State) (f : Asy → Asy) : (s.modAsy f).tb = s.tb := rfl
@[simp] theorem State.modAsy_goAt (s : State) (f : Asy → Asy) : (s.modAsy f).goAt = s.goAt := rfl
@[simp] theorem State.modAsy_goDone (s : State) (f : Asy → Asy) : (s.modAsy f).goDone = s.goDone := rfl
@[simp] theorem State.modAsy_hst (s : State) (f : Asy → Asy) : (s.modAsy f).hst = s.hst := rfl
@[simp] theorem State.modAsy_cnt (s : State) (f : Asy → Asy) : (s.modAsy f).cnt = s.cnt := rfl
@[simp] theorem State.modAsy_pinActs (s : State) (f : Asy → Asy) : (s.modAsy f).pinActs = s.pinActs := rfl
@[simp] theorem State.modAsy_goNow (s : State) (f : Asy → Asy) : (s.modAsy f).goNow = s.goNow := rfl
@[simp] theorem State.modAsy_haltNow (s : State) (f : Asy → Asy) : (s.modAsy f).haltNow = s.haltNow := rfl
@[simp] theorem State.modAsy_fct (s : State) (f : Asy → Asy) : (s.modAsy f).fct = s.fct := rfl
@[simp] theorem State.modAsy_safeN (s : State) (f : Asy → Asy) : (s.modAsy f).safeN = s.safeN := rfl
@[simp] theorem State.modAsy_whl (s : State) (f : Asy → Asy) : (s.modAsy f).whl = s.whl := rfl
@[simp] theorem State.modAsy_bzl (s : State) (f : Asy → Asy) : (s.modAsy f).bzl = s.bzl := rfl
@[simp] theorem State.modAsy_tlr (s : State) (f : Asy → Asy) : (s.modAsy f).tlr = s.tlr := rfl
@[simp] theorem State.modAsy_vlt (s : State) (f : Asy → Asy) : (s.modAsy f).vlt = s.vlt := rfl
@[simp] theorem State.modAsy_mnt (s : State) (f : Asy → Asy) : (s.modAsy f).mnt = s.mnt := rfl
@[simp] theorem State.modAsy_adc (s : State) (f : Asy → Asy) : (s.modAsy f).adc = s.adc := rfl
@[simp] theorem State.modAsy_dma (s : State) (f : Asy → Asy) : (s.modAsy f).dma = s.dma := rfl
@[simp] theorem State.modAsy_dbk (s : State) (f : Asy → Asy) : (s.modAsy f).dbk = s.dbk := rfl
@[simp] theorem State.modAsy_eth (s : State) (f : Asy → Asy) : (s.modAsy f).eth = s.eth := rfl
@[simp] theorem State.modAsy_asy (s : State) (f : Asy → Asy) : (s.modAsy f).asy = f s.asy := rfl
@[simp] theorem State.modAsy_slo (s : State) (f : Asy → Asy) : (s.modAsy f).slo = s.slo := rfl
@[simp] theorem State.modAsy_ic (s : State) (f : Asy → Asy) : (s.modAsy f).ic = s.ic := rfl
@[simp] theorem State.modAsy_host (s : State) (f : Asy → Asy) : (s.modAsy f).host = s.host := rfl
@[simp] theorem State.modAsy_health (s : State) (f : Asy → Asy) : (s.modAsy f).health = s.health := rfl
@[simp] theorem State.modAsy_wakePin (s : State) (f : Asy → Asy) : (s.modAsy f).wakePin = s.wakePin := rfl
@[simp] theorem State.modAsy_resetLow (s : State) (f : Asy → Asy) : (s.modAsy f).resetLow = s.resetLow := rfl
@[simp] theorem State.modAsy_retained (s : State) (f : Asy → Asy) : (s.modAsy f).retained = s.retained := rfl
@[simp] theorem State.modAsy_pulses (s : State) (f : Asy → Asy) : (s.modAsy f).pulses = s.pulses := rfl
@[simp] theorem State.modAsy_out (s : State) (f : Asy → Asy) : (s.modAsy f).out = s.out := rfl
@[simp] theorem State.modAsy_read (s : State) (f : Asy → Asy) : (s.modAsy f).read = s.read := rfl
@[simp] theorem State.modAsy_latch (s : State) (f : Asy → Asy) : (s.modAsy f).latch = s.latch := rfl
@[simp] theorem State.modAsy_setNow (s : State) (f : Asy → Asy) : (s.modAsy f).setNow = s.setNow := rfl
@[simp] theorem State.modAsy_asyEdges (s : State) (f : Asy → Asy) : (s.modAsy f).asyEdges = s.asyEdges := rfl
@[simp] theorem State.modAsy_free (s : State) (f : Asy → Asy) : (s.modAsy f).free = s.free := rfl
@[simp] theorem State.modAsy_inflight (s : State) (f : Asy → Asy) : (s.modAsy f).inflight = s.inflight := rfl
@[simp] theorem State.modAsy_pending (s : State) (f : Asy → Asy) : (s.modAsy f).pending = s.pending := rfl
@[simp] theorem State.modAsy_rd (s : State) (f : Asy → Asy) (a : Nat) : (s.modAsy f).rd a = s.rd a := rfl
@[simp] theorem State.modAsy_rd64 (s : State) (f : Asy → Asy) (a : Nat) : (s.modAsy f).rd64 a = s.rd64 a := rfl
@[simp] theorem State.modAsy_get (s : State) (f : Asy → Asy) (g : Fld) : (s.modAsy f).get g = s.get g := rfl
@[simp] theorem State.modAsy_flag (s : State) (f : Asy → Asy) (g : Fld) : (s.modAsy f).flag g = s.flag g := rfl
@[simp] theorem State.modAsy_now (s : State) (f : Asy → Asy) : (s.modAsy f).now = s.now := rfl
@[simp] theorem State.modAsy_tally (s : State) (f : Asy → Asy) : (s.modAsy f).tally = s.tally := rfl
@[simp] theorem State.modAsy_nextNow (s : State) (f : Asy → Asy) : (s.modAsy f).nextNow = s.nextNow := rfl
@[simp] theorem State.modAsy_engCycle (s : State) (f : Asy → Asy) : (s.modAsy f).engCycle = s.engCycle := rfl
@[simp] theorem State.modSlo_regs (s : State) (f : Sloulo → Sloulo) : (s.modSlo f).regs = s.regs := rfl
@[simp] theorem State.modSlo_tb (s : State) (f : Sloulo → Sloulo) : (s.modSlo f).tb = s.tb := rfl
@[simp] theorem State.modSlo_goAt (s : State) (f : Sloulo → Sloulo) : (s.modSlo f).goAt = s.goAt := rfl
@[simp] theorem State.modSlo_goDone (s : State) (f : Sloulo → Sloulo) : (s.modSlo f).goDone = s.goDone := rfl
@[simp] theorem State.modSlo_hst (s : State) (f : Sloulo → Sloulo) : (s.modSlo f).hst = s.hst := rfl
@[simp] theorem State.modSlo_cnt (s : State) (f : Sloulo → Sloulo) : (s.modSlo f).cnt = s.cnt := rfl
@[simp] theorem State.modSlo_pinActs (s : State) (f : Sloulo → Sloulo) : (s.modSlo f).pinActs = s.pinActs := rfl
@[simp] theorem State.modSlo_goNow (s : State) (f : Sloulo → Sloulo) : (s.modSlo f).goNow = s.goNow := rfl
@[simp] theorem State.modSlo_haltNow (s : State) (f : Sloulo → Sloulo) : (s.modSlo f).haltNow = s.haltNow := rfl
@[simp] theorem State.modSlo_fct (s : State) (f : Sloulo → Sloulo) : (s.modSlo f).fct = s.fct := rfl
@[simp] theorem State.modSlo_safeN (s : State) (f : Sloulo → Sloulo) : (s.modSlo f).safeN = s.safeN := rfl
@[simp] theorem State.modSlo_whl (s : State) (f : Sloulo → Sloulo) : (s.modSlo f).whl = s.whl := rfl
@[simp] theorem State.modSlo_bzl (s : State) (f : Sloulo → Sloulo) : (s.modSlo f).bzl = s.bzl := rfl
@[simp] theorem State.modSlo_tlr (s : State) (f : Sloulo → Sloulo) : (s.modSlo f).tlr = s.tlr := rfl
@[simp] theorem State.modSlo_vlt (s : State) (f : Sloulo → Sloulo) : (s.modSlo f).vlt = s.vlt := rfl
@[simp] theorem State.modSlo_mnt (s : State) (f : Sloulo → Sloulo) : (s.modSlo f).mnt = s.mnt := rfl
@[simp] theorem State.modSlo_adc (s : State) (f : Sloulo → Sloulo) : (s.modSlo f).adc = s.adc := rfl
@[simp] theorem State.modSlo_dma (s : State) (f : Sloulo → Sloulo) : (s.modSlo f).dma = s.dma := rfl
@[simp] theorem State.modSlo_dbk (s : State) (f : Sloulo → Sloulo) : (s.modSlo f).dbk = s.dbk := rfl
@[simp] theorem State.modSlo_eth (s : State) (f : Sloulo → Sloulo) : (s.modSlo f).eth = s.eth := rfl
@[simp] theorem State.modSlo_asy (s : State) (f : Sloulo → Sloulo) : (s.modSlo f).asy = s.asy := rfl
@[simp] theorem State.modSlo_slo (s : State) (f : Sloulo → Sloulo) : (s.modSlo f).slo = f s.slo := rfl
@[simp] theorem State.modSlo_ic (s : State) (f : Sloulo → Sloulo) : (s.modSlo f).ic = s.ic := rfl
@[simp] theorem State.modSlo_host (s : State) (f : Sloulo → Sloulo) : (s.modSlo f).host = s.host := rfl
@[simp] theorem State.modSlo_health (s : State) (f : Sloulo → Sloulo) : (s.modSlo f).health = s.health := rfl
@[simp] theorem State.modSlo_wakePin (s : State) (f : Sloulo → Sloulo) : (s.modSlo f).wakePin = s.wakePin := rfl
@[simp] theorem State.modSlo_resetLow (s : State) (f : Sloulo → Sloulo) : (s.modSlo f).resetLow = s.resetLow := rfl
@[simp] theorem State.modSlo_retained (s : State) (f : Sloulo → Sloulo) : (s.modSlo f).retained = s.retained := rfl
@[simp] theorem State.modSlo_pulses (s : State) (f : Sloulo → Sloulo) : (s.modSlo f).pulses = s.pulses := rfl
@[simp] theorem State.modSlo_out (s : State) (f : Sloulo → Sloulo) : (s.modSlo f).out = s.out := rfl
@[simp] theorem State.modSlo_read (s : State) (f : Sloulo → Sloulo) : (s.modSlo f).read = s.read := rfl
@[simp] theorem State.modSlo_latch (s : State) (f : Sloulo → Sloulo) : (s.modSlo f).latch = s.latch := rfl
@[simp] theorem State.modSlo_setNow (s : State) (f : Sloulo → Sloulo) : (s.modSlo f).setNow = s.setNow := rfl
@[simp] theorem State.modSlo_asyEdges (s : State) (f : Sloulo → Sloulo) : (s.modSlo f).asyEdges = s.asyEdges := rfl
@[simp] theorem State.modSlo_free (s : State) (f : Sloulo → Sloulo) : (s.modSlo f).free = s.free := rfl
@[simp] theorem State.modSlo_inflight (s : State) (f : Sloulo → Sloulo) : (s.modSlo f).inflight = s.inflight := rfl
@[simp] theorem State.modSlo_pending (s : State) (f : Sloulo → Sloulo) : (s.modSlo f).pending = s.pending := rfl
@[simp] theorem State.modSlo_rd (s : State) (f : Sloulo → Sloulo) (a : Nat) : (s.modSlo f).rd a = s.rd a := rfl
@[simp] theorem State.modSlo_rd64 (s : State) (f : Sloulo → Sloulo) (a : Nat) : (s.modSlo f).rd64 a = s.rd64 a := rfl
@[simp] theorem State.modSlo_get (s : State) (f : Sloulo → Sloulo) (g : Fld) : (s.modSlo f).get g = s.get g := rfl
@[simp] theorem State.modSlo_flag (s : State) (f : Sloulo → Sloulo) (g : Fld) : (s.modSlo f).flag g = s.flag g := rfl
@[simp] theorem State.modSlo_now (s : State) (f : Sloulo → Sloulo) : (s.modSlo f).now = s.now := rfl
@[simp] theorem State.modSlo_tally (s : State) (f : Sloulo → Sloulo) : (s.modSlo f).tally = s.tally := rfl
@[simp] theorem State.modSlo_nextNow (s : State) (f : Sloulo → Sloulo) : (s.modSlo f).nextNow = s.nextNow := rfl
@[simp] theorem State.modSlo_engCycle (s : State) (f : Sloulo → Sloulo) : (s.modSlo f).engCycle = s.engCycle := rfl
@[simp] theorem State.modPort_regs (s : State) (p : Fin 4) (f : SloPort → SloPort) : (s.modPort p f).regs = s.regs := rfl
@[simp] theorem State.modPort_tb (s : State) (p : Fin 4) (f : SloPort → SloPort) : (s.modPort p f).tb = s.tb := rfl
@[simp] theorem State.modPort_goAt (s : State) (p : Fin 4) (f : SloPort → SloPort) : (s.modPort p f).goAt = s.goAt := rfl
@[simp] theorem State.modPort_goDone (s : State) (p : Fin 4) (f : SloPort → SloPort) : (s.modPort p f).goDone = s.goDone := rfl
@[simp] theorem State.modPort_hst (s : State) (p : Fin 4) (f : SloPort → SloPort) : (s.modPort p f).hst = s.hst := rfl
@[simp] theorem State.modPort_cnt (s : State) (p : Fin 4) (f : SloPort → SloPort) : (s.modPort p f).cnt = s.cnt := rfl
@[simp] theorem State.modPort_pinActs (s : State) (p : Fin 4) (f : SloPort → SloPort) : (s.modPort p f).pinActs = s.pinActs := rfl
@[simp] theorem State.modPort_goNow (s : State) (p : Fin 4) (f : SloPort → SloPort) : (s.modPort p f).goNow = s.goNow := rfl
@[simp] theorem State.modPort_haltNow (s : State) (p : Fin 4) (f : SloPort → SloPort) : (s.modPort p f).haltNow = s.haltNow := rfl
@[simp] theorem State.modPort_fct (s : State) (p : Fin 4) (f : SloPort → SloPort) : (s.modPort p f).fct = s.fct := rfl
@[simp] theorem State.modPort_safeN (s : State) (p : Fin 4) (f : SloPort → SloPort) : (s.modPort p f).safeN = s.safeN := rfl
@[simp] theorem State.modPort_whl (s : State) (p : Fin 4) (f : SloPort → SloPort) : (s.modPort p f).whl = s.whl := rfl
@[simp] theorem State.modPort_bzl (s : State) (p : Fin 4) (f : SloPort → SloPort) : (s.modPort p f).bzl = s.bzl := rfl
@[simp] theorem State.modPort_tlr (s : State) (p : Fin 4) (f : SloPort → SloPort) : (s.modPort p f).tlr = s.tlr := rfl
@[simp] theorem State.modPort_vlt (s : State) (p : Fin 4) (f : SloPort → SloPort) : (s.modPort p f).vlt = s.vlt := rfl
@[simp] theorem State.modPort_mnt (s : State) (p : Fin 4) (f : SloPort → SloPort) : (s.modPort p f).mnt = s.mnt := rfl
@[simp] theorem State.modPort_adc (s : State) (p : Fin 4) (f : SloPort → SloPort) : (s.modPort p f).adc = s.adc := rfl
@[simp] theorem State.modPort_dma (s : State) (p : Fin 4) (f : SloPort → SloPort) : (s.modPort p f).dma = s.dma := rfl
@[simp] theorem State.modPort_dbk (s : State) (p : Fin 4) (f : SloPort → SloPort) : (s.modPort p f).dbk = s.dbk := rfl
@[simp] theorem State.modPort_eth (s : State) (p : Fin 4) (f : SloPort → SloPort) : (s.modPort p f).eth = s.eth := rfl
@[simp] theorem State.modPort_asy (s : State) (p : Fin 4) (f : SloPort → SloPort) : (s.modPort p f).asy = s.asy := rfl
@[simp] theorem State.modPort_slo (s : State) (p : Fin 4) (f : SloPort → SloPort) : (s.modPort p f).slo = { s.slo with port := vmod s.slo.port p f } := rfl
@[simp] theorem State.modPort_ic (s : State) (p : Fin 4) (f : SloPort → SloPort) : (s.modPort p f).ic = s.ic := rfl
@[simp] theorem State.modPort_host (s : State) (p : Fin 4) (f : SloPort → SloPort) : (s.modPort p f).host = s.host := rfl
@[simp] theorem State.modPort_health (s : State) (p : Fin 4) (f : SloPort → SloPort) : (s.modPort p f).health = s.health := rfl
@[simp] theorem State.modPort_wakePin (s : State) (p : Fin 4) (f : SloPort → SloPort) : (s.modPort p f).wakePin = s.wakePin := rfl
@[simp] theorem State.modPort_resetLow (s : State) (p : Fin 4) (f : SloPort → SloPort) : (s.modPort p f).resetLow = s.resetLow := rfl
@[simp] theorem State.modPort_retained (s : State) (p : Fin 4) (f : SloPort → SloPort) : (s.modPort p f).retained = s.retained := rfl
@[simp] theorem State.modPort_pulses (s : State) (p : Fin 4) (f : SloPort → SloPort) : (s.modPort p f).pulses = s.pulses := rfl
@[simp] theorem State.modPort_out (s : State) (p : Fin 4) (f : SloPort → SloPort) : (s.modPort p f).out = s.out := rfl
@[simp] theorem State.modPort_read (s : State) (p : Fin 4) (f : SloPort → SloPort) : (s.modPort p f).read = s.read := rfl
@[simp] theorem State.modPort_latch (s : State) (p : Fin 4) (f : SloPort → SloPort) : (s.modPort p f).latch = s.latch := rfl
@[simp] theorem State.modPort_setNow (s : State) (p : Fin 4) (f : SloPort → SloPort) : (s.modPort p f).setNow = s.setNow := rfl
@[simp] theorem State.modPort_asyEdges (s : State) (p : Fin 4) (f : SloPort → SloPort) : (s.modPort p f).asyEdges = s.asyEdges := rfl
@[simp] theorem State.modPort_free (s : State) (p : Fin 4) (f : SloPort → SloPort) : (s.modPort p f).free = s.free := rfl
@[simp] theorem State.modPort_inflight (s : State) (p : Fin 4) (f : SloPort → SloPort) : (s.modPort p f).inflight = s.inflight := rfl
@[simp] theorem State.modPort_pending (s : State) (p : Fin 4) (f : SloPort → SloPort) : (s.modPort p f).pending = s.pending := rfl
@[simp] theorem State.modPort_rd (s : State) (p : Fin 4) (f : SloPort → SloPort) (a : Nat) : (s.modPort p f).rd a = s.rd a := rfl
@[simp] theorem State.modPort_rd64 (s : State) (p : Fin 4) (f : SloPort → SloPort) (a : Nat) : (s.modPort p f).rd64 a = s.rd64 a := rfl
@[simp] theorem State.modPort_get (s : State) (p : Fin 4) (f : SloPort → SloPort) (g : Fld) : (s.modPort p f).get g = s.get g := rfl
@[simp] theorem State.modPort_flag (s : State) (p : Fin 4) (f : SloPort → SloPort) (g : Fld) : (s.modPort p f).flag g = s.flag g := rfl
@[simp] theorem State.modPort_now (s : State) (p : Fin 4) (f : SloPort → SloPort) : (s.modPort p f).now = s.now := rfl
@[simp] theorem State.modPort_tally (s : State) (p : Fin 4) (f : SloPort → SloPort) : (s.modPort p f).tally = s.tally := rfl
@[simp] theorem State.modPort_nextNow (s : State) (p : Fin 4) (f : SloPort → SloPort) : (s.modPort p f).nextNow = s.nextNow := rfl
@[simp] theorem State.modPort_engCycle (s : State) (p : Fin 4) (f : SloPort → SloPort) : (s.modPort p f).engCycle = s.engCycle := rfl
@[simp] theorem State.modIc_regs (s : State) (f : Ic → Ic) : (s.modIc f).regs = s.regs := rfl
@[simp] theorem State.modIc_tb (s : State) (f : Ic → Ic) : (s.modIc f).tb = s.tb := rfl
@[simp] theorem State.modIc_goAt (s : State) (f : Ic → Ic) : (s.modIc f).goAt = s.goAt := rfl
@[simp] theorem State.modIc_goDone (s : State) (f : Ic → Ic) : (s.modIc f).goDone = s.goDone := rfl
@[simp] theorem State.modIc_hst (s : State) (f : Ic → Ic) : (s.modIc f).hst = s.hst := rfl
@[simp] theorem State.modIc_cnt (s : State) (f : Ic → Ic) : (s.modIc f).cnt = s.cnt := rfl
@[simp] theorem State.modIc_pinActs (s : State) (f : Ic → Ic) : (s.modIc f).pinActs = s.pinActs := rfl
@[simp] theorem State.modIc_goNow (s : State) (f : Ic → Ic) : (s.modIc f).goNow = s.goNow := rfl
@[simp] theorem State.modIc_haltNow (s : State) (f : Ic → Ic) : (s.modIc f).haltNow = s.haltNow := rfl
@[simp] theorem State.modIc_fct (s : State) (f : Ic → Ic) : (s.modIc f).fct = s.fct := rfl
@[simp] theorem State.modIc_safeN (s : State) (f : Ic → Ic) : (s.modIc f).safeN = s.safeN := rfl
@[simp] theorem State.modIc_whl (s : State) (f : Ic → Ic) : (s.modIc f).whl = s.whl := rfl
@[simp] theorem State.modIc_bzl (s : State) (f : Ic → Ic) : (s.modIc f).bzl = s.bzl := rfl
@[simp] theorem State.modIc_tlr (s : State) (f : Ic → Ic) : (s.modIc f).tlr = s.tlr := rfl
@[simp] theorem State.modIc_vlt (s : State) (f : Ic → Ic) : (s.modIc f).vlt = s.vlt := rfl
@[simp] theorem State.modIc_mnt (s : State) (f : Ic → Ic) : (s.modIc f).mnt = s.mnt := rfl
@[simp] theorem State.modIc_adc (s : State) (f : Ic → Ic) : (s.modIc f).adc = s.adc := rfl
@[simp] theorem State.modIc_dma (s : State) (f : Ic → Ic) : (s.modIc f).dma = s.dma := rfl
@[simp] theorem State.modIc_dbk (s : State) (f : Ic → Ic) : (s.modIc f).dbk = s.dbk := rfl
@[simp] theorem State.modIc_eth (s : State) (f : Ic → Ic) : (s.modIc f).eth = s.eth := rfl
@[simp] theorem State.modIc_asy (s : State) (f : Ic → Ic) : (s.modIc f).asy = s.asy := rfl
@[simp] theorem State.modIc_slo (s : State) (f : Ic → Ic) : (s.modIc f).slo = s.slo := rfl
@[simp] theorem State.modIc_ic (s : State) (f : Ic → Ic) : (s.modIc f).ic = f s.ic := rfl
@[simp] theorem State.modIc_host (s : State) (f : Ic → Ic) : (s.modIc f).host = s.host := rfl
@[simp] theorem State.modIc_health (s : State) (f : Ic → Ic) : (s.modIc f).health = s.health := rfl
@[simp] theorem State.modIc_wakePin (s : State) (f : Ic → Ic) : (s.modIc f).wakePin = s.wakePin := rfl
@[simp] theorem State.modIc_resetLow (s : State) (f : Ic → Ic) : (s.modIc f).resetLow = s.resetLow := rfl
@[simp] theorem State.modIc_retained (s : State) (f : Ic → Ic) : (s.modIc f).retained = s.retained := rfl
@[simp] theorem State.modIc_pulses (s : State) (f : Ic → Ic) : (s.modIc f).pulses = s.pulses := rfl
@[simp] theorem State.modIc_out (s : State) (f : Ic → Ic) : (s.modIc f).out = s.out := rfl
@[simp] theorem State.modIc_read (s : State) (f : Ic → Ic) : (s.modIc f).read = s.read := rfl
@[simp] theorem State.modIc_latch (s : State) (f : Ic → Ic) : (s.modIc f).latch = s.latch := rfl
@[simp] theorem State.modIc_setNow (s : State) (f : Ic → Ic) : (s.modIc f).setNow = s.setNow := rfl
@[simp] theorem State.modIc_asyEdges (s : State) (f : Ic → Ic) : (s.modIc f).asyEdges = s.asyEdges := rfl
@[simp] theorem State.modIc_free (s : State) (f : Ic → Ic) : (s.modIc f).free = s.free := rfl
@[simp] theorem State.modIc_inflight (s : State) (f : Ic → Ic) : (s.modIc f).inflight = s.inflight := rfl
@[simp] theorem State.modIc_pending (s : State) (f : Ic → Ic) : (s.modIc f).pending = s.pending := rfl
@[simp] theorem State.modIc_rd (s : State) (f : Ic → Ic) (a : Nat) : (s.modIc f).rd a = s.rd a := rfl
@[simp] theorem State.modIc_rd64 (s : State) (f : Ic → Ic) (a : Nat) : (s.modIc f).rd64 a = s.rd64 a := rfl
@[simp] theorem State.modIc_get (s : State) (f : Ic → Ic) (g : Fld) : (s.modIc f).get g = s.get g := rfl
@[simp] theorem State.modIc_flag (s : State) (f : Ic → Ic) (g : Fld) : (s.modIc f).flag g = s.flag g := rfl
@[simp] theorem State.modIc_now (s : State) (f : Ic → Ic) : (s.modIc f).now = s.now := rfl
@[simp] theorem State.modIc_tally (s : State) (f : Ic → Ic) : (s.modIc f).tally = s.tally := rfl
@[simp] theorem State.modIc_nextNow (s : State) (f : Ic → Ic) : (s.modIc f).nextNow = s.nextNow := rfl
@[simp] theorem State.modIc_engCycle (s : State) (f : Ic → Ic) : (s.modIc f).engCycle = s.engCycle := rfl
@[simp] theorem State.modPcie_regs (s : State) (f : Pcie → Pcie) : (s.modPcie f).regs = s.regs := rfl
@[simp] theorem State.modPcie_tb (s : State) (f : Pcie → Pcie) : (s.modPcie f).tb = s.tb := rfl
@[simp] theorem State.modPcie_goAt (s : State) (f : Pcie → Pcie) : (s.modPcie f).goAt = s.goAt := rfl
@[simp] theorem State.modPcie_goDone (s : State) (f : Pcie → Pcie) : (s.modPcie f).goDone = s.goDone := rfl
@[simp] theorem State.modPcie_hst (s : State) (f : Pcie → Pcie) : (s.modPcie f).hst = s.hst := rfl
@[simp] theorem State.modPcie_cnt (s : State) (f : Pcie → Pcie) : (s.modPcie f).cnt = s.cnt := rfl
@[simp] theorem State.modPcie_pinActs (s : State) (f : Pcie → Pcie) : (s.modPcie f).pinActs = s.pinActs := rfl
@[simp] theorem State.modPcie_goNow (s : State) (f : Pcie → Pcie) : (s.modPcie f).goNow = s.goNow := rfl
@[simp] theorem State.modPcie_haltNow (s : State) (f : Pcie → Pcie) : (s.modPcie f).haltNow = s.haltNow := rfl
@[simp] theorem State.modPcie_fct (s : State) (f : Pcie → Pcie) : (s.modPcie f).fct = s.fct := rfl
@[simp] theorem State.modPcie_safeN (s : State) (f : Pcie → Pcie) : (s.modPcie f).safeN = s.safeN := rfl
@[simp] theorem State.modPcie_whl (s : State) (f : Pcie → Pcie) : (s.modPcie f).whl = s.whl := rfl
@[simp] theorem State.modPcie_bzl (s : State) (f : Pcie → Pcie) : (s.modPcie f).bzl = s.bzl := rfl
@[simp] theorem State.modPcie_tlr (s : State) (f : Pcie → Pcie) : (s.modPcie f).tlr = s.tlr := rfl
@[simp] theorem State.modPcie_vlt (s : State) (f : Pcie → Pcie) : (s.modPcie f).vlt = s.vlt := rfl
@[simp] theorem State.modPcie_mnt (s : State) (f : Pcie → Pcie) : (s.modPcie f).mnt = s.mnt := rfl
@[simp] theorem State.modPcie_adc (s : State) (f : Pcie → Pcie) : (s.modPcie f).adc = s.adc := rfl
@[simp] theorem State.modPcie_dma (s : State) (f : Pcie → Pcie) : (s.modPcie f).dma = s.dma := rfl
@[simp] theorem State.modPcie_dbk (s : State) (f : Pcie → Pcie) : (s.modPcie f).dbk = s.dbk := rfl
@[simp] theorem State.modPcie_eth (s : State) (f : Pcie → Pcie) : (s.modPcie f).eth = s.eth := rfl
@[simp] theorem State.modPcie_asy (s : State) (f : Pcie → Pcie) : (s.modPcie f).asy = s.asy := rfl
@[simp] theorem State.modPcie_slo (s : State) (f : Pcie → Pcie) : (s.modPcie f).slo = s.slo := rfl
@[simp] theorem State.modPcie_ic (s : State) (f : Pcie → Pcie) : (s.modPcie f).ic = s.ic := rfl
@[simp] theorem State.modPcie_host (s : State) (f : Pcie → Pcie) : (s.modPcie f).host = { s.host with pcie := f s.host.pcie } := rfl
@[simp] theorem State.modPcie_health (s : State) (f : Pcie → Pcie) : (s.modPcie f).health = s.health := rfl
@[simp] theorem State.modPcie_wakePin (s : State) (f : Pcie → Pcie) : (s.modPcie f).wakePin = s.wakePin := rfl
@[simp] theorem State.modPcie_resetLow (s : State) (f : Pcie → Pcie) : (s.modPcie f).resetLow = s.resetLow := rfl
@[simp] theorem State.modPcie_retained (s : State) (f : Pcie → Pcie) : (s.modPcie f).retained = s.retained := rfl
@[simp] theorem State.modPcie_pulses (s : State) (f : Pcie → Pcie) : (s.modPcie f).pulses = s.pulses := rfl
@[simp] theorem State.modPcie_out (s : State) (f : Pcie → Pcie) : (s.modPcie f).out = s.out := rfl
@[simp] theorem State.modPcie_read (s : State) (f : Pcie → Pcie) : (s.modPcie f).read = s.read := rfl
@[simp] theorem State.modPcie_latch (s : State) (f : Pcie → Pcie) : (s.modPcie f).latch = s.latch := rfl
@[simp] theorem State.modPcie_setNow (s : State) (f : Pcie → Pcie) : (s.modPcie f).setNow = s.setNow := rfl
@[simp] theorem State.modPcie_asyEdges (s : State) (f : Pcie → Pcie) : (s.modPcie f).asyEdges = s.asyEdges := rfl
@[simp] theorem State.modPcie_free (s : State) (f : Pcie → Pcie) : (s.modPcie f).free = s.free := rfl
@[simp] theorem State.modPcie_inflight (s : State) (f : Pcie → Pcie) : (s.modPcie f).inflight = s.inflight := rfl
@[simp] theorem State.modPcie_pending (s : State) (f : Pcie → Pcie) : (s.modPcie f).pending = s.pending := rfl
@[simp] theorem State.modPcie_rd (s : State) (f : Pcie → Pcie) (a : Nat) : (s.modPcie f).rd a = s.rd a := rfl
@[simp] theorem State.modPcie_rd64 (s : State) (f : Pcie → Pcie) (a : Nat) : (s.modPcie f).rd64 a = s.rd64 a := rfl
@[simp] theorem State.modPcie_get (s : State) (f : Pcie → Pcie) (g : Fld) : (s.modPcie f).get g = s.get g := rfl
@[simp] theorem State.modPcie_flag (s : State) (f : Pcie → Pcie) (g : Fld) : (s.modPcie f).flag g = s.flag g := rfl
@[simp] theorem State.modPcie_now (s : State) (f : Pcie → Pcie) : (s.modPcie f).now = s.now := rfl
@[simp] theorem State.modPcie_tally (s : State) (f : Pcie → Pcie) : (s.modPcie f).tally = s.tally := rfl
@[simp] theorem State.modPcie_nextNow (s : State) (f : Pcie → Pcie) : (s.modPcie f).nextNow = s.nextNow := rfl
@[simp] theorem State.modPcie_engCycle (s : State) (f : Pcie → Pcie) : (s.modPcie f).engCycle = s.engCycle := rfl
@[simp] theorem State.post_regs (s : State) (n : Nat) (c : Instr) : (s.post n c).regs = s.regs := rfl
@[simp] theorem State.post_tb (s : State) (n : Nat) (c : Instr) : (s.post n c).tb = s.tb := rfl
@[simp] theorem State.post_goAt (s : State) (n : Nat) (c : Instr) : (s.post n c).goAt = s.goAt := rfl
@[simp] theorem State.post_goDone (s : State) (n : Nat) (c : Instr) : (s.post n c).goDone = s.goDone := rfl
@[simp] theorem State.post_hst (s : State) (n : Nat) (c : Instr) : (s.post n c).hst = s.hst := rfl
@[simp] theorem State.post_cnt (s : State) (n : Nat) (c : Instr) : (s.post n c).cnt = s.cnt := rfl
@[simp] theorem State.post_pinActs (s : State) (n : Nat) (c : Instr) : (s.post n c).pinActs = s.pinActs := rfl
@[simp] theorem State.post_goNow (s : State) (n : Nat) (c : Instr) : (s.post n c).goNow = s.goNow := rfl
@[simp] theorem State.post_haltNow (s : State) (n : Nat) (c : Instr) : (s.post n c).haltNow = s.haltNow := rfl
@[simp] theorem State.post_fct (s : State) (n : Nat) (c : Instr) : (s.post n c).fct = s.fct := rfl
@[simp] theorem State.post_safeN (s : State) (n : Nat) (c : Instr) : (s.post n c).safeN = s.safeN := rfl
@[simp] theorem State.post_whl (s : State) (n : Nat) (c : Instr) : (s.post n c).whl = s.whl := rfl
@[simp] theorem State.post_bzl (s : State) (n : Nat) (c : Instr) : (s.post n c).bzl = s.bzl := rfl
@[simp] theorem State.post_tlr (s : State) (n : Nat) (c : Instr) : (s.post n c).tlr = s.tlr := rfl
@[simp] theorem State.post_vlt (s : State) (n : Nat) (c : Instr) : (s.post n c).vlt = s.vlt := rfl
@[simp] theorem State.post_mnt (s : State) (n : Nat) (c : Instr) : (s.post n c).mnt = s.mnt := rfl
@[simp] theorem State.post_adc (s : State) (n : Nat) (c : Instr) : (s.post n c).adc = s.adc := rfl
@[simp] theorem State.post_dma (s : State) (n : Nat) (c : Instr) : (s.post n c).dma = s.dma := rfl
@[simp] theorem State.post_dbk (s : State) (n : Nat) (c : Instr) : (s.post n c).dbk = s.dbk := rfl
@[simp] theorem State.post_eth (s : State) (n : Nat) (c : Instr) : (s.post n c).eth = s.eth := rfl
@[simp] theorem State.post_asy (s : State) (n : Nat) (c : Instr) : (s.post n c).asy = s.asy := rfl
@[simp] theorem State.post_slo (s : State) (n : Nat) (c : Instr) : (s.post n c).slo = s.slo := rfl
@[simp] theorem State.post_ic (s : State) (n : Nat) (c : Instr) : (s.post n c).ic = s.ic := rfl
@[simp] theorem State.post_host (s : State) (n : Nat) (c : Instr) : (s.post n c).host = s.host := rfl
@[simp] theorem State.post_health (s : State) (n : Nat) (c : Instr) : (s.post n c).health = s.health := rfl
@[simp] theorem State.post_wakePin (s : State) (n : Nat) (c : Instr) : (s.post n c).wakePin = s.wakePin := rfl
@[simp] theorem State.post_resetLow (s : State) (n : Nat) (c : Instr) : (s.post n c).resetLow = s.resetLow := rfl
@[simp] theorem State.post_retained (s : State) (n : Nat) (c : Instr) : (s.post n c).retained = s.retained := rfl
@[simp] theorem State.post_pulses (s : State) (n : Nat) (c : Instr) : (s.post n c).pulses = s.pulses := rfl
@[simp] theorem State.post_out (s : State) (n : Nat) (c : Instr) : (s.post n c).out = s.out := rfl
@[simp] theorem State.post_read (s : State) (n : Nat) (c : Instr) : (s.post n c).read = s.read := rfl
@[simp] theorem State.post_latch (s : State) (n : Nat) (c : Instr) : (s.post n c).latch = s.latch := rfl
@[simp] theorem State.post_setNow (s : State) (n : Nat) (c : Instr) : (s.post n c).setNow = s.setNow := rfl
@[simp] theorem State.post_asyEdges (s : State) (n : Nat) (c : Instr) : (s.post n c).asyEdges = s.asyEdges := rfl
@[simp] theorem State.post_free (s : State) (n : Nat) (c : Instr) : (s.post n c).free = s.free := rfl
@[simp] theorem State.post_inflight (s : State) (n : Nat) (c : Instr) : (s.post n c).inflight = s.inflight ++ [(n, c)] := rfl
@[simp] theorem State.post_pending (s : State) (n : Nat) (c : Instr) : (s.post n c).pending = s.pending := rfl
@[simp] theorem State.post_rd (s : State) (n : Nat) (c : Instr) (a : Nat) : (s.post n c).rd a = s.rd a := rfl
@[simp] theorem State.post_rd64 (s : State) (n : Nat) (c : Instr) (a : Nat) : (s.post n c).rd64 a = s.rd64 a := rfl
@[simp] theorem State.post_get (s : State) (n : Nat) (c : Instr) (g : Fld) : (s.post n c).get g = s.get g := rfl
@[simp] theorem State.post_flag (s : State) (n : Nat) (c : Instr) (g : Fld) : (s.post n c).flag g = s.flag g := rfl
@[simp] theorem State.post_now (s : State) (n : Nat) (c : Instr) : (s.post n c).now = s.now := rfl
@[simp] theorem State.post_tally (s : State) (n : Nat) (c : Instr) : (s.post n c).tally = s.tally := rfl
@[simp] theorem State.post_nextNow (s : State) (n : Nat) (c : Instr) : (s.post n c).nextNow = s.nextNow := rfl
@[simp] theorem State.post_engCycle (s : State) (n : Nat) (c : Instr) : (s.post n c).engCycle = s.engCycle := rfl
@[simp] theorem State.emit_regs (s : State) (o : Output) : (s.emit o).regs = s.regs := rfl
@[simp] theorem State.emit_tb (s : State) (o : Output) : (s.emit o).tb = s.tb := rfl
@[simp] theorem State.emit_goAt (s : State) (o : Output) : (s.emit o).goAt = s.goAt := rfl
@[simp] theorem State.emit_goDone (s : State) (o : Output) : (s.emit o).goDone = s.goDone := rfl
@[simp] theorem State.emit_hst (s : State) (o : Output) : (s.emit o).hst = s.hst := rfl
@[simp] theorem State.emit_cnt (s : State) (o : Output) : (s.emit o).cnt = s.cnt := rfl
@[simp] theorem State.emit_pinActs (s : State) (o : Output) : (s.emit o).pinActs = s.pinActs := rfl
@[simp] theorem State.emit_goNow (s : State) (o : Output) : (s.emit o).goNow = s.goNow := rfl
@[simp] theorem State.emit_haltNow (s : State) (o : Output) : (s.emit o).haltNow = s.haltNow := rfl
@[simp] theorem State.emit_fct (s : State) (o : Output) : (s.emit o).fct = s.fct := rfl
@[simp] theorem State.emit_safeN (s : State) (o : Output) : (s.emit o).safeN = s.safeN := rfl
@[simp] theorem State.emit_whl (s : State) (o : Output) : (s.emit o).whl = s.whl := rfl
@[simp] theorem State.emit_bzl (s : State) (o : Output) : (s.emit o).bzl = s.bzl := rfl
@[simp] theorem State.emit_tlr (s : State) (o : Output) : (s.emit o).tlr = s.tlr := rfl
@[simp] theorem State.emit_vlt (s : State) (o : Output) : (s.emit o).vlt = s.vlt := rfl
@[simp] theorem State.emit_mnt (s : State) (o : Output) : (s.emit o).mnt = s.mnt := rfl
@[simp] theorem State.emit_adc (s : State) (o : Output) : (s.emit o).adc = s.adc := rfl
@[simp] theorem State.emit_dma (s : State) (o : Output) : (s.emit o).dma = s.dma := rfl
@[simp] theorem State.emit_dbk (s : State) (o : Output) : (s.emit o).dbk = s.dbk := rfl
@[simp] theorem State.emit_eth (s : State) (o : Output) : (s.emit o).eth = s.eth := rfl
@[simp] theorem State.emit_asy (s : State) (o : Output) : (s.emit o).asy = s.asy := rfl
@[simp] theorem State.emit_slo (s : State) (o : Output) : (s.emit o).slo = s.slo := rfl
@[simp] theorem State.emit_ic (s : State) (o : Output) : (s.emit o).ic = s.ic := rfl
@[simp] theorem State.emit_host (s : State) (o : Output) : (s.emit o).host = s.host := rfl
@[simp] theorem State.emit_health (s : State) (o : Output) : (s.emit o).health = s.health := rfl
@[simp] theorem State.emit_wakePin (s : State) (o : Output) : (s.emit o).wakePin = s.wakePin := rfl
@[simp] theorem State.emit_resetLow (s : State) (o : Output) : (s.emit o).resetLow = s.resetLow := rfl
@[simp] theorem State.emit_retained (s : State) (o : Output) : (s.emit o).retained = s.retained := rfl
@[simp] theorem State.emit_pulses (s : State) (o : Output) : (s.emit o).pulses = s.pulses := rfl
@[simp] theorem State.emit_out (s : State) (o : Output) : (s.emit o).out = s.out ++ [o] := rfl
@[simp] theorem State.emit_read (s : State) (o : Output) : (s.emit o).read = s.read := rfl
@[simp] theorem State.emit_latch (s : State) (o : Output) : (s.emit o).latch = s.latch := rfl
@[simp] theorem State.emit_setNow (s : State) (o : Output) : (s.emit o).setNow = s.setNow := rfl
@[simp] theorem State.emit_asyEdges (s : State) (o : Output) : (s.emit o).asyEdges = s.asyEdges := rfl
@[simp] theorem State.emit_free (s : State) (o : Output) : (s.emit o).free = s.free := rfl
@[simp] theorem State.emit_inflight (s : State) (o : Output) : (s.emit o).inflight = s.inflight := rfl
@[simp] theorem State.emit_pending (s : State) (o : Output) : (s.emit o).pending = s.pending := rfl
@[simp] theorem State.emit_rd (s : State) (o : Output) (a : Nat) : (s.emit o).rd a = s.rd a := rfl
@[simp] theorem State.emit_rd64 (s : State) (o : Output) (a : Nat) : (s.emit o).rd64 a = s.rd64 a := rfl
@[simp] theorem State.emit_get (s : State) (o : Output) (g : Fld) : (s.emit o).get g = s.get g := rfl
@[simp] theorem State.emit_flag (s : State) (o : Output) (g : Fld) : (s.emit o).flag g = s.flag g := rfl
@[simp] theorem State.emit_now (s : State) (o : Output) : (s.emit o).now = s.now := rfl
@[simp] theorem State.emit_tally (s : State) (o : Output) : (s.emit o).tally = s.tally := rfl
@[simp] theorem State.emit_nextNow (s : State) (o : Output) : (s.emit o).nextNow = s.nextNow := rfl
@[simp] theorem State.emit_engCycle (s : State) (o : Output) : (s.emit o).engCycle = s.engCycle := rfl

/-! A fault event reaches the register words, the marks of this cycle and the edges to the Ledger, and nothing else (R419, R420). -/

@[simp] theorem State.fault_tb (s : State) (k : FaultBit) : (s.fault k).tb = s.tb := by
  unfold State.fault; dsimp only; split <;> split <;> rfl
@[simp] theorem State.fault_goAt (s : State) (k : FaultBit) : (s.fault k).goAt = s.goAt := by
  unfold State.fault; dsimp only; split <;> split <;> rfl
@[simp] theorem State.fault_goDone (s : State) (k : FaultBit) : (s.fault k).goDone = s.goDone := by
  unfold State.fault; dsimp only; split <;> split <;> rfl
@[simp] theorem State.fault_hst (s : State) (k : FaultBit) : (s.fault k).hst = s.hst := by
  unfold State.fault; dsimp only; split <;> split <;> rfl
@[simp] theorem State.fault_cnt (s : State) (k : FaultBit) : (s.fault k).cnt = s.cnt := by
  unfold State.fault; dsimp only; split <;> split <;> rfl
@[simp] theorem State.fault_pinActs (s : State) (k : FaultBit) : (s.fault k).pinActs = s.pinActs := by
  unfold State.fault; dsimp only; split <;> split <;> rfl
@[simp] theorem State.fault_goNow (s : State) (k : FaultBit) : (s.fault k).goNow = s.goNow := by
  unfold State.fault; dsimp only; split <;> split <;> rfl
@[simp] theorem State.fault_haltNow (s : State) (k : FaultBit) : (s.fault k).haltNow = s.haltNow := by
  unfold State.fault; dsimp only; split <;> split <;> rfl
@[simp] theorem State.fault_fct (s : State) (k : FaultBit) : (s.fault k).fct = s.fct := by
  unfold State.fault; dsimp only; split <;> split <;> rfl
@[simp] theorem State.fault_safeN (s : State) (k : FaultBit) : (s.fault k).safeN = s.safeN := by
  unfold State.fault; dsimp only; split <;> split <;> rfl
@[simp] theorem State.fault_whl (s : State) (k : FaultBit) : (s.fault k).whl = s.whl := by
  unfold State.fault; dsimp only; split <;> split <;> rfl
@[simp] theorem State.fault_bzl (s : State) (k : FaultBit) : (s.fault k).bzl = s.bzl := by
  unfold State.fault; dsimp only; split <;> split <;> rfl
@[simp] theorem State.fault_tlr (s : State) (k : FaultBit) : (s.fault k).tlr = s.tlr := by
  unfold State.fault; dsimp only; split <;> split <;> rfl
@[simp] theorem State.fault_vlt (s : State) (k : FaultBit) : (s.fault k).vlt = s.vlt := by
  unfold State.fault; dsimp only; split <;> split <;> rfl
@[simp] theorem State.fault_mnt (s : State) (k : FaultBit) : (s.fault k).mnt = s.mnt := by
  unfold State.fault; dsimp only; split <;> split <;> rfl
@[simp] theorem State.fault_adc (s : State) (k : FaultBit) : (s.fault k).adc = s.adc := by
  unfold State.fault; dsimp only; split <;> split <;> rfl
@[simp] theorem State.fault_dma (s : State) (k : FaultBit) : (s.fault k).dma = s.dma := by
  unfold State.fault; dsimp only; split <;> split <;> rfl
@[simp] theorem State.fault_dbk (s : State) (k : FaultBit) : (s.fault k).dbk = s.dbk := by
  unfold State.fault; dsimp only; split <;> split <;> rfl
@[simp] theorem State.fault_eth (s : State) (k : FaultBit) : (s.fault k).eth = s.eth := by
  unfold State.fault; dsimp only; split <;> split <;> rfl
@[simp] theorem State.fault_asy (s : State) (k : FaultBit) : (s.fault k).asy = s.asy := by
  unfold State.fault; dsimp only; split <;> split <;> rfl
@[simp] theorem State.fault_slo (s : State) (k : FaultBit) : (s.fault k).slo = s.slo := by
  unfold State.fault; dsimp only; split <;> split <;> rfl
@[simp] theorem State.fault_ic (s : State) (k : FaultBit) : (s.fault k).ic = s.ic := by
  unfold State.fault; dsimp only; split <;> split <;> rfl
@[simp] theorem State.fault_host (s : State) (k : FaultBit) : (s.fault k).host = s.host := by
  unfold State.fault; dsimp only; split <;> split <;> rfl
@[simp] theorem State.fault_health (s : State) (k : FaultBit) : (s.fault k).health = s.health := by
  unfold State.fault; dsimp only; split <;> split <;> rfl
@[simp] theorem State.fault_wakePin (s : State) (k : FaultBit) : (s.fault k).wakePin = s.wakePin := by
  unfold State.fault; dsimp only; split <;> split <;> rfl
@[simp] theorem State.fault_resetLow (s : State) (k : FaultBit) : (s.fault k).resetLow = s.resetLow := by
  unfold State.fault; dsimp only; split <;> split <;> rfl
@[simp] theorem State.fault_retained (s : State) (k : FaultBit) : (s.fault k).retained = s.retained := by
  unfold State.fault; dsimp only; split <;> split <;> rfl
@[simp] theorem State.fault_pulses (s : State) (k : FaultBit) : (s.fault k).pulses = s.pulses := by
  unfold State.fault; dsimp only; split <;> split <;> rfl
@[simp] theorem State.fault_out (s : State) (k : FaultBit) : (s.fault k).out = s.out := by
  unfold State.fault; dsimp only; split <;> split <;> rfl
@[simp] theorem State.fault_read (s : State) (k : FaultBit) : (s.fault k).read = s.read := by
  unfold State.fault; dsimp only; split <;> split <;> rfl
@[simp] theorem State.fault_latch (s : State) (k : FaultBit) : (s.fault k).latch = s.latch := by
  unfold State.fault; dsimp only; split <;> split <;> rfl
@[simp] theorem State.fault_free (s : State) (k : FaultBit) : (s.fault k).free = s.free := by
  unfold State.fault; dsimp only; split <;> split <;> rfl
@[simp] theorem State.fault_inflight (s : State) (k : FaultBit) : (s.fault k).inflight = s.inflight := by
  unfold State.fault; dsimp only; split <;> split <;> rfl
@[simp] theorem State.fault_pending (s : State) (k : FaultBit) : (s.fault k).pending = s.pending := by
  unfold State.fault; dsimp only; split <;> split <;> rfl
@[simp] theorem State.raiseIf_tb (s : State) (b : Bool) (g : Fld) : (s.raiseIf b g).tb = s.tb := by cases b <;> rfl
@[simp] theorem State.raiseIf_goAt (s : State) (b : Bool) (g : Fld) : (s.raiseIf b g).goAt = s.goAt := by cases b <;> rfl
@[simp] theorem State.raiseIf_goDone (s : State) (b : Bool) (g : Fld) : (s.raiseIf b g).goDone = s.goDone := by cases b <;> rfl
@[simp] theorem State.raiseIf_hst (s : State) (b : Bool) (g : Fld) : (s.raiseIf b g).hst = s.hst := by cases b <;> rfl
@[simp] theorem State.raiseIf_cnt (s : State) (b : Bool) (g : Fld) : (s.raiseIf b g).cnt = s.cnt := by cases b <;> rfl
@[simp] theorem State.raiseIf_pinActs (s : State) (b : Bool) (g : Fld) : (s.raiseIf b g).pinActs = s.pinActs := by cases b <;> rfl
@[simp] theorem State.raiseIf_goNow (s : State) (b : Bool) (g : Fld) : (s.raiseIf b g).goNow = s.goNow := by cases b <;> rfl
@[simp] theorem State.raiseIf_haltNow (s : State) (b : Bool) (g : Fld) : (s.raiseIf b g).haltNow = s.haltNow := by cases b <;> rfl
@[simp] theorem State.raiseIf_fct (s : State) (b : Bool) (g : Fld) : (s.raiseIf b g).fct = s.fct := by cases b <;> rfl
@[simp] theorem State.raiseIf_safeN (s : State) (b : Bool) (g : Fld) : (s.raiseIf b g).safeN = s.safeN := by cases b <;> rfl
@[simp] theorem State.raiseIf_whl (s : State) (b : Bool) (g : Fld) : (s.raiseIf b g).whl = s.whl := by cases b <;> rfl
@[simp] theorem State.raiseIf_bzl (s : State) (b : Bool) (g : Fld) : (s.raiseIf b g).bzl = s.bzl := by cases b <;> rfl
@[simp] theorem State.raiseIf_tlr (s : State) (b : Bool) (g : Fld) : (s.raiseIf b g).tlr = s.tlr := by cases b <;> rfl
@[simp] theorem State.raiseIf_vlt (s : State) (b : Bool) (g : Fld) : (s.raiseIf b g).vlt = s.vlt := by cases b <;> rfl
@[simp] theorem State.raiseIf_mnt (s : State) (b : Bool) (g : Fld) : (s.raiseIf b g).mnt = s.mnt := by cases b <;> rfl
@[simp] theorem State.raiseIf_adc (s : State) (b : Bool) (g : Fld) : (s.raiseIf b g).adc = s.adc := by cases b <;> rfl
@[simp] theorem State.raiseIf_dma (s : State) (b : Bool) (g : Fld) : (s.raiseIf b g).dma = s.dma := by cases b <;> rfl
@[simp] theorem State.raiseIf_dbk (s : State) (b : Bool) (g : Fld) : (s.raiseIf b g).dbk = s.dbk := by cases b <;> rfl
@[simp] theorem State.raiseIf_eth (s : State) (b : Bool) (g : Fld) : (s.raiseIf b g).eth = s.eth := by cases b <;> rfl
@[simp] theorem State.raiseIf_asy (s : State) (b : Bool) (g : Fld) : (s.raiseIf b g).asy = s.asy := by cases b <;> rfl
@[simp] theorem State.raiseIf_slo (s : State) (b : Bool) (g : Fld) : (s.raiseIf b g).slo = s.slo := by cases b <;> rfl
@[simp] theorem State.raiseIf_ic (s : State) (b : Bool) (g : Fld) : (s.raiseIf b g).ic = s.ic := by cases b <;> rfl
@[simp] theorem State.raiseIf_host (s : State) (b : Bool) (g : Fld) : (s.raiseIf b g).host = s.host := by cases b <;> rfl
@[simp] theorem State.raiseIf_health (s : State) (b : Bool) (g : Fld) : (s.raiseIf b g).health = s.health := by cases b <;> rfl
@[simp] theorem State.raiseIf_wakePin (s : State) (b : Bool) (g : Fld) : (s.raiseIf b g).wakePin = s.wakePin := by cases b <;> rfl
@[simp] theorem State.raiseIf_resetLow (s : State) (b : Bool) (g : Fld) : (s.raiseIf b g).resetLow = s.resetLow := by cases b <;> rfl
@[simp] theorem State.raiseIf_retained (s : State) (b : Bool) (g : Fld) : (s.raiseIf b g).retained = s.retained := by cases b <;> rfl
@[simp] theorem State.raiseIf_pulses (s : State) (b : Bool) (g : Fld) : (s.raiseIf b g).pulses = s.pulses := by cases b <;> rfl
@[simp] theorem State.raiseIf_out (s : State) (b : Bool) (g : Fld) : (s.raiseIf b g).out = s.out := by cases b <;> rfl
@[simp] theorem State.raiseIf_read (s : State) (b : Bool) (g : Fld) : (s.raiseIf b g).read = s.read := by cases b <;> rfl
@[simp] theorem State.raiseIf_latch (s : State) (b : Bool) (g : Fld) : (s.raiseIf b g).latch = s.latch := by cases b <;> rfl
@[simp] theorem State.raiseIf_asyEdges (s : State) (b : Bool) (g : Fld) : (s.raiseIf b g).asyEdges = s.asyEdges := by cases b <;> rfl
@[simp] theorem State.raiseIf_free (s : State) (b : Bool) (g : Fld) : (s.raiseIf b g).free = s.free := by cases b <;> rfl
@[simp] theorem State.raiseIf_inflight (s : State) (b : Bool) (g : Fld) : (s.raiseIf b g).inflight = s.inflight := by cases b <;> rfl
@[simp] theorem State.raiseIf_pending (s : State) (b : Bool) (g : Fld) : (s.raiseIf b g).pending = s.pending := by cases b <;> rfl

end Sys2Proof.Machine
end

