-- ==== Sys2Proof/Laws/Fields.lean ====
section
/-!
SUPPORT. Register words and their fields: reading a word after a write, reading a field after setting one, the canonical form kept.
-/
namespace Sys2Proof.Machine
open Sys2Proof

/-! ### Bits -/

theorem low_bits_le (x m : Nat) : m % 2 ≤ (x ||| m) % 2 := by
  have h : ((x ||| m) % 2 = 1) ↔ (x % 2 = 1 ∨ m % 2 = 1) := by
    have := Nat.testBit_or x m 0
    simp only [Nat.testBit_zero] at this
    rw [← decide_eq_true_iff (p := (x ||| m) % 2 = 1), this]
    simp
  omega

theorem testBit_or_sub (i x m : Nat) : ((x ||| m) - m).testBit i = (x.testBit i && !m.testBit i) := by
  induction i generalizing x m with
  | zero =>
    have h1 := low_bits_le x m
    have h2 : m ≤ x ||| m := Nat.right_le_or
    have h : ((x ||| m) % 2 = 1) ↔ (x % 2 = 1 ∨ m % 2 = 1) := by
      have := Nat.testBit_or x m 0
      simp only [Nat.testBit_zero] at this
      rw [← decide_eq_true_iff (p := (x ||| m) % 2 = 1), this]
      simp
    simp only [Nat.testBit_zero]
    have key : (((x ||| m) - m) % 2 = 1) ↔ (x % 2 = 1 ∧ ¬ m % 2 = 1) := by omega
    rcases Nat.mod_two_eq_zero_or_one m with hm | hm <;> simp [key, hm]
  | succ i ih =>
    have h1 := low_bits_le x m
    have h2 : m ≤ x ||| m := Nat.right_le_or
    have h3 : ((x ||| m) - m) / 2 = (x ||| m) / 2 - m / 2 := by omega
    rw [Nat.testBit_succ, h3, Nat.or_div_two, ih, Nat.testBit_succ, Nat.testBit_succ]

/-- A field lies within a word. -/
def Fld.ok (f : Fld) : Bool := decide (f.lo ≤ f.hi) && decide (f.hi < 32)

/-- The bits of a word with a field replaced. -/
theorem testBit_withField (w : Word) (f : Fld) (v i : Nat) :
    (withField w f v).toNat.testBit i =
      (decide (i < 32) && if f.lo ≤ i ∧ i < f.lo + (f.hi - f.lo + 1) then v.testBit (i - f.lo) else w.toNat.testBit i) := by
  simp only [withField, BitVec.toNat_ofNat, Nat.testBit_mod_two_pow, Nat.testBit_or, testBit_or_sub, Nat.testBit_shiftLeft,
    Nat.testBit_two_pow_sub_one]
  by_cases h32 : i < 32
  · by_cases hlo : f.lo ≤ i
    · by_cases hhi : i < f.lo + (f.hi - f.lo + 1)
      · have : i - f.lo < f.hi - f.lo + 1 := by omega
        simp [h32, hlo, hhi, this]
      · have : ¬ i - f.lo < f.hi - f.lo + 1 := by omega
        simp [h32, hlo, hhi, this]
    · simp [h32, hlo]
  · simp [h32]

theorem testBit_fieldOf (w : Word) (f : Fld) (i : Nat) :
    (fieldOf w f).testBit i = (decide (i < f.hi - f.lo + 1) && w.toNat.testBit (f.lo + i)) := by
  simp [fieldOf, Nat.testBit_mod_two_pow, Nat.testBit_shiftRight]

/-- Every field reads below its width's power of two. -/
theorem fieldOf_lt (w : Word) (f : Fld) : fieldOf w f < 2 ^ (f.hi - f.lo + 1) := Nat.mod_lt _ (Nat.two_pow_pos _)

/-- A field reads as set. -/
theorem fieldOf_withField_same (w : Word) (f : Fld) (v : Nat) (h : f.ok = true) :
    fieldOf (withField w f v) f = v % 2 ^ (f.hi - f.lo + 1) := by
  simp only [Fld.ok, Bool.and_eq_true, decide_eq_true_eq] at h
  apply Nat.eq_of_testBit_eq
  intro i
  rw [testBit_fieldOf, testBit_withField, Nat.testBit_mod_two_pow]
  by_cases hi : i < f.hi - f.lo + 1
  · have : f.lo + i < 32 := by omega
    simp [hi, this]
  · simp [hi]

/-- A field that shares no bit with the one set reads as before. -/
theorem fieldOf_withField_other (w : Word) (f g : Fld) (v : Nat) (hf : f.ok = true) (hg : g.ok = true) (h : g.hi < f.lo ∨ f.hi < g.lo) :
    fieldOf (withField w f v) g = fieldOf w g := by
  simp only [Fld.ok, Bool.and_eq_true, decide_eq_true_eq] at hf hg
  apply Nat.eq_of_testBit_eq
  intro i
  rw [testBit_fieldOf, testBit_fieldOf, testBit_withField]
  by_cases hi : i < g.hi - g.lo + 1
  · have h32 : g.lo + i < 32 := by omega
    have hn : ¬ (f.lo ≤ g.lo + i ∧ g.lo + i < f.lo + (f.hi - f.lo + 1)) := by omega
    simp [hi, h32, hn]
  · simp [hi]

/-! ### Register words -/

/-- The register words are in canonical form. -/
def State.regsWf (s : State) : Bool := Sparse.wf resetWord s.regs

theorem State.rd_wr (s : State) (off a : Nat) (w : Word) (h : s.regsWf = true) : (s.wr off w).rd a = if a = off then w else s.rd a :=
  Sparse.get_put off w a h
theorem State.rd_wr_same (s : State) (off : Nat) (w : Word) (h : s.regsWf = true) : (s.wr off w).rd off = w := Sparse.get_put_same off w h
theorem State.rd_wr_ne (s : State) {off a : Nat} (w : Word) (h : s.regsWf = true) (n : a ≠ off) : (s.wr off w).rd a = s.rd a :=
  Sparse.get_put_ne w h n

theorem State.rd_set_ne (s : State) (f : Fld) (v a : Nat) (h : s.regsWf = true) (n : a ≠ f.off) : (s.set f v).rd a = s.rd a :=
  State.rd_wr_ne s _ h n
theorem State.rd_raise_ne (s : State) (f : Fld) (a : Nat) (h : s.regsWf = true) (n : a ≠ f.off) : (s.raise f).rd a = s.rd a :=
  State.rd_wr_ne s _ h n

/-- A field reads as set. -/
theorem State.get_set_same (s : State) (f : Fld) (v : Nat) (h : s.regsWf = true) (hf : f.ok = true) :
    (s.set f v).get f = v % 2 ^ (f.hi - f.lo + 1) := by
  unfold State.get State.set
  rw [State.rd_wr_same s _ _ h, fieldOf_withField_same _ _ _ hf]

/-- A field of another word reads as before. -/
theorem State.get_set_word (s : State) (f g : Fld) (v : Nat) (h : s.regsWf = true) (n : g.off ≠ f.off) : (s.set f v).get g = s.get g := by
  unfold State.get State.set
  rw [State.rd_wr_ne s _ h n]

/-- Another field of the word reads as before. -/
theorem State.get_set_other (s : State) (f g : Fld) (v : Nat) (h : s.regsWf = true) (hf : f.ok = true) (hg : g.ok = true)
    (n : g.off = f.off) (d : g.hi < f.lo ∨ f.hi < g.lo) : (s.set f v).get g = s.get g := by
  unfold State.get State.set
  rw [n, State.rd_wr_same s _ _ h, fieldOf_withField_other _ _ _ _ hf hg d]

theorem State.get_raise (s : State) (f g : Fld) : (s.raise f).get g = (s.set f 1).get g := rfl
theorem State.flag_raise (s : State) (f g : Fld) : (s.raise f).flag g = (s.set f 1).flag g := rfl

/-- A bit reads 1 once raised. -/
theorem State.flag_raise_same (s : State) (f : Fld) (h : s.regsWf = true) (hf : f.ok = true) (hb : f.hi = f.lo) : (s.raise f).flag f = true := by
  rw [State.flag_raise, State.flag, State.get_set_same s f 1 h hf, hb]
  simp

/-! ### The canonical form of the register words -/

theorem State.regsWf_wr (s : State) (off : Nat) (w : Word) (h : s.regsWf = true) : (s.wr off w).regsWf = true := Sparse.wf_put off w h
theorem State.regsWf_wr64 (s : State) (off : Nat) (x : Dword) (h : s.regsWf = true) : (s.wr64 off x).regsWf = true :=
  State.regsWf_wr _ _ _ (State.regsWf_wr _ _ _ h)
theorem State.regsWf_set (s : State) (f : Fld) (v : Nat) (h : s.regsWf = true) : (s.set f v).regsWf = true := State.regsWf_wr _ _ _ h
theorem State.regsWf_raise (s : State) (f : Fld) (h : s.regsWf = true) : (s.raise f).regsWf = true := State.regsWf_wr _ _ _ h
theorem State.regsWf_clear (s : State) (f : Fld) (h : s.regsWf = true) : (s.clear f).regsWf = true := State.regsWf_wr _ _ _ h
theorem State.regsWf_setBool (s : State) (f : Fld) (b : Bool) (h : s.regsWf = true) : (s.setBool f b).regsWf = true := State.regsWf_wr _ _ _ h
theorem State.regsWf_incSat (s : State) (f : Fld) (h : s.regsWf = true) : (s.incSat f).regsWf = true := State.regsWf_wr _ _ _ h
theorem State.regsWf_raiseIf (s : State) (b : Bool) (f : Fld) (h : s.regsWf = true) : (s.raiseIf b f).regsWf = true := by
  cases b
  · exact h
  · exact State.regsWf_raise s f h
theorem State.regsWf_plainWrite (s : State) (off : Nat) (v : Word) (h : s.regsWf = true) : (s.plainWrite off v).regsWf = true := by
  unfold State.plainWrite
  split
  · exact h
  · exact State.regsWf_wr _ _ _ h
theorem State.regsWf_fault (s : State) (k : FaultBit) (h : s.regsWf = true) : (s.fault k).regsWf = true := by
  have key : ∀ t : State, t.regsWf = true → (t.raise (bitFld FLT_STAT k.num)).regsWf = true := fun t ht => State.regsWf_raise t _ ht
  have first : ∀ t : State, t.regsWf = true →
      (if t.flag FLT_FIRST.valid then t else ((t.raise FLT_FIRST.valid).set FLT_FIRST.bit k.num).wr64 FLT_FIRST_TIME t.now).regsWf = true := by
    intro t ht
    split
    · exact ht
    · exact State.regsWf_wr64 _ _ _ (State.regsWf_set _ _ _ (State.regsWf_raise _ _ ht))
  unfold State.fault
  dsimp only
  split
  · exact key _ (first s h)
  · exact key _ (first s h)

/-- The whole canonical form, when only register words differ. -/
theorem State.wf_of_regs {s t : State} (h : s.wf = true) (r : t.regsWf = true) (v : t.vlt = s.vlt) (d : t.dbk = s.dbk) (p : t.tlr.prog = s.tlr.prog) :
    t.wf = true := by
  simp only [State.wf, Bool.and_eq_true, Teller.wf] at *
  exact ⟨⟨⟨r, v ▸ h.1.1.2⟩, d ▸ h.1.2⟩, p ▸ h.2⟩

theorem State.regsWf_of_wf {s : State} (h : s.wf = true) : s.regsWf = true := by
  simp only [State.wf, Bool.and_eq_true] at h
  exact h.1.1.1

end Sys2Proof.Machine
end

