-- ==== Sys2Proof/Laws/Memory.lean ====
section
/-!
SUPPORT. The memories: what a byte reads after a write, and the canonical form that every memory operation keeps.
-/
namespace Sys2Proof.Machine
open Sys2Proof

theorem foldl_keeps {α σ : Type} (P : σ → Prop) (f : σ → α → σ) (l : List α) (s : σ) (h : P s) (k : ∀ s a, P s → P (f s a)) : P (l.foldl f s) := by
  induction l generalizing s with
  | nil => exact h
  | cons a r ih => exact ih _ (k _ _ h)

/-- What every instance of a repeated step keeps, all of them keep. -/
theorem forAll_keeps (P : State → Prop) {n : Nat} (f : Fin n → State → State) (s : State) (h : P s) (k : ∀ i s, P s → P (f i s)) : P (forAll n f s) :=
  foldl_keeps P _ _ s h fun _ _ => k _ _

/-! ### The Vault (R253, R254) -/

theorem Vault.wf_iff (x : Vault) : x.wf = true ↔ Sparse.wf zeroByte x.mem = true ∧ Sparse.wf noPoison x.poison = true := by
  simp [Vault.wf]

theorem Vault.wf_put (x : Vault) (a : Nat) (b : Byte) (h : x.wf = true) : (x.put a b).wf = true := by
  rw [Vault.wf_iff] at *
  exact ⟨Sparse.wf_put a b h.1, h.2⟩

theorem Vault.wf_mark (x : Vault) (w : Nat) (p : Bool) (h : x.wf = true) : (x.mark w p).wf = true := by
  rw [Vault.wf_iff] at *
  exact ⟨h.1, Sparse.wf_put w p h.2⟩

theorem Vault.wf_putMasked (x : Vault) (a : Nat) (l : List (Option Byte)) (h : x.wf = true) : (x.putMasked a l).wf = true := by
  induction l generalizing x a with
  | nil => exact h
  | cons b r ih =>
    cases b with
    | none => exact ih x _ h
    | some v => exact ih _ _ (x.wf_put a v h)

/-- A byte after one is written. -/
theorem Vault.byte_put (x : Vault) (a j : Nat) (b : Byte) (h : x.wf = true) : (x.put a b).byte j = if j = a then b else x.byte j :=
  Sparse.get_put a b j ((x.wf_iff).1 h).1

/-- Bytes outside those written read as before. -/
theorem Vault.byte_putMasked_out (x : Vault) (a j : Nat) (l : List (Option Byte)) (h : x.wf = true) (n : j < a ∨ a + l.length ≤ j) :
    (x.putMasked a l).byte j = x.byte j := by
  induction l generalizing x a with
  | nil => rfl
  | cons b r ih =>
    simp only [List.length_cons] at n
    cases b with
    | none => exact ih x (a + 1) h (by omega)
    | some v =>
      rw [Vault.putMasked, ih _ _ (x.wf_put a v h) (by omega), x.byte_put a j v h, if_neg (by omega)]

/-- A byte that is written reads as written, and one whose enable is off as before. -/
theorem Vault.byte_putMasked_in (x : Vault) (a k : Nat) (l : List (Option Byte)) (h : x.wf = true) (n : k < l.length) :
    (x.putMasked a l).byte (a + k) = (l[k]).getD (x.byte (a + k)) := by
  induction l generalizing x a k with
  | nil => simp at n
  | cons b r ih =>
    cases k with
    | zero =>
      cases b with
      | none => exact x.byte_putMasked_out (a + 1) (a + 0) r h (by omega)
      | some v =>
        rw [Vault.putMasked, Vault.byte_putMasked_out _ _ _ _ (x.wf_put a v h) (by omega), x.byte_put a _ v h, if_pos (by omega)]
        rfl
    | succ k =>
      simp only [List.length_cons] at n
      have e : a + (k + 1) = a + 1 + k := by omega
      simp only [e, List.getElem_cons_succ]
      cases b with
      | none => exact ih x (a + 1) k h (by omega)
      | some v =>
        rw [Vault.putMasked, ih _ _ k (x.wf_put a v h) (by omega), x.byte_put a _ v h, if_neg (by omega)]

/-- A whole word written is a word read. -/
theorem Vault.poisoned_mark (x : Vault) (w v : Nat) (p : Bool) (h : x.wf = true) : (x.mark w p).poisoned v = if v = w then p else x.poisoned v :=
  Sparse.get_put w p v ((x.wf_iff).1 h).2

@[simp] theorem Vault.byte_mark (x : Vault) (w j : Nat) (p : Bool) : (x.mark w p).byte j = x.byte j := rfl
@[simp] theorem Vault.poisoned_put (x : Vault) (a w : Nat) (b : Byte) : (x.put a b).poisoned w = x.poisoned w := rfl

/-! ### The canonical form, part by part -/

theorem State.wf_iff (s : State) : s.wf = true ↔ s.regsWf = true ∧ s.vlt.wf = true ∧ s.dbk.wf = true ∧ s.tlr.wf = true := by
  simp [State.wf, State.regsWf, and_assoc]

theorem State.wf_modVlt (s : State) (f : Vault → Vault) (h : s.wf = true) (k : ∀ x : Vault, x.wf = true → (f x).wf = true) : (s.modVlt f).wf = true := by
  rw [State.wf_iff] at *
  exact ⟨h.1, k _ h.2.1, h.2.2⟩

theorem State.wf_wr (s : State) (off : Nat) (w : Word) (h : s.wf = true) : (s.wr off w).wf = true := by
  rw [State.wf_iff] at *
  exact ⟨State.regsWf_wr s off w h.1, h.2⟩
theorem State.wf_wr64 (s : State) (off : Nat) (x : Dword) (h : s.wf = true) : (s.wr64 off x).wf = true :=
  State.wf_wr _ _ _ (State.wf_wr _ _ _ h)
theorem State.wf_set (s : State) (f : Fld) (v : Nat) (h : s.wf = true) : (s.set f v).wf = true := State.wf_wr _ _ _ h
theorem State.wf_raise (s : State) (f : Fld) (h : s.wf = true) : (s.raise f).wf = true := State.wf_wr s _ _ h
theorem State.wf_incSat (s : State) (f : Fld) (h : s.wf = true) : (s.incSat f).wf = true := State.wf_wr _ _ _ h

theorem State.fault_rest (s : State) (k : FaultBit) :
    (s.fault k).vlt = s.vlt ∧ (s.fault k).dbk = s.dbk ∧ (s.fault k).tlr = s.tlr := by
  unfold State.fault
  dsimp only
  split <;> split <;> exact ⟨rfl, rfl, rfl⟩
theorem State.wf_fault (s : State) (k : FaultBit) (h : s.wf = true) : (s.fault k).wf = true := by
  obtain ⟨hv, hd, ht⟩ := s.fault_rest k
  rw [State.wf_iff] at *
  exact ⟨State.regsWf_fault s k h.1, hv ▸ h.2.1, hd ▸ h.2.2.1, ht ▸ h.2.2.2⟩

/-! ### Operations at the bank (R254, R260, R262, R264, R408) -/

theorem mergePoison_wf (a : Nat) (l : List (Option Byte)) (s : State) (h : s.wf = true) : (mergePoison a l s).wf = true := by
  unfold mergePoison
  apply foldl_keeps (fun s : State => s.wf = true) _ _ s h
  intro t k ht
  dsimp only
  split
  · exact ht
  · split
    · exact State.wf_modVlt t _ ht fun x hx => x.wf_mark _ _ hx
    · split
      · exact State.wf_raise t _ ht
      · exact ht

theorem mergePoison_mem (a : Nat) (l : List (Option Byte)) (s : State) : (mergePoison a l s).vlt.mem = s.vlt.mem := by
  unfold mergePoison
  apply foldl_keeps (fun t : State => t.vlt.mem = s.vlt.mem) _ _ s rfl
  intro t k ht
  dsimp only
  split
  · exact ht
  · split
    · exact ht
    · split
      · exact ht
      · exact ht

theorem vltUncorr_wf (code w : Nat) (s : State) (h : s.wf = true) : (vltUncorr code w s).wf = true := by
  have h1 := State.wf_incSat _ VLT_ECC_CNT.uncorr_count (State.wf_raise _ VLT_STAT.uncorr (State.wf_modVlt s (fun x => x.mark w true) h fun x hx => x.wf_mark _ _ hx))
  unfold vltUncorr
  dsimp only
  split
  · exact h
  · apply State.wf_fault
    split
    · exact h1
    · exact State.wf_raise _ _ (State.wf_wr _ _ _ h1)

theorem vltCorr_wf (w : Nat) (s : State) (h : s.wf = true) : (vltCorr w s).wf = true := by
  unfold vltCorr
  exact State.wf_fault _ _ (State.wf_modVlt _ _ (State.wf_incSat _ _ (State.wf_raise _ _ h)) fun _ hx => hx)

theorem lineCheck_wf (code line : Nat) (e : LineEcc) (s : State) (h : s.wf = true) : (lineCheck code line e s).wf = true := by
  unfold lineCheck
  apply forAll_keeps (fun s => s.wf = true) _ s h
  intro i t ht
  split
  · exact vltUncorr_wf _ _ t ht
  · split
    · exact vltCorr_wf _ t ht
    · exact ht

theorem vltUncorr_mem (code w : Nat) (s : State) : (vltUncorr code w s).vlt.mem = s.vlt.mem := by
  unfold vltUncorr
  dsimp only
  split
  · rfl
  · rw [State.fault_vlt]
    split <;> rfl

theorem vltCorr_mem (w : Nat) (s : State) : (vltCorr w s).vlt.mem = s.vlt.mem := by
  unfold vltCorr
  rw [State.fault_vlt]
  rfl

/-- The check of a line changes no byte: it corrects what is read, and marks words. -/
theorem lineCheck_mem (code line : Nat) (e : LineEcc) (s : State) : (lineCheck code line e s).vlt.mem = s.vlt.mem := by
  unfold lineCheck
  apply forAll_keeps (fun t => t.vlt.mem = s.vlt.mem) _ s rfl
  intro i t ht
  split
  · rw [vltUncorr_mem, ht]
  · split
    · rw [vltCorr_mem, ht]
    · exact ht

theorem bankStore_wf (code a : Nat) (l : List (Option Byte)) (e : LineEcc) (s : State) (h : s.wf = true) : (bankStore code a l e s).wf = true := by
  unfold bankStore
  exact State.wf_modVlt _ _ (mergePoison_wf a l _ (lineCheck_wf _ _ _ s h)) fun x hx => x.wf_putMasked a l hx

theorem bankWrite_wf (code a : Nat) (l : List (Option Byte)) (e : LineEcc) (s : State) (h : s.wf = true) : (bankWrite code a l e s).wf = true := by
  unfold bankWrite
  split
  · exact State.wf_raise s _ h
  · exact bankStore_wf code a l e s h

/-- The bytes at the bank just before a write puts its own there. -/
theorem storeBase_wf (code a : Nat) (l : List (Option Byte)) (e : LineEcc) (s : State) (h : s.wf = true) :
    (mergePoison a l (lineCheck code (a / 32) (partWords a l e) s)).vlt.wf = true :=
  ((State.wf_iff _).1 (mergePoison_wf a l _ (lineCheck_wf _ _ _ s h))).2.1
theorem storeBase_byte (code a j : Nat) (l : List (Option Byte)) (e : LineEcc) (s : State) :
    (mergePoison a l (lineCheck code (a / 32) (partWords a l e) s)).vlt.byte j = s.vlt.byte j := by
  simp only [Vault.byte, mergePoison_mem, lineCheck_mem]

/-- A write at the bank changes no byte outside those it writes. -/
theorem bankStore_out (code a j : Nat) (l : List (Option Byte)) (e : LineEcc) (s : State) (h : s.wf = true) (n : j < a ∨ a + l.length ≤ j) :
    (bankStore code a l e s).vlt.byte j = s.vlt.byte j := by
  rw [← storeBase_byte code a j l e s, ← Vault.byte_putMasked_out _ a j l (storeBase_wf code a l e s h) n]
  rfl

theorem bankWrite_out (code a j : Nat) (l : List (Option Byte)) (e : LineEcc) (s : State) (h : s.wf = true) (n : j < a ∨ a + l.length ≤ j) :
    (bankWrite code a l e s).vlt.byte j = s.vlt.byte j := by
  unfold bankWrite
  split
  · rfl
  · exact bankStore_out code a j l e s h n

/-- A byte written at the bank reads as written, and one whose enable is off as before. -/
theorem bankStore_in (code a k : Nat) (l : List (Option Byte)) (e : LineEcc) (s : State) (h : s.wf = true) (n : k < l.length) :
    (bankStore code a l e s).vlt.byte (a + k) = (l[k]).getD (s.vlt.byte (a + k)) := by
  rw [← storeBase_byte code a (a + k) l e s, ← Vault.byte_putMasked_in _ a k l (storeBase_wf code a l e s h) n]
  rfl

theorem poisonRead_wf (s : State) (h : s.wf = true) : (poisonRead s).wf = true := State.wf_fault _ _ (State.wf_raise _ _ h)

theorem countSlot_wf (c : Nat) (s : State) (h : s.wf = true) : (countSlot c s).wf = true := State.wf_modVlt s _ h fun _ hx => hx
@[simp] theorem countSlot_byte (c j : Nat) (s : State) : (countSlot c s).vlt.byte j = s.vlt.byte j := rfl
@[simp] theorem countSlot_regs (c : Nat) (s : State) : (countSlot c s).regs = s.regs := rfl

theorem bankAtomic_wf (code w : Nat) (swap : Bool) (v : Dword) (e : LineEcc) (s : State) (h : s.wf = true) :
    (bankAtomic code w swap v e s).2.wf = true := by
  have h1 := lineCheck_wf code (w / 4) (eccWord e w) s h
  unfold bankAtomic
  dsimp only
  split
  · exact poisonRead_wf _ h1
  · dsimp only
    split
    · exact bankStore_wf _ _ _ _ _ h1
    · exact bankWrite_wf _ _ _ _ _ h1

theorem bankRead_wf (code a n : Nat) (e : LineEcc) (s : State) (h : s.wf = true) : (bankRead code a n e s).2.2.wf = true := by
  have h1 := lineCheck_wf code (a / 32) e _ (countSlot_wf code s h)
  unfold bankRead
  dsimp only
  split
  · exact poisonRead_wf _ h1
  · exact h1

/-! ### The Daybook's memory (R311) -/

theorem Daybook.wf_put (x : Daybook) (a : Nat) (b : Byte) (h : x.wf = true) : (x.put a b).wf = true := Sparse.wf_put a b h

theorem Daybook.wf_putMasked (x : Daybook) (a : Nat) (l : List (Option Byte)) (h : x.wf = true) : (x.putMasked a l).wf = true := by
  induction l generalizing x a with
  | nil => exact h
  | cons b r ih =>
    cases b with
    | none => exact ih x _ h
    | some v => exact ih _ _ (x.wf_put a v h)

theorem Daybook.byte_put (x : Daybook) (a j : Nat) (b : Byte) (h : x.wf = true) : (x.put a b).byte j = if j = a then b else x.byte j :=
  Sparse.get_put a b j h

theorem Daybook.byte_putMasked_out (x : Daybook) (a j : Nat) (l : List (Option Byte)) (h : x.wf = true) (n : j < a ∨ a + l.length ≤ j) :
    (x.putMasked a l).byte j = x.byte j := by
  induction l generalizing x a with
  | nil => rfl
  | cons b r ih =>
    simp only [List.length_cons] at n
    cases b with
    | none => exact ih x (a + 1) h (by omega)
    | some v =>
      rw [Daybook.putMasked, ih _ _ (x.wf_put a v h) (by omega), x.byte_put a j v h, if_neg (by omega)]

/-! ### The program store (R141) -/

theorem progPut_wf (i : BitVec 16) (v : Word) (s : State) (h : s.wf = true) : (progPut i v s).wf = true := by
  rw [State.wf_iff] at *
  exact ⟨h.1, h.2.1, h.2.2.1, Sparse.wf_put _ v h.2.2.2⟩

/-- An instruction word reads as stored, and every other as before. -/
theorem program_progPut (i j : BitVec 16) (v : Word) (s : State) (h : s.wf = true) : (progPut i v s).program j = if j = i then v else s.program j := by
  have := Sparse.get_put (d := fun _ => (0 : Word)) i.toNat v j.toNat ((s.wf_iff.1 h).2.2.2)
  simp only [State.program, progPut, State.modTlr, this, BitVec.toNat_inj]

end Sys2Proof.Machine
end

