-- ==== Sys2Proof/Laws/Engine.lean ====
section
/-!
SUPPORT. Issue of channel instructions, in the terms of the statements: what a routine meets when its instruction issues and how it
goes on.
-/
namespace Sys2Proof.Machine
open Sys2Proof

/-- On an engine that runs no routine, an instruction does nothing. -/
theorem runOn_idle (e : Fin 17) (f : Routine → State → State) (s : State) (h : s.routine e = none) : runOn e f s = s := by
  simp [runOn, h]

/-- A routine that can not issue goes on as it was. -/
theorem runOn_held (e : Fin 17) (f : Routine → State → State) {r : Routine} {s : State} (h : s.routine e = some r) (n : r.canIssue = false) :
    runOn e f s = s := by
  simp [runOn, h, n]

/-- Past the budget, while an access waits, and inside a Mint instruction, a routine can not issue. -/
theorem canIssue_iff (r : Routine) : r.canIssue = true ↔ r.count ≤ r.budget ∧ r.acc = none ∧ r.micro = none := by
  simp [Routine.canIssue, and_assoc]

theorem begins_eq (r : Routine) (s : State) : begins r s = begun r s := rfl

/-- An instruction that issues. -/
theorem runOn_issues (e : Fin 17) (f : Routine → State → State) {r : Routine} {s : State} (h : Issues e r s) : runOn e f s = f r (begun r s) := by
  obtain ⟨h, n⟩ := h
  simp [runOn, h, (canIssue_iff r).2 n, begins_eq]

theorem finish_eq (e : Fin 17) (r : Routine) (cost : Nat) (s : State) : finish e r cost s = retire e cost (r.pc + 1) r s := rfl
theorem jump_eq (e : Fin 17) (r : Routine) (target : BitVec 16) (s : State) : jump e r target s = retire e 4 target r s := rfl

/-- A routine with room stages its effect and goes on (R159). -/
theorem stageThen_room (e : Fin 17) (r : Routine) (cost : Nat) (x : Effect) (s : State) (h : r.stage.length < 32) :
    stageThen e r cost x s = finish e { r with stage := r.stage ++ [x] } cost s := by
  simp [stageThen, Nat.not_le.2 h]

/-- A 33rd effect aborts the routine (R159). -/
theorem stageThen_full (e : Fin 17) (r : Routine) (cost : Nat) (x : Effect) (s : State) (h : 32 ≤ r.stage.length) :
    stageThen e r cost x s = abortTop e 2 s := by
  simp [stageThen, h]

/-! What the beginning of a routine leaves as it is. -/

@[simp] theorem begun_regs (r : Routine) (s : State) : (begun r s).regs = s.regs := by unfold begun; split <;> rfl
@[simp] theorem begun_vlt (r : Routine) (s : State) : (begun r s).vlt = s.vlt := by unfold begun; split <;> rfl
@[simp] theorem begun_dbk (r : Routine) (s : State) : (begun r s).dbk = s.dbk := by unfold begun; split <;> rfl
@[simp] theorem begun_tb (r : Routine) (s : State) : (begun r s).tb = s.tb := by unfold begun; split <;> rfl
@[simp] theorem begun_eng (r : Routine) (s : State) : (begun r s).tlr.eng = s.tlr.eng := by unfold begun; split <;> rfl
@[simp] theorem begun_prog (r : Routine) (s : State) : (begun r s).tlr.prog = s.tlr.prog := by unfold begun; split <;> rfl
@[simp] theorem begun_rd (r : Routine) (s : State) (off : Nat) : (begun r s).rd off = s.rd off := by unfold begun; split <;> rfl

theorem begun_later (r : Routine) (s : State) (h : r.count ≠ 1) : begun r s = s := by simp [begun, h]

/-- The same routine runs on. -/
theorem begun_routine (r : Routine) (s : State) (e : Fin 17) : (begun r s).routine e = s.routine e := by unfold begun; split <;> rfl

theorem begun_wf (r : Routine) (s : State) (h : s.wf = true) : (begun r s).wf = true := by
  rw [State.wf_iff] at *
  simpa [State.regsWf, Teller.wf] using h

end Sys2Proof.Machine
end

