-- ==== Sys2Proof/Laws/PerInstr.lean ====
section
/-!
SUPPORT. A statement for every command: no word of the table spells it, because the table gives its rows no bits.
-/
namespace Sys2Proof.Laws
open Sys2Proof

/-- No word spells the command. -/
def NoWord.Statement (i : Instr) : Prop := ∀ nbits w, decodeTableWord nbits w ≠ some i

theorem NoWord.of_none (i : Instr) : NoWord.Statement i := fun _ _ h => by cases h

theorem NoWord.registerWrite (off : Nat) (v : Word) : NoWord.Statement (.registerWrite off v) := NoWord.of_none _
theorem NoWord.go (late : Bool) : NoWord.Statement (.go late) := NoWord.of_none _
theorem NoWord.counterWrap (n : Fin 32) : NoWord.Statement (.counterWrap n) := NoWord.of_none _
theorem NoWord.compareWrite (n : Fin 32) (k : Fin 4) (v : Word) : NoWord.Statement (.compareWrite n k v) := NoWord.of_none _
theorem NoWord.compareDisarm (n : Fin 32) (k : Fin 4) : NoWord.Statement (.compareDisarm n k) := NoWord.of_none _
theorem NoWord.counterMatch (n : Fin 32) (k : Fin 4) : NoWord.Statement (.counterMatch n k) := NoWord.of_none _
theorem NoWord.goatReceive (origin : Fin 64) (cancel : Bool) (tally : Dword) : NoWord.Statement (.goatReceive origin cancel tally) := NoWord.of_none _
theorem NoWord.noticeReceive (kind : Notice) : NoWord.Statement (.noticeReceive kind) := NoWord.of_none _
theorem NoWord.armedEntryArrival (n : Fin 256) (x : ArmSpec) : NoWord.Statement (.armedEntryArrival n x) := NoWord.of_none _
theorem NoWord.facetCompareMatch (n : Fin 256) : NoWord.Statement (.facetCompareMatch n) := NoWord.of_none _
theorem NoWord.facetCancel (n : Fin 256) (tag : Byte) : NoWord.Statement (.facetCancel n tag) := NoWord.of_none _
theorem NoWord.facetFlush (n : Fin 256) : NoWord.Statement (.facetFlush n) := NoWord.of_none _
theorem NoWord.facetSafe (n : Fin 256) : NoWord.Statement (.facetSafe n) := NoWord.of_none _
theorem NoWord.facetRelease (n : Fin 256) : NoWord.Statement (.facetRelease n) := NoWord.of_none _
theorem NoWord.edgeAccept (n : Fin 256) : NoWord.Statement (.edgeAccept n) := NoWord.of_none _
theorem NoWord.muteEnd (n : Fin 256) : NoWord.Statement (.muteEnd n) := NoWord.of_none _
theorem NoWord.stuckDetect (n : Fin 256) : NoWord.Statement (.stuckDetect n) := NoWord.of_none _
theorem NoWord.captureRemoval (q : CapQueue) (count : Nat) : NoWord.Statement (.captureRemoval q count) := NoWord.of_none _
theorem NoWord.primaryEdgeDecision (d : Fin 8) : NoWord.Statement (.primaryEdgeDecision d) := NoWord.of_none _
theorem NoWord.secondaryEdgeDecision (d : Fin 8) : NoWord.Statement (.secondaryEdgeDecision d) := NoWord.of_none _
theorem NoWord.limpWatchStart (d : Fin 8) : NoWord.Statement (.limpWatchStart d) := NoWord.of_none _
theorem NoWord.overdue (d : Fin 8) : NoWord.Statement (.overdue d) := NoWord.of_none _
theorem NoWord.keepExpiry (d : Fin 8) : NoWord.Statement (.keepExpiry d) := NoWord.of_none _
theorem NoWord.whlEdgeAccept (n : Fin 8) : NoWord.Statement (.whlEdgeAccept n) := NoWord.of_none _
theorem NoWord.whlMuteEnd (n : Fin 8) : NoWord.Statement (.whlMuteEnd n) := NoWord.of_none _
theorem NoWord.whlStuckDetect (n : Fin 8) : NoWord.Statement (.whlStuckDetect n) := NoWord.of_none _
theorem NoWord.vrPeakTimeout (n : Fin 8) : NoWord.Statement (.vrPeakTimeout n) := NoWord.of_none _
theorem NoWord.draftArrival (d : Fin 8) (k : Fin 256) (x : DraftSpec) : NoWord.Statement (.draftArrival d k x) := NoWord.of_none _
theorem NoWord.draftCancelArrival (d : Fin 8) (k : Fin 256) (ch : Fin 512) : NoWord.Statement (.draftCancelArrival d k ch) := NoWord.of_none _
theorem NoWord.draftFreeArrival (d : Fin 8) (k : Fin 256) (ch : Fin 512) : NoWord.Statement (.draftFreeArrival d k ch) := NoWord.of_none _
theorem NoWord.mirrorCellDecision (d : Fin 8) : NoWord.Statement (.mirrorCellDecision d) := NoWord.of_none _
theorem NoWord.coastSynthesis (d : Fin 8) : NoWord.Statement (.coastSynthesis d) := NoWord.of_none _
theorem NoWord.coastEnd (d : Fin 8) : NoWord.Statement (.coastEnd d) := NoWord.of_none _
theorem NoWord.wakeTimeReached (ch : Fin 512) : NoWord.Statement (.wakeTimeReached ch) := NoWord.of_none _
theorem NoWord.dispatch (q : Fin 4) (ctx : Ecc) (fetch : Ecc) : NoWord.Statement (.dispatch q ctx fetch) := NoWord.of_none _
theorem NoWord.preemption (ctx : Ecc) (fetch : Ecc) : NoWord.Statement (.preemption ctx fetch) := NoWord.of_none _
theorem NoWord.budgetAbort (e : Fin 17) : NoWord.Statement (.budgetAbort e) := NoWord.of_none _
theorem NoWord.commitVaultWrite (ecc : LineEcc) : NoWord.Statement (.commitVaultWrite ecc) := NoWord.of_none _
theorem NoWord.psRewriteDone (c : Fin 4) (pass : Bool) : NoWord.Statement (.psRewriteDone c pass) := NoWord.of_none _
theorem NoWord.illegalInstruction (e : Fin 17) : NoWord.Statement (.illegalInstruction e) := NoWord.of_none _
theorem NoWord.nop (e : Fin 17) : NoWord.Statement (.nop e) := NoWord.of_none _
theorem NoWord.mov (e : Fin 17) (d : Fin 16) (a : Fin 16) : NoWord.Statement (.mov e d a) := NoWord.of_none _
theorem NoWord.add (e : Fin 17) (d : Fin 16) (a : Fin 16) (b : Fin 16) : NoWord.Statement (.add e d a b) := NoWord.of_none _
theorem NoWord.sub (e : Fin 17) (d : Fin 16) (a : Fin 16) (b : Fin 16) : NoWord.Statement (.sub e d a b) := NoWord.of_none _
theorem NoWord.and (e : Fin 17) (d : Fin 16) (a : Fin 16) (b : Fin 16) : NoWord.Statement (.and e d a b) := NoWord.of_none _
theorem NoWord.or (e : Fin 17) (d : Fin 16) (a : Fin 16) (b : Fin 16) : NoWord.Statement (.or e d a b) := NoWord.of_none _
theorem NoWord.xor (e : Fin 17) (d : Fin 16) (a : Fin 16) (b : Fin 16) : NoWord.Statement (.xor e d a b) := NoWord.of_none _
theorem NoWord.shl (e : Fin 17) (d : Fin 16) (a : Fin 16) (b : Fin 16) : NoWord.Statement (.shl e d a b) := NoWord.of_none _
theorem NoWord.shr (e : Fin 17) (d : Fin 16) (a : Fin 16) (b : Fin 16) : NoWord.Statement (.shr e d a b) := NoWord.of_none _
theorem NoWord.sar (e : Fin 17) (d : Fin 16) (a : Fin 16) (b : Fin 16) : NoWord.Statement (.sar e d a b) := NoWord.of_none _
theorem NoWord.mul (e : Fin 17) (d : Fin 16) (a : Fin 16) (b : Fin 16) : NoWord.Statement (.mul e d a b) := NoWord.of_none _
theorem NoWord.mulhu (e : Fin 17) (d : Fin 16) (a : Fin 16) (b : Fin 16) : NoWord.Statement (.mulhu e d a b) := NoWord.of_none _
theorem NoWord.mulsh (e : Fin 17) (d : Fin 16) (a : Fin 16) (b : Fin 16) : NoWord.Statement (.mulsh e d a b) := NoWord.of_none _
theorem NoWord.divu (e : Fin 17) (d : Fin 16) (a : Fin 16) (b : Fin 16) : NoWord.Statement (.divu e d a b) := NoWord.of_none _
theorem NoWord.remu (e : Fin 17) (d : Fin 16) (a : Fin 16) (b : Fin 16) : NoWord.Statement (.remu e d a b) := NoWord.of_none _
theorem NoWord.cmp (e : Fin 17) (a : Fin 16) (b : Fin 16) : NoWord.Statement (.cmp e a b) := NoWord.of_none _
theorem NoWord.tst (e : Fin 17) (a : Fin 16) (b : Fin 16) : NoWord.Statement (.tst e a b) := NoWord.of_none _
theorem NoWord.minu (e : Fin 17) (d : Fin 16) (a : Fin 16) (b : Fin 16) : NoWord.Statement (.minu e d a b) := NoWord.of_none _
theorem NoWord.maxu (e : Fin 17) (d : Fin 16) (a : Fin 16) (b : Fin 16) : NoWord.Statement (.maxu e d a b) := NoWord.of_none _
theorem NoWord.mins (e : Fin 17) (d : Fin 16) (a : Fin 16) (b : Fin 16) : NoWord.Statement (.mins e d a b) := NoWord.of_none _
theorem NoWord.maxs (e : Fin 17) (d : Fin 16) (a : Fin 16) (b : Fin 16) : NoWord.Statement (.maxs e d a b) := NoWord.of_none _
theorem NoWord.ext (e : Fin 17) (d : Fin 16) (a : Fin 16) (func : BitVec 12) : NoWord.Statement (.ext e d a func) := NoWord.of_none _
theorem NoWord.ins (e : Fin 17) (d : Fin 16) (a : Fin 16) (func : BitVec 12) : NoWord.Statement (.ins e d a func) := NoWord.of_none _
theorem NoWord.addi (e : Fin 17) (d : Fin 16) (a : Fin 16) (imm : BitVec 16) : NoWord.Statement (.addi e d a imm) := NoWord.of_none _
theorem NoWord.andi (e : Fin 17) (d : Fin 16) (a : Fin 16) (imm : BitVec 16) : NoWord.Statement (.andi e d a imm) := NoWord.of_none _
theorem NoWord.ori (e : Fin 17) (d : Fin 16) (a : Fin 16) (imm : BitVec 16) : NoWord.Statement (.ori e d a imm) := NoWord.of_none _
theorem NoWord.xori (e : Fin 17) (d : Fin 16) (a : Fin 16) (imm : BitVec 16) : NoWord.Statement (.xori e d a imm) := NoWord.of_none _
theorem NoWord.shli (e : Fin 17) (d : Fin 16) (a : Fin 16) (imm : BitVec 16) : NoWord.Statement (.shli e d a imm) := NoWord.of_none _
theorem NoWord.shri (e : Fin 17) (d : Fin 16) (a : Fin 16) (imm : BitVec 16) : NoWord.Statement (.shri e d a imm) := NoWord.of_none _
theorem NoWord.sari (e : Fin 17) (d : Fin 16) (a : Fin 16) (imm : BitVec 16) : NoWord.Statement (.sari e d a imm) := NoWord.of_none _
theorem NoWord.muli (e : Fin 17) (d : Fin 16) (a : Fin 16) (imm : BitVec 16) : NoWord.Statement (.muli e d a imm) := NoWord.of_none _
theorem NoWord.cmpi (e : Fin 17) (a : Fin 16) (imm : BitVec 16) : NoWord.Statement (.cmpi e a imm) := NoWord.of_none _
theorem NoWord.cmpui (e : Fin 17) (a : Fin 16) (imm : BitVec 16) : NoWord.Statement (.cmpui e a imm) := NoWord.of_none _
theorem NoWord.ldi (e : Fin 17) (d : Fin 16) (imm : BitVec 16) : NoWord.Statement (.ldi e d imm) := NoWord.of_none _
theorem NoWord.movk (e : Fin 17) (d : Fin 16) (k : BitVec 4) (imm : BitVec 16) : NoWord.Statement (.movk e d k imm) := NoWord.of_none _
theorem NoWord.b (e : Fin 17) (off : BitVec 24) : NoWord.Statement (.b e off) := NoWord.of_none _
theorem NoWord.call (e : Fin 17) (off : BitVec 24) : NoWord.Statement (.call e off) := NoWord.of_none _
theorem NoWord.jr (e : Fin 17) (a : Fin 16) : NoWord.Statement (.jr e a) := NoWord.of_none _
theorem NoWord.beq (e : Fin 17) (off : BitVec 24) : NoWord.Statement (.beq e off) := NoWord.of_none _
theorem NoWord.bne (e : Fin 17) (off : BitVec 24) : NoWord.Statement (.bne e off) := NoWord.of_none _
theorem NoWord.blt (e : Fin 17) (off : BitVec 24) : NoWord.Statement (.blt e off) := NoWord.of_none _
theorem NoWord.bge (e : Fin 17) (off : BitVec 24) : NoWord.Statement (.bge e off) := NoWord.of_none _
theorem NoWord.bgt (e : Fin 17) (off : BitVec 24) : NoWord.Statement (.bgt e off) := NoWord.of_none _
theorem NoWord.ble (e : Fin 17) (off : BitVec 24) : NoWord.Statement (.ble e off) := NoWord.of_none _
theorem NoWord.blo (e : Fin 17) (off : BitVec 24) : NoWord.Statement (.blo e off) := NoWord.of_none _
theorem NoWord.bhs (e : Fin 17) (off : BitVec 24) : NoWord.Statement (.bhs e off) := NoWord.of_none _
theorem NoWord.bhi (e : Fin 17) (off : BitVec 24) : NoWord.Statement (.bhi e off) := NoWord.of_none _
theorem NoWord.bls (e : Fin 17) (off : BitVec 24) : NoWord.Statement (.bls e off) := NoWord.of_none _
theorem NoWord.bmi (e : Fin 17) (off : BitVec 24) : NoWord.Statement (.bmi e off) := NoWord.of_none _
theorem NoWord.bpl (e : Fin 17) (off : BitVec 24) : NoWord.Statement (.bpl e off) := NoWord.of_none _
theorem NoWord.bvs (e : Fin 17) (off : BitVec 24) : NoWord.Statement (.bvs e off) := NoWord.of_none _
theorem NoWord.bvc (e : Fin 17) (off : BitVec 24) : NoWord.Statement (.bvc e off) := NoWord.of_none _
theorem NoWord.blate (e : Fin 17) (off : BitVec 24) : NoWord.Statement (.blate e off) := NoWord.of_none _
theorem NoWord.bnlate (e : Fin 17) (off : BitVec 24) : NoWord.Statement (.bnlate e off) := NoWord.of_none _
theorem NoWord.bqe (e : Fin 17) (off : BitVec 24) : NoWord.Statement (.bqe e off) := NoWord.of_none _
theorem NoWord.bnqe (e : Fin 17) (off : BitVec 24) : NoWord.Statement (.bnqe e off) := NoWord.of_none _
theorem NoWord.ldw (e : Fin 17) (d : Fin 16) (a : Fin 16) (imm : BitVec 16) : NoWord.Statement (.ldw e d a imm) := NoWord.of_none _
theorem NoWord.ldd (e : Fin 17) (d : Fin 16) (a : Fin 16) (imm : BitVec 16) : NoWord.Statement (.ldd e d a imm) := NoWord.of_none _
theorem NoWord.ldh (e : Fin 17) (a : Fin 16) (imm : BitVec 16) : NoWord.Statement (.ldh e a imm) := NoWord.of_none _
theorem NoWord.ldl (e : Fin 17) (a : Fin 16) (imm : BitVec 16) : NoWord.Statement (.ldl e a imm) := NoWord.of_none _
theorem NoWord.stw (e : Fin 17) (d : Fin 16) (a : Fin 16) (imm : BitVec 16) : NoWord.Statement (.stw e d a imm) := NoWord.of_none _
theorem NoWord.std (e : Fin 17) (d : Fin 16) (a : Fin 16) (imm : BitVec 16) : NoWord.Statement (.std e d a imm) := NoWord.of_none _
theorem NoWord.sth (e : Fin 17) (a : Fin 16) (imm : BitVec 16) : NoWord.Statement (.sth e a imm) := NoWord.of_none _
theorem NoWord.stl (e : Fin 17) (a : Fin 16) (imm : BitVec 16) : NoWord.Statement (.stl e a imm) := NoWord.of_none _
theorem NoWord.fadd (e : Fin 17) (d : Fin 16) (a : Fin 16) (b : Fin 16) (func : BitVec 12) : NoWord.Statement (.fadd e d a b func) := NoWord.of_none _
theorem NoWord.fswp (e : Fin 17) (d : Fin 16) (a : Fin 16) (b : Fin 16) (func : BitVec 12) : NoWord.Statement (.fswp e d a b func) := NoWord.of_none _
theorem NoWord.padd (e : Fin 17) (a : Fin 16) (b : Fin 16) (func : BitVec 12) : NoWord.Statement (.padd e a b func) := NoWord.of_none _
theorem NoWord.pswp (e : Fin 17) (a : Fin 16) (b : Fin 16) (func : BitVec 12) : NoWord.Statement (.pswp e a b func) := NoWord.of_none _
theorem NoWord.endR (e : Fin 17) (imm : BitVec 16) (ctx : Ecc) : NoWord.Statement (.endR e imm ctx) := NoWord.of_none _
theorem NoWord.wait (e : Fin 17) (a : Fin 16) (func : BitVec 12) (ctx : Ecc) : NoWord.Statement (.wait e a func ctx) := NoWord.of_none _
theorem NoWord.yieldR (e : Fin 17) (ctx : Ecc) : NoWord.Statement (.yieldR e ctx) := NoWord.of_none _
theorem NoWord.post (e : Fin 17) (a : Fin 16) (func : BitVec 12) : NoWord.Statement (.post e a func) := NoWord.of_none _
theorem NoWord.trig (e : Fin 17) (func : BitVec 12) : NoWord.Statement (.trig e func) := NoWord.of_none _
theorem NoWord.mfs (e : Fin 17) (d : Fin 16) (func : BitVec 12) : NoWord.Statement (.mfs e d func) := NoWord.of_none _
theorem NoWord.mts (e : Fin 17) (a : Fin 16) (func : BitVec 12) : NoWord.Statement (.mts e a func) := NoWord.of_none _
theorem NoWord.sched (e : Fin 17) (a : Fin 16) (fs : FacetSel) (func : BitVec 12) : NoWord.Statement (.sched e a fs func) := NoWord.of_none _
theorem NoWord.drv (e : Fin 17) (fs : FacetSel) (func : BitVec 12) : NoWord.Statement (.drv e fs func) := NoWord.of_none _
theorem NoWord.fcan (e : Fin 17) (fs : FacetSel) (func : BitVec 12) : NoWord.Statement (.fcan e fs func) := NoWord.of_none _
theorem NoWord.fcmdFlush (e : Fin 17) (fs : FacetSel) : NoWord.Statement (.fcmdFlush e fs) := NoWord.of_none _
theorem NoWord.fcmdSafe (e : Fin 17) (fs : FacetSel) : NoWord.Statement (.fcmdSafe e fs) := NoWord.of_none _
theorem NoWord.fcmdRelease (e : Fin 17) (fs : FacetSel) : NoWord.Statement (.fcmdRelease e fs) := NoWord.of_none _
theorem NoWord.fcap (e : Fin 17) (d : Fin 16) (fs : FacetSel) (func : BitVec 12) : NoWord.Statement (.fcap e d fs func) := NoWord.of_none _
theorem NoWord.flvl (e : Fin 17) (d : Fin 16) (fs : FacetSel) : NoWord.Statement (.flvl e d fs) := NoWord.of_none _
theorem NoWord.ccmp (e : Fin 17) (a : Fin 16) (func : BitVec 12) : NoWord.Statement (.ccmp e a func) := NoWord.of_none _
theorem NoWord.cdis (e : Fin 17) (func : BitVec 12) : NoWord.Statement (.cdis e func) := NoWord.of_none _
theorem NoWord.cval (e : Fin 17) (d : Fin 16) (func : BitVec 12) : NoWord.Statement (.cval e d func) := NoWord.of_none _
theorem NoWord.ccap (e : Fin 17) (d : Fin 16) (func : BitVec 12) : NoWord.Statement (.ccap e d func) := NoWord.of_none _
theorem NoWord.a2t (e : Fin 17) (d : Fin 16) (a : Fin 16) (func : BitVec 12) : NoWord.Statement (.a2t e d a func) := NoWord.of_none _
theorem NoWord.t2a (e : Fin 17) (d : Fin 16) (a : Fin 16) (func : BitVec 12) : NoWord.Statement (.t2a e d a func) := NoWord.of_none _
theorem NoWord.apos (e : Fin 17) (d : Fin 16) (func : BitVec 12) : NoWord.Statement (.apos e d func) := NoWord.of_none _
theorem NoWord.awin (e : Fin 17) (d : Fin 16) (a : Fin 16) (b : Fin 16) (func : BitVec 12) : NoWord.Statement (.awin e d a b func) := NoWord.of_none _
theorem NoWord.dwr (e : Fin 17) (d : Fin 16) (a : Fin 16) (b : Fin 16) (func : BitVec 12) : NoWord.Statement (.dwr e d a b func) := NoWord.of_none _
theorem NoWord.dcan (e : Fin 17) (a : Fin 16) (func : BitVec 12) : NoWord.Statement (.dcan e a func) := NoWord.of_none _
theorem NoWord.dfree (e : Fin 17) (a : Fin 16) (func : BitVec 12) : NoWord.Statement (.dfree e a func) := NoWord.of_none _
theorem NoWord.dst (e : Fin 17) (d : Fin 16) (a : Fin 16) (func : BitVec 12) : NoWord.Statement (.dst e d a func) := NoWord.of_none _
theorem NoWord.dtm (e : Fin 17) (d : Fin 16) (a : Fin 16) (func : BitVec 12) : NoWord.Statement (.dtm e d a func) := NoWord.of_none _
theorem NoWord.conv (e : Fin 17) (a : Fin 16) (func : BitVec 12) : NoWord.Statement (.conv e a func) := NoWord.of_none _
theorem NoWord.convu (e : Fin 17) (a : Fin 16) (func : BitVec 12) : NoWord.Statement (.convu e a func) := NoWord.of_none _
theorem NoWord.rred (e : Fin 17) (d : Fin 16) (func : BitVec 12) : NoWord.Statement (.rred e d func) := NoWord.of_none _
theorem NoWord.rwin (e : Fin 17) (a : Fin 16) (b : Fin 16) (func : BitVec 12) : NoWord.Statement (.rwin e a b func) := NoWord.of_none _
theorem NoWord.rpost (e : Fin 17) (a : Fin 16) (func : BitVec 12) : NoWord.Statement (.rpost e a func) := NoWord.of_none _
theorem NoWord.remoteEvent (e : Fin 17) (a : Fin 16) (func : BitVec 12) : NoWord.Statement (.remoteEvent e a func) := NoWord.of_none _
theorem NoWord.note (e : Fin 17) (a : Fin 16) (b : Fin 16) (func : BitVec 12) : NoWord.Statement (.note e a b func) := NoWord.of_none _
theorem NoWord.seal (e : Fin 17) (a : Fin 16) (func : BitVec 12) : NoWord.Statement (.seal e a func) := NoWord.of_none _
theorem NoWord.mintInstruction (e : Fin 17) (w : Word) : NoWord.Statement (.mintInstruction e w) := NoWord.of_none _
theorem NoWord.legacyInstruction (e : Fin 17) (x : LegacyOp) : NoWord.Statement (.legacyInstruction e x) := NoWord.of_none _
theorem NoWord.mintTrapTimeout (e : Fin 17) : NoWord.Statement (.mintTrapTimeout e) := NoWord.of_none _
theorem NoWord.hostAtomicApply (ecc : LineEcc) : NoWord.Statement (.hostAtomicApply ecc) := NoWord.of_none _
theorem NoWord.scrubRead (ecc : LineEcc) : NoWord.Statement (.scrubRead ecc) := NoWord.of_none _
theorem NoWord.channelTrigger (g : Fin 8) (time : Option Time) (tag : Byte) : NoWord.Statement (.channelTrigger g time tag) := NoWord.of_none _
theorem NoWord.timeTrigger (g : Fin 8) : NoWord.Statement (.timeTrigger g) := NoWord.of_none _
theorem NoWord.angleTargetFire (g : Fin 8) : NoWord.Statement (.angleTargetFire g) := NoWord.of_none _
theorem NoWord.eventTrigger (g : Fin 8) : NoWord.Statement (.eventTrigger g) := NoWord.of_none _
theorem NoWord.slotSample (g : Fin 8) : NoWord.Statement (.slotSample g) := NoWord.of_none _
theorem NoWord.urgentRequestArrival (c : Fin 24) (input : BitVec 2) (addr : BitVec 24) (ch : Fin 512) : NoWord.Statement (.urgentRequestArrival c input addr ch) := NoWord.of_none _
theorem NoWord.urgentConversion (c : Fin 24) : NoWord.Statement (.urgentConversion c) := NoWord.of_none _
theorem NoWord.writerLineWrite (ecc : LineEcc) : NoWord.Statement (.writerLineWrite ecc) := NoWord.of_none _
theorem NoWord.windowClose (c : Fin 24) (r : Fin 4) : NoWord.Statement (.windowClose c r) := NoWord.of_none _
theorem NoWord.windowPublish (c : Fin 24) (r : Fin 4) : NoWord.Statement (.windowPublish c r) := NoWord.of_none _
theorem NoWord.windowSubmit (c : Fin 24) (r : Fin 4) (start : Dword) (stop : Dword) : NoWord.Statement (.windowSubmit c r start stop) := NoWord.of_none _
theorem NoWord.transferLoad (n : Fin 32) (pulsed : Bool) : NoWord.Statement (.transferLoad n pulsed) := NoWord.of_none _
theorem NoWord.pacePulse (n : Fin 32) : NoWord.Statement (.pacePulse n) := NoWord.of_none _
theorem NoWord.dmaReadReturn (n : Fin 32) (x : DmaReply) : NoWord.Statement (.dmaReadReturn n x) := NoWord.of_none _
theorem NoWord.dmaWriteIssue (n : Fin 32) (ecc : LineEcc) : NoWord.Statement (.dmaWriteIssue n ecc) := NoWord.of_none _
theorem NoWord.assemblerLineWrite (m : Fin 16) (ecc : LineEcc) : NoWord.Statement (.assemblerLineWrite m ecc) := NoWord.of_none _
theorem NoWord.copierArm (m : Fin 16) : NoWord.Statement (.copierArm m) := NoWord.of_none _
theorem NoWord.sealArrival (m : Fin 16) (time : Time) : NoWord.Statement (.sealArrival m time) := NoWord.of_none _
theorem NoWord.streamFreeze (m : Fin 16) : NoWord.Statement (.streamFreeze m) := NoWord.of_none _
theorem NoWord.telemetryPacket (t : Fin 8) : NoWord.Statement (.telemetryPacket t) := NoWord.of_none _
theorem NoWord.sourcePending (n : Fin 1024) : NoWord.Statement (.sourcePending n) := NoWord.of_none _
theorem NoWord.delivery (t : Fin 35) : NoWord.Statement (.delivery t) := NoWord.of_none _
theorem NoWord.retarget (n : Fin 1024) (t : BitVec 6) : NoWord.Statement (.retarget n t) := NoWord.of_none _
theorem NoWord.cellTransmit (p : Fin 4) : NoWord.Statement (.cellTransmit p) := NoWord.of_none _
theorem NoWord.resendTimeout (p : Fin 4) : NoWord.Statement (.resendTimeout p) := NoWord.of_none _
theorem NoWord.portDown (p : Fin 4) : NoWord.Statement (.portDown p) := NoWord.of_none _
theorem NoWord.portUp (p : Fin 4) : NoWord.Statement (.portUp p) := NoWord.of_none _
theorem NoWord.portDegraded (p : Fin 4) : NoWord.Statement (.portDegraded p) := NoWord.of_none _
theorem NoWord.linkMeasurement (p : Fin 4) (t1 : Time) (t2 : Time) (t3 : Time) (t4 : Time) : NoWord.Statement (.linkMeasurement p t1 t2 t3 t4) := NoWord.of_none _
theorem NoWord.rootLost (acts : Bool) : NoWord.Statement (.rootLost acts) := NoWord.of_none _
theorem NoWord.routeReceive (x : RouteTable) : NoWord.Statement (.routeReceive x) := NoWord.of_none _
theorem NoWord.mirrorSubscribe (k : Fin 4) : NoWord.Statement (.mirrorSubscribe k) := NoWord.of_none _
theorem NoWord.subReceive (node : Fin 64) (op : SubOp) (source : Fin 4) (mirror : Fin 4) : NoWord.Statement (.subReceive node op source mirror) := NoWord.of_none _
theorem NoWord.rpostDelivery (ch : Fin 512) : NoWord.Statement (.rpostDelivery ch) := NoWord.of_none _
theorem NoWord.revtDelivery (m : BitVec 5) : NoWord.Statement (.revtDelivery m) := NoWord.of_none _
theorem NoWord.bulkTxRead (ecc : LineEcc) : NoWord.Statement (.bulkTxRead ecc) := NoWord.of_none _
theorem NoWord.consumerCountWrite (ecc : LineEcc) : NoWord.Statement (.consumerCountWrite ecc) := NoWord.of_none _
theorem NoWord.bulkReceive (node : Fin 64) (data : List Byte) (post : Option (Fin 512)) (time : Time) : NoWord.Statement (.bulkReceive node data post time) := NoWord.of_none _
theorem NoWord.engineFence (e : Fin 17) (cause : FenceCause) : NoWord.Statement (.engineFence e cause) := NoWord.of_none _
theorem NoWord.psUncorrectable (e : Fin 17) (x : GroupError) : NoWord.Statement (.psUncorrectable e x) := NoWord.of_none _
theorem NoWord.reintegrationComplete (e : Fin 17) (pass : Bool) : NoWord.Statement (.reintegrationComplete e pass) := NoWord.of_none _
theorem NoWord.parityRepair (e : Fin 17) (again : Bool) (master : Bool) : NoWord.Statement (.parityRepair e again master) := NoWord.of_none _
theorem NoWord.vaultAccess (reqs : List VaultRequest) : NoWord.Statement (.vaultAccess reqs) := NoWord.of_none _
theorem NoWord.bar2Access (off : BitVec 25) (x : HostAccess) (eccs : List LineEcc) : NoWord.Statement (.bar2Access off x eccs) := NoWord.of_none _
theorem NoWord.conversionEnd (c : Fin 24) (vin : Int) (vext : Nat) : NoWord.Statement (.conversionEnd c vin vext) := NoWord.of_none _
theorem NoWord.dmaPause (n : Fin 32) (p : Bool) : NoWord.Statement (.dmaPause n p) := NoWord.of_none _
theorem NoWord.busError (n : Fin 32) (kind : BitVec 4) (addr : Dword) : NoWord.Statement (.busError n kind addr) := NoWord.of_none _
theorem NoWord.throttleChange (temp : BitVec 16) : NoWord.Statement (.throttleChange temp) := NoWord.of_none _
theorem NoWord.bar4Read (off : BitVec 28) (len : Nat) (eccs : List LineEcc) : NoWord.Statement (.bar4Read off len eccs) := NoWord.of_none _
theorem NoWord.transmitDone (m : Fin 2) (sfd : Time) : NoWord.Statement (.transmitDone m sfd) := NoWord.of_none _
theorem NoWord.frameReceive (m : Fin 2) (bytes : List Byte) (sfd : Time) (good : Bool) : NoWord.Statement (.frameReceive m bytes sfd good) := NoWord.of_none _
theorem NoWord.linkChange (m : Fin 2) (up : Bool) : NoWord.Statement (.linkChange m up) := NoWord.of_none _
theorem NoWord.eoi (n : Fin 1024) : NoWord.Statement (.eoi n) := NoWord.of_none _
theorem NoWord.wakePin (level : Bool) : NoWord.Statement (.wakePin level) := NoWord.of_none _
theorem NoWord.linkCellReceive (p : Fin 4) (good : Bool) (x : LinkCell) (sof : Time) : NoWord.Statement (.linkCellReceive p good x sof) := NoWord.of_none _
theorem NoWord.cellReceive (p : Fin 4) (good : Bool) (seq : BitVec 7) (ack : BitVec 7) (x : Cell) : NoWord.Statement (.cellReceive p good seq ack x) := NoWord.of_none _
theorem NoWord.census (x : Admission) : NoWord.Statement (.census x) := NoWord.of_none _
theorem NoWord.incrementalAdmission (x : Admission) : NoWord.Statement (.incrementalAdmission x) := NoWord.of_none _
theorem NoWord.qspiRead (addr : Word) (len : Byte) (eccs : List LineEcc) (cut : Bool) : NoWord.Statement (.qspiRead addr len eccs cut) := NoWord.of_none _
theorem NoWord.qspiWrite (addr : Word) (len : Byte) (bytes : List Byte) : NoWord.Statement (.qspiWrite addr len bytes) := NoWord.of_none _
theorem NoWord.perst (low : Bool) : NoWord.Statement (.perst low) := NoWord.of_none _
theorem NoWord.resetNRelease (hostsel : BitVec 2) (root : Bool) (bootSrc : Bool) : NoWord.Statement (.resetNRelease hostsel root bootSrc) := NoWord.of_none _
theorem NoWord.firmwareReady (bad0 : Bool) (bad1 : Bool) : NoWord.Statement (.firmwareReady bad0 bad1) := NoWord.of_none _
theorem NoWord.ucodeLoaded (version : Word) (ms : BitVec 16) (disp : List Word) (legacy : List Word) : NoWord.Statement (.ucodeLoaded version ms disp legacy) := NoWord.of_none _
theorem NoWord.fwUpdate (ok : Bool) : NoWord.Statement (.fwUpdate ok) := NoWord.of_none _
theorem NoWord.otpKey (ok : Bool) : NoWord.Statement (.otpKey ok) := NoWord.of_none _
theorem NoWord.otpCfg (ok : Bool) : NoWord.Statement (.otpCfg ok) := NoWord.of_none _
theorem NoWord.rollback (ok : Bool) : NoWord.Statement (.rollback ok) := NoWord.of_none _
theorem NoWord.sensorSample (temps : Vector (BitVec 16) 9) (sups : Vector (BitVec 16) 10) (vio : List (Fin 8 × BitVec 16)) (ref : Word) : NoWord.Statement (.sensorSample temps sups vio ref) := NoWord.of_none _
theorem NoWord.ledgerWrite (ok : Bool) : NoWord.Statement (.ledgerWrite ok) := NoWord.of_none _
theorem NoWord.blockLockGained (p : Fin 4) : NoWord.Statement (.blockLockGained p) := NoWord.of_none _
theorem NoWord.jtagAccess (x : JtagOp) : NoWord.Statement (.jtagAccess x) := NoWord.of_none _
theorem NoWord.pcieConfigRequest (x : ConfigReq) : NoWord.Statement (.pcieConfigRequest x) := NoWord.of_none _
theorem NoWord.pcieLinkUp (speed : BitVec 3) (width : BitVec 3) : NoWord.Statement (.pcieLinkUp speed width) := NoWord.of_none _
theorem NoWord.padTransition (pad : Pad) (phase : Fin 8) : NoWord.Statement (.padTransition pad phase) := NoWord.of_none _
theorem NoWord.hstBatchDataWrite (v : Word) : NoWord.Statement (.hstBatchDataWrite v) := NoWord.of_none _
theorem NoWord.slewWrite (src : SlewOwner) (rate : Word) : NoWord.Statement (.slewWrite src rate) := NoWord.of_none _
theorem NoWord.counterCtrlWrite (n : Fin 32) (v : Word) : NoWord.Statement (.counterCtrlWrite n v) := NoWord.of_none _
theorem NoWord.counterValueWrite (n : Fin 32) (v : Word) : NoWord.Statement (.counterValueWrite n v) := NoWord.of_none _
theorem NoWord.counterCapturePop (n : Fin 32) : NoWord.Statement (.counterCapturePop n) := NoWord.of_none _
theorem NoWord.clrDrops (n : Fin 32) : NoWord.Statement (.clrDrops n) := NoWord.of_none _
theorem NoWord.gblGo (mask : Word) : NoWord.Statement (.gblGo mask) := NoWord.of_none _
theorem NoWord.gblHalt (mask : Word) : NoWord.Statement (.gblHalt mask) := NoWord.of_none _
theorem NoWord.facetCtrlWrite (n : Fin 256) (v : Word) : NoWord.Statement (.facetCtrlWrite n v) := NoWord.of_none _
theorem NoWord.schedPush (n : Fin 256) (v : Word) : NoWord.Statement (.schedPush n v) := NoWord.of_none _
theorem NoWord.facetUnmute (n : Fin 256) : NoWord.Statement (.facetUnmute n) := NoWord.of_none _
theorem NoWord.facetClrCounts (n : Fin 256) : NoWord.Statement (.facetClrCounts n) := NoWord.of_none _
theorem NoWord.capClear (n : Fin 256) : NoWord.Statement (.capClear n) := NoWord.of_none _
theorem NoWord.filtWrite (n : Fin 256) (v : Word) : NoWord.Statement (.filtWrite n v) := NoWord.of_none _
theorem NoWord.rateWrite (n : Fin 256) (v : Word) : NoWord.Statement (.rateWrite n v) := NoWord.of_none _
theorem NoWord.capturePop (n : Fin 256) : NoWord.Statement (.capturePop n) := NoWord.of_none _
theorem NoWord.domainEnable (d : Fin 8) : NoWord.Statement (.domainEnable d) := NoWord.of_none _
theorem NoWord.domainDisable (d : Fin 8) : NoWord.Statement (.domainDisable d) := NoWord.of_none _
theorem NoWord.reseek (d : Fin 8) : NoWord.Statement (.reseek d) := NoWord.of_none _
theorem NoWord.flipRev (d : Fin 8) : NoWord.Statement (.flipRev d) := NoWord.of_none _
theorem NoWord.mapClear (d : Fin 8) : NoWord.Statement (.mapClear d) := NoWord.of_none _
theorem NoWord.tableDataAccess (d : Fin 8) (w : Option Word) : NoWord.Statement (.tableDataAccess d w) := NoWord.of_none _
theorem NoWord.edgeTimeRead (d : Fin 8) : NoWord.Statement (.edgeTimeRead d) := NoWord.of_none _
theorem NoWord.whlUnmute (n : Fin 8) : NoWord.Statement (.whlUnmute n) := NoWord.of_none _
theorem NoWord.whlClrCounts (n : Fin 8) : NoWord.Statement (.whlClrCounts n) := NoWord.of_none _
theorem NoWord.hostDraftWrite (d : Fin 8) : NoWord.Statement (.hostDraftWrite d) := NoWord.of_none _
theorem NoWord.hostDraftCancel (d : Fin 8) : NoWord.Statement (.hostDraftCancel d) := NoWord.of_none _
theorem NoWord.hostDraftFree (d : Fin 8) : NoWord.Statement (.hostDraftFree d) := NoWord.of_none _
theorem NoWord.draftRead (d : Fin 8) : NoWord.Statement (.draftRead d) := NoWord.of_none _
theorem NoWord.draftClrCount (d : Fin 8) : NoWord.Statement (.draftClrCount d) := NoWord.of_none _
theorem NoWord.causeSet (ch : Fin 512) (c : Cause) : NoWord.Statement (.causeSet ch c) := NoWord.of_none _
theorem NoWord.programStoreWrite (k : BitVec 16) (v : Word) : NoWord.Statement (.programStoreWrite k v) := NoWord.of_none _
theorem NoWord.contextWrite (ch : Fin 512) (off : Nat) (v : Word) : NoWord.Statement (.contextWrite ch off v) := NoWord.of_none _
theorem NoWord.channelEnable (ch : Fin 512) : NoWord.Statement (.channelEnable ch) := NoWord.of_none _
theorem NoWord.channelDisable (ch : Fin 512) : NoWord.Statement (.channelDisable ch) := NoWord.of_none _
theorem NoWord.clrPend (ch : Fin 512) : NoWord.Statement (.clrPend ch) := NoWord.of_none _
theorem NoWord.hostCause (ch : Fin 512) : NoWord.Statement (.hostCause ch) := NoWord.of_none _
theorem NoWord.tellerRun (run : Bool) : NoWord.Statement (.tellerRun run) := NoWord.of_none _
theorem NoWord.hostFence (e : Fin 17) : NoWord.Statement (.hostFence e) := NoWord.of_none _
theorem NoWord.reintegrate (e : Fin 17) : NoWord.Statement (.reintegrate e) := NoWord.of_none _
theorem NoWord.nanoWordLoad (v : Word) : NoWord.Statement (.nanoWordLoad v) := NoWord.of_none _
theorem NoWord.nanoAddrWrite (v : Word) : NoWord.Statement (.nanoAddrWrite v) := NoWord.of_none _
theorem NoWord.microWordAccess (w : Option Word) : NoWord.Statement (.microWordAccess w) := NoWord.of_none _
theorem NoWord.dispatchEntryWrite (k : Fin 256) (v : Word) : NoWord.Statement (.dispatchEntryWrite k v) := NoWord.of_none _
theorem NoWord.hostAtomicGo (swap : Bool) : NoWord.Statement (.hostAtomicGo swap) := NoWord.of_none _
theorem NoWord.hostTrigger (g : Fin 8) : NoWord.Statement (.hostTrigger g) := NoWord.of_none _
theorem NoWord.groupStop (g : Fin 8) : NoWord.Statement (.groupStop g) := NoWord.of_none _
theorem NoWord.groupClrCounts (g : Fin 8) : NoWord.Statement (.groupClrCounts g) := NoWord.of_none _
theorem NoWord.gtimeArm (g : Fin 8) (v : Word) : NoWord.Statement (.gtimeArm g v) := NoWord.of_none _
theorem NoWord.reducerEnable (c : Fin 24) (r : Fin 4) (v : Word) : NoWord.Statement (.reducerEnable c r v) := NoWord.of_none _
theorem NoWord.groupEnableWrite (g : Fin 8) (v : Word) : NoWord.Statement (.groupEnableWrite g v) := NoWord.of_none _
theorem NoWord.ringEnable (v : Word) : NoWord.Statement (.ringEnable v) := NoWord.of_none _
theorem NoWord.calibrationGo (v : Word) : NoWord.Statement (.calibrationGo v) := NoWord.of_none _
theorem NoWord.dmaArm (n : Fin 32) : NoWord.Statement (.dmaArm n) := NoWord.of_none _
theorem NoWord.dmaDisarm (n : Fin 32) : NoWord.Statement (.dmaDisarm n) := NoWord.of_none _
theorem NoWord.dmaAbort (n : Fin 32) : NoWord.Statement (.dmaAbort n) := NoWord.of_none _
theorem NoWord.dmaClrCounts (n : Fin 32) : NoWord.Statement (.dmaClrCounts n) := NoWord.of_none _
theorem NoWord.curSrcRead (n : Fin 32) : NoWord.Statement (.curSrcRead n) := NoWord.of_none _
theorem NoWord.hostSeal (m : Fin 16) : NoWord.Statement (.hostSeal m) := NoWord.of_none _
theorem NoWord.sealEvent (m : Fin 16) : NoWord.Statement (.sealEvent m) := NoWord.of_none _
theorem NoWord.rearm (m : Fin 16) : NoWord.Statement (.rearm m) := NoWord.of_none _
theorem NoWord.streamClrCount (m : Fin 16) : NoWord.Statement (.streamClrCount m) := NoWord.of_none _
theorem NoWord.streamEnable (m : Fin 16) (v : Word) : NoWord.Statement (.streamEnable m v) := NoWord.of_none _
theorem NoWord.frameSend (m : Fin 2) (v : Word) : NoWord.Statement (.frameSend m v) := NoWord.of_none _
theorem NoWord.rxPop (m : Fin 2) : NoWord.Statement (.rxPop m) := NoWord.of_none _
theorem NoWord.ptpOffsetWrite (v : Word) : NoWord.Statement (.ptpOffsetWrite v) := NoWord.of_none _
theorem NoWord.pendWithdraw (n : Fin 1024) : NoWord.Statement (.pendWithdraw n) := NoWord.of_none _
theorem NoWord.sourceConfigWrite (n : Fin 1024) (v : Word) : NoWord.Statement (.sourceConfigWrite n v) := NoWord.of_none _
theorem NoWord.runDozeSelect (doze : Bool) : NoWord.Statement (.runDozeSelect doze) := NoWord.of_none _
theorem NoWord.bar0BadAccess (x : BadAccess) : NoWord.Statement (.bar0BadAccess x) := NoWord.of_none _
theorem NoWord.abort : NoWord.Statement (.abort) := NoWord.of_none _
theorem NoWord.batchApply : NoWord.Statement (.batchApply) := NoWord.of_none _
theorem NoWord.tallyBoundary : NoWord.Statement (.tallyBoundary) := NoWord.of_none _
theorem NoWord.gtbLowRead : NoWord.Statement (.gtbLowRead) := NoWord.of_none _
theorem NoWord.pllLockLoss : NoWord.Statement (.pllLockLoss) := NoWord.of_none _
theorem NoWord.pllRelock : NoWord.Statement (.pllRelock) := NoWord.of_none _
theorem NoWord.goAtArm : NoWord.Statement (.goAtArm) := NoWord.of_none _
theorem NoWord.goAtCancel : NoWord.Statement (.goAtCancel) := NoWord.of_none _
theorem NoWord.goAtRelease : NoWord.Statement (.goAtRelease) := NoWord.of_none _
theorem NoWord.safeNFall : NoWord.Statement (.safeNFall) := NoWord.of_none _
theorem NoWord.safeNRise : NoWord.Statement (.safeNRise) := NoWord.of_none _
theorem NoWord.globalSafeRelease : NoWord.Statement (.globalSafeRelease) := NoWord.of_none _
theorem NoWord.safeLock : NoWord.Statement (.safeLock) := NoWord.of_none _
theorem NoWord.ioRelease : NoWord.Statement (.ioRelease) := NoWord.of_none _
theorem NoWord.commitStep3 : NoWord.Statement (.commitStep3) := NoWord.of_none _
theorem NoWord.clrPeak : NoWord.Statement (.clrPeak) := NoWord.of_none _
theorem NoWord.mintLock : NoWord.Statement (.mintLock) := NoWord.of_none _
theorem NoWord.mintHide : NoWord.Statement (.mintHide) := NoWord.of_none _
theorem NoWord.scrubRewrite : NoWord.Statement (.scrubRewrite) := NoWord.of_none _
theorem NoWord.vaultClrPeak : NoWord.Statement (.vaultClrPeak) := NoWord.of_none _
theorem NoWord.frameClose : NoWord.Statement (.frameClose) := NoWord.of_none _
theorem NoWord.calibrationComplete : NoWord.Statement (.calibrationComplete) := NoWord.of_none _
theorem NoWord.burstStart : NoWord.Statement (.burstStart) := NoWord.of_none _
theorem NoWord.dmaRestart : NoWord.Statement (.dmaRestart) := NoWord.of_none _
theorem NoWord.blockClose : NoWord.Statement (.blockClose) := NoWord.of_none _
theorem NoWord.bar4Write : NoWord.Statement (.bar4Write) := NoWord.of_none _
theorem NoWord.txtsPop : NoWord.Statement (.txtsPop) := NoWord.of_none _
theorem NoWord.parkEntry : NoWord.Statement (.parkEntry) := NoWord.of_none _
theorem NoWord.deepParkEntry : NoWord.Statement (.deepParkEntry) := NoWord.of_none _
theorem NoWord.parkWake : NoWord.Statement (.parkWake) := NoWord.of_none _
theorem NoWord.deepParkWake : NoWord.Statement (.deepParkWake) := NoWord.of_none _
theorem NoWord.aonAlarm : NoWord.Statement (.aonAlarm) := NoWord.of_none _
theorem NoWord.readmit : NoWord.Statement (.readmit) := NoWord.of_none _
theorem NoWord.alignHold : NoWord.Statement (.alignHold) := NoWord.of_none _
theorem NoWord.helloSend : NoWord.Statement (.helloSend) := NoWord.of_none _
theorem NoWord.qspiWriteApply : NoWord.Statement (.qspiWriteApply) := NoWord.of_none _
theorem NoWord.qspiStatus : NoWord.Statement (.qspiStatus) := NoWord.of_none _
theorem NoWord.qspiUnknownOpcode : NoWord.Statement (.qspiUnknownOpcode) := NoWord.of_none _
theorem NoWord.hotReset : NoWord.Statement (.hotReset) := NoWord.of_none _
theorem NoWord.resetNAssert : NoWord.Statement (.resetNAssert) := NoWord.of_none _
theorem NoWord.pllLock : NoWord.Statement (.pllLock) := NoWord.of_none _
theorem NoWord.vaultClearDone : NoWord.Statement (.vaultClearDone) := NoWord.of_none _
theorem NoWord.daybookTrained : NoWord.Statement (.daybookTrained) := NoWord.of_none _
theorem NoWord.mailboxInfo : NoWord.Statement (.mailboxInfo) := NoWord.of_none _
theorem NoWord.ledgerRead : NoWord.Statement (.ledgerRead) := NoWord.of_none _
theorem NoWord.ledgerNote : NoWord.Statement (.ledgerNote) := NoWord.of_none _
theorem NoWord.fwRestart : NoWord.Statement (.fwRestart) := NoWord.of_none _
theorem NoWord.ucodeLoad : NoWord.Statement (.ucodeLoad) := NoWord.of_none _
theorem NoWord.progLoad : NoWord.Statement (.progLoad) := NoWord.of_none _
theorem NoWord.mintLoad : NoWord.Statement (.mintLoad) := NoWord.of_none _
theorem NoWord.fwBoot : NoWord.Statement (.fwBoot) := NoWord.of_none _
theorem NoWord.dbgChal : NoWord.Statement (.dbgChal) := NoWord.of_none _
theorem NoWord.dbgResp : NoWord.Statement (.dbgResp) := NoWord.of_none _
theorem NoWord.mailboxUnknownOpcode : NoWord.Statement (.mailboxUnknownOpcode) := NoWord.of_none _
theorem NoWord.mailboxResponse : NoWord.Statement (.mailboxResponse) := NoWord.of_none _
theorem NoWord.debugClose : NoWord.Statement (.debugClose) := NoWord.of_none _
theorem NoWord.watchdogRestart : NoWord.Statement (.watchdogRestart) := NoWord.of_none _
theorem NoWord.faultEdge : NoWord.Statement (.faultEdge) := NoWord.of_none _
theorem NoWord.pulseToggle : NoWord.Statement (.pulseToggle) := NoWord.of_none _
theorem NoWord.asyClockStop : NoWord.Statement (.asyClockStop) := NoWord.of_none _

end Sys2Proof.Laws
end

