-- ==== Sys2Proof/WellFormed.lean ====
section
/-!
DEFINITION. Well-formed commands: the bounds the spec sets on operands whose types are wider than it.
-/
namespace Sys2Proof

/-- A register offset names a whole 32-bit word of BAR0 (R8, R381, R383). -/
def regAligned (off : Nat) : Bool := decide (off < 2 ^ 24) && decide (off % 4 = 0)

/-- A reply carries a whole line of host memory or nothing (R296), and an error one of the kinds of R306. -/
def DmaReply.wellFormed (x : DmaReply) : Bool :=
  (decide (x.host.length = 32) || x.host.isEmpty) && (match x.err with | some k => decide (1 ≤ k.toNat) && decide (k.toNat ≤ 7) | none => true)

/-- A Vault access stays in one line of 32 bytes (R254). -/
def LineOp.wellFormed : LineOp → Bool
  | .write bytes => decide (bytes.length = 32)
  | _ => true

/-- Bytes that a host access covers. -/
def HostAccess.size : HostAccess → Nat
  | .read len => len
  | .write bytes => bytes.length

/-- A TLP carries at least one byte. -/
def HostAccess.wellFormed (x : HostAccess) : Bool := decide (1 ≤ x.size)

/-- A table has one word for each of 64 destinations (R361). -/
def RouteTable.wellFormed (x : RouteTable) : Bool := decide (x.entries.length = 64)

def Admission.wellFormed : Admission → Bool
  | .node x => x.wellFormed
  | .root _ => true

/-- A BULK cell carries 22 bytes (R351); types 12–15 are reserved. -/
def CellBody.wellFormed : CellBody → Bool
  | .bulk data _ => decide (data.length = 22)
  | .route x => x.wellFormed
  | .reserved t => decide (12 ≤ t.toNat)
  | _ => true

/-- A debugger writes at least one byte of the Vault and reads registers by words (R415). -/
def JtagOp.wellFormed : JtagOp → Bool
  | .regRead off | .regWrite off _ => regAligned off
  | .vaultWrite _ bytes _ => decide (1 ≤ bytes.length)
  | _ => true

/-- A configuration read takes an aligned dword. -/
def ConfigReq.wellFormed : ConfigReq → Bool
  | .read off => decide (off.toNat % 4 = 0)
  | .write _ => true

/-- Well-formedness of a command. -/
def Instr.wellFormed : Instr → Bool
  | .registerWrite off _ => regAligned off
  | .captureRemoval _ count => decide (1 ≤ count)
  | .dmaReadReturn _ x => x.wellFormed
  | .routeReceive x => x.wellFormed
  | .bulkReceive _ data _ _ => decide (data.length = 22)
  | .vaultAccess reqs => reqs.all fun q => q.op.wellFormed
  | .bar2Access off x _ => x.wellFormed && decide (off.toNat + x.size ≤ 2 ^ 25)
  | .busError _ kind _ => decide (1 ≤ kind.toNat) && decide (kind.toNat ≤ 7)
  | .bar4Read off len _ => decide (1 ≤ len) && decide (off.toNat + len ≤ 2 ^ 28)
  | .cellReceive _ _ _ _ x => x.body.wellFormed
  | .census x => x.wellFormed
  | .incrementalAdmission x => x.wellFormed
  | .qspiWrite _ len bytes => decide (1 ≤ bytes.length) && decide (bytes.length ≤ len.toNat + 1)
  | .ucodeLoaded _ _ disp legacy => decide (disp.length = 0xE0) && decide (legacy.length ≤ 256)
  | .jtagAccess x => x.wellFormed
  | .pcieConfigRequest x => x.wellFormed
  | .pcieLinkUp speed width => decide (1 ≤ speed.toNat) && decide (speed.toNat ≤ 3) && (width == 1 || width == 2 || width == 4)
  | .contextWrite _ off _ => decide (off < 160) && decide (off % 4 = 0)
  | .go _ | .counterWrap _ | .compareWrite _ _ _ | .compareDisarm _ _ | .counterMatch _ _ | .goatReceive _ _ _ | .noticeReceive _
  | .armedEntryArrival _ _ | .facetCompareMatch _ | .facetCancel _ _ | .facetFlush _ | .facetSafe _ | .facetRelease _ | .edgeAccept _
  | .muteEnd _ | .stuckDetect _ | .primaryEdgeDecision _ | .secondaryEdgeDecision _ | .limpWatchStart _ | .overdue _ | .keepExpiry _
  | .whlEdgeAccept _ | .whlMuteEnd _ | .whlStuckDetect _ | .vrPeakTimeout _ | .draftArrival _ _ _ | .draftCancelArrival _ _ _
  | .draftFreeArrival _ _ _ | .mirrorCellDecision _ | .coastSynthesis _ | .coastEnd _ | .wakeTimeReached _ | .dispatch _ _ _
  | .preemption _ _ | .budgetAbort _ | .commitVaultWrite _ | .psRewriteDone _ _ | .illegalInstruction _ | .nop _ | .mov _ _ _
  | .add _ _ _ _ | .sub _ _ _ _ | .and _ _ _ _ | .or _ _ _ _ | .xor _ _ _ _ | .shl _ _ _ _ | .shr _ _ _ _ | .sar _ _ _ _ | .mul _ _ _ _
  | .mulhu _ _ _ _ | .mulsh _ _ _ _ | .divu _ _ _ _ | .remu _ _ _ _ | .cmp _ _ _ | .tst _ _ _ | .minu _ _ _ _ | .maxu _ _ _ _
  | .mins _ _ _ _ | .maxs _ _ _ _ | .ext _ _ _ _ | .ins _ _ _ _ | .addi _ _ _ _ | .andi _ _ _ _ | .ori _ _ _ _ | .xori _ _ _ _
  | .shli _ _ _ _ | .shri _ _ _ _ | .sari _ _ _ _ | .muli _ _ _ _ | .cmpi _ _ _ | .cmpui _ _ _ | .ldi _ _ _ | .movk _ _ _ _ | .b _ _
  | .call _ _ | .jr _ _ | .beq _ _ | .bne _ _ | .blt _ _ | .bge _ _ | .bgt _ _ | .ble _ _ | .blo _ _ | .bhs _ _ | .bhi _ _ | .bls _ _
  | .bmi _ _ | .bpl _ _ | .bvs _ _ | .bvc _ _ | .blate _ _ | .bnlate _ _ | .bqe _ _ | .bnqe _ _ | .ldw _ _ _ _ | .ldd _ _ _ _
  | .ldh _ _ _ | .ldl _ _ _ | .stw _ _ _ _ | .std _ _ _ _ | .sth _ _ _ | .stl _ _ _ | .fadd _ _ _ _ _ | .fswp _ _ _ _ _ | .padd _ _ _ _
  | .pswp _ _ _ _ | .endR _ _ _ | .wait _ _ _ _ | .yieldR _ _ | .post _ _ _ | .trig _ _ | .mfs _ _ _ | .mts _ _ _ | .sched _ _ _ _
  | .drv _ _ _ | .fcan _ _ _ | .fcmdFlush _ _ | .fcmdSafe _ _ | .fcmdRelease _ _ | .fcap _ _ _ _ | .flvl _ _ _ | .ccmp _ _ _ | .cdis _ _
  | .cval _ _ _ | .ccap _ _ _ | .a2t _ _ _ _ | .t2a _ _ _ _ | .apos _ _ _ | .awin _ _ _ _ _ | .dwr _ _ _ _ _ | .dcan _ _ _ | .dfree _ _ _
  | .dst _ _ _ _ | .dtm _ _ _ _ | .conv _ _ _ | .convu _ _ _ | .rred _ _ _ | .rwin _ _ _ _ | .rpost _ _ _ | .remoteEvent _ _ _
  | .note _ _ _ _ | .seal _ _ _ | .mintInstruction _ _ | .legacyInstruction _ _ | .mintTrapTimeout _ | .hostAtomicApply _ | .scrubRead _
  | .channelTrigger _ _ _ | .timeTrigger _ | .angleTargetFire _ | .eventTrigger _ | .slotSample _ | .urgentRequestArrival _ _ _ _
  | .urgentConversion _ | .writerLineWrite _ | .windowClose _ _ | .windowPublish _ _ | .windowSubmit _ _ _ _ | .transferLoad _ _
  | .pacePulse _ | .dmaWriteIssue _ _ | .assemblerLineWrite _ _ | .copierArm _ | .sealArrival _ _ | .streamFreeze _ | .telemetryPacket _
  | .sourcePending _ | .delivery _ | .retarget _ _ | .cellTransmit _ | .resendTimeout _ | .portDown _ | .portUp _ | .portDegraded _
  | .linkMeasurement _ _ _ _ _ | .rootLost _ | .mirrorSubscribe _ | .subReceive _ _ _ _ | .rpostDelivery _ | .revtDelivery _
  | .bulkTxRead _ | .consumerCountWrite _ | .engineFence _ _ | .psUncorrectable _ _ | .reintegrationComplete _ _ | .parityRepair _ _ _
  | .conversionEnd _ _ _ | .dmaPause _ _ | .throttleChange _ | .transmitDone _ _ | .frameReceive _ _ _ _ | .linkChange _ _ | .eoi _
  | .wakePin _ | .linkCellReceive _ _ _ _ | .qspiRead _ _ _ _ | .perst _ | .resetNRelease _ _ _ | .firmwareReady _ _ | .fwUpdate _
  | .otpKey _ | .otpCfg _ | .rollback _ | .sensorSample _ _ _ _ | .ledgerWrite _ | .blockLockGained _ | .padTransition _ _
  | .hstBatchDataWrite _ | .slewWrite _ _ | .counterCtrlWrite _ _ | .counterValueWrite _ _ | .counterCapturePop _ | .clrDrops _
  | .gblGo _ | .gblHalt _ | .facetCtrlWrite _ _ | .schedPush _ _ | .facetUnmute _ | .facetClrCounts _ | .capClear _ | .filtWrite _ _
  | .rateWrite _ _ | .capturePop _ | .domainEnable _ | .domainDisable _ | .reseek _ | .flipRev _ | .mapClear _ | .tableDataAccess _ _
  | .edgeTimeRead _ | .whlUnmute _ | .whlClrCounts _ | .hostDraftWrite _ | .hostDraftCancel _ | .hostDraftFree _ | .draftRead _
  | .draftClrCount _ | .causeSet _ _ | .programStoreWrite _ _ | .channelEnable _ | .channelDisable _ | .clrPend _ | .hostCause _
  | .tellerRun _ | .hostFence _ | .reintegrate _ | .nanoWordLoad _ | .nanoAddrWrite _ | .microWordAccess _ | .dispatchEntryWrite _ _
  | .hostAtomicGo _ | .hostTrigger _ | .groupStop _ | .groupClrCounts _ | .gtimeArm _ _ | .reducerEnable _ _ _ | .groupEnableWrite _ _
  | .ringEnable _ | .calibrationGo _ | .dmaArm _ | .dmaDisarm _ | .dmaAbort _ | .dmaClrCounts _ | .curSrcRead _ | .hostSeal _
  | .sealEvent _ | .rearm _ | .streamClrCount _ | .streamEnable _ _ | .frameSend _ _ | .rxPop _ | .ptpOffsetWrite _ | .pendWithdraw _
  | .sourceConfigWrite _ _ | .runDozeSelect _ | .bar0BadAccess _ | .abort | .batchApply | .tallyBoundary | .gtbLowRead | .pllLockLoss
  | .pllRelock | .goAtArm | .goAtCancel | .goAtRelease | .safeNFall | .safeNRise | .globalSafeRelease | .safeLock | .ioRelease
  | .commitStep3 | .clrPeak | .mintLock | .mintHide | .scrubRewrite | .vaultClrPeak | .frameClose | .calibrationComplete | .burstStart
  | .dmaRestart | .blockClose | .bar4Write | .txtsPop | .parkEntry | .deepParkEntry | .parkWake | .deepParkWake | .aonAlarm | .readmit
  | .alignHold | .helloSend | .qspiWriteApply | .qspiStatus | .qspiUnknownOpcode | .hotReset | .resetNAssert | .pllLock | .vaultClearDone
  | .daybookTrained | .mailboxInfo | .ledgerRead | .ledgerNote | .fwRestart | .ucodeLoad | .progLoad | .mintLoad | .fwBoot | .dbgChal
  | .dbgResp | .mailboxUnknownOpcode | .mailboxResponse | .debugClose | .watchdogRestart | .faultEdge | .pulseToggle | .asyClockStop => true

end Sys2Proof
end

