-- ==== Sys2Proof/Tests/Slice0.lean ====
section
/-!
SUPPORT. Tests: ill-formed terms are refused, single steps with values the spec gives, and for each statement with hypotheses states that
meet them, clause by clause.
-/
namespace Sys2Proof.Tests
open Sys2Proof Sys2Proof.Machine
set_option linter.unusedVariables false
set_option Elab.async false

/-! ### States the tests start from -/

/-- A routine of channel 3, in its fifth cycle. -/
def r0 : Routine :=
  { ch := 3, v := Vector.ofFn (fun i => BitVec.ofNat 64 (i.val * 0x1111111111111111 + 5)), pc := 0x1234, flags := 0, ctx := Context.reset,
    wb := Context.reset, cause := 0x2000, count := 5, budget := 800, issueAt := 7, stage := [], reads := [], replay := false, acc := none, micro := none }

/-- A helper of the states below. -/
def vset (v : Vector Dword 16) (l : List (Nat × Dword)) : Vector Dword 16 := l.foldl (fun v x => v.setIfInBounds x.1 x.2) v

/-- Engine `e` runs routine `r`. -/
def on (e : Fin 17) (r : Routine) (s : State) : State := { s with tlr := { s.tlr with eng := vmod s.tlr.eng e fun x => { x with l0 := some r } } }

/-- After start: the Teller runs, time has passed. -/
def base : State := { (State.reset.set FLT_BOOT.ucode 1).set TLR_CTRL.run 1 with tb := { TimeBase.reset with gtb := 800123, cyc := 100015 } }

/-- The routine with v1 and v2 given. -/
def rv (a b : Dword) : Routine := { r0 with v := vset r0.v [(1, a), (2, b)] }

/-- Change domain `d`. -/
def dm (d : Fin 8) (f : Domain → Domain) (s : State) : State := { s with bzl := vmod s.bzl d f }

/-- tables of a 60-2 wheel, in state `st`, at slot 10 of revolution 0, edges every 100000 units, last edge 40000 ago -/
def crank (d : Fin 8) (st : Nat) (s : State) : State :=
  let s := s.set (BZL_CFG.slots d) 59
  let s := (s.set (BZL_CFG.uniform d) 1).set (BZL_CTRL.en d) 1
  let s := dm d (fun x => { x with pri := (List.range 58).map fun k => (k, (0x80000000 : Word)) }) s
  let now := s.now.toNat
  let s := dm d (fun x => { x with
    slot := 10, hist := [⟨5 * 16 * 1474560 + 10 * 196608, BitVec.ofNat 64 (now - 40000)⟩, ⟨5 * 16 * 1474560 + 9 * 196608, BitVec.ofNat 64 (now - 140000)⟩, ⟨5 * 16 * 1474560 + 8 * 196608, BitVec.ofNat 64 (now - 240500)⟩],
    intervals := 5, ahead := [5 * 16 * 1474560 + 11 * 196608, 5 * 16 * 1474560 + 12 * 196608], lastPri := some (BitVec.ofNat 64 (now - 40000)), lastInt := some (100000, 196608), fresh := false }) s
  let s := ((s.set (BZL_STATE.state d) st).set (BZL_STATE.pos_valid d) 1).set (BZL_STATE.slot d) 10
  let s := s.wr (BZL_POS d) (BitVec.ofNat 32 (10 * 12288))
  refreshPredictor d s

/-- Put bytes into the Vault. -/
def mem (l : List (Nat × Byte)) (s : State) : State := { s with vlt := l.foldl (fun v x => v.put x.1 x.2) s.vlt }

/-- Some bytes of the Vault. -/
def someMem : List (Nat × Byte) := (List.range 12).map (fun k => (k, BitVec.ofNat 8 (k * 7 + 3))) ++ [(95, 0x9C)] ++ (List.range 8).map (fun k => (0xFFFFF8 + k, BitVec.ofNat 8 (k * 5 + 1)))

/-- Word `w` of the Vault is poisoned. -/
def psn (w : Nat) (s : State) : State := { s with vlt := s.vlt.mark w true }

/-- Whether the Assayer can carry out mailbox command `op`. -/
def runs (op args : Nat) (s : State) : Bool := match s.asy.cmd with
  | some c => decide (c.op.toNat = op ∧ args ≤ c.len ∧ s.asy.result = none ∧ s.asyReady = true ∧ s.flag ASY_STAT.rom_mode = false)
  | none => false

theorem running_iff (op args : Nat) (s : State) : Running op args s ↔ runs op args s = true := by
  unfold Running runs; split <;> simp_all

/-! ### Well-formedness refuses an ill-formed term for each check -/

theorem test_illformed_registers : [Instr.registerWrite 2 0, .registerWrite 0x1000000 0, .jtagAccess (.regRead 2), .jtagAccess (.regWrite 0x1000001 0),
    .contextWrite 0 160 0, .contextWrite 0 2 0].any (fun i => i.wellFormed) = false := by decide

theorem test_illformed_lengths : [Instr.captureRemoval (.facet 0) 0, .dmaReadReturn 0 ⟨⟨0, 0⟩, [1], none⟩, .dmaReadReturn 0 ⟨⟨0, 0⟩, [], some 0⟩,
    .dmaReadReturn 0 ⟨⟨0, 0⟩, [], some 8⟩, .bulkReceive 0 [] none 0, .vaultAccess [⟨.host, 0, .write [none], ⟨0, 0⟩⟩], .bar2Access 0 (.read 0) [],
    .bar2Access 0x1FFFFFF (.read 2) [], .busError 0 0 0, .busError 0 8 0, .bar4Read 0 0 [], .bar4Read 0xFFFFFFF 2 [], .qspiWrite 0 0 [],
    .qspiWrite 0 0 [1, 2], .ucodeLoaded 0 0 [] [], .ucodeLoaded 0 0 (List.replicate 0xE0 0) (List.replicate 257 0),
    .jtagAccess (.vaultWrite 0 [] [])].any (fun i => i.wellFormed) = false := by decide +kernel

theorem test_illformed_legacy_table : (Instr.ucodeLoaded 0 0 (List.replicate 0xE0 0) (List.replicate 257 0)).wellFormed = false := by decide +kernel

theorem test_illformed_links : [Instr.routeReceive ⟨0, 0, [], 0, #v[none, none, none, none], #v[false, false, false, false], 0, false⟩,
    .census (.node ⟨0, 0, [], 0, #v[none, none, none, none], #v[false, false, false, false], 0, false⟩),
    .incrementalAdmission (.node ⟨0, 0, [], 0, #v[none, none, none, none], #v[false, false, false, false], 0, false⟩),
    .cellReceive 0 true 0 0 ⟨false, 0, 0, .bulk [] none⟩, .cellReceive 0 true 0 0 ⟨false, 0, 0, .reserved 11⟩,
    .cellReceive 0 true 0 0 ⟨false, 0, 0, .route ⟨0, 0, [], 0, #v[none, none, none, none], #v[false, false, false, false], 0, false⟩⟩,
    .pcieConfigRequest (.read 2), .pcieLinkUp 0 1, .pcieLinkUp 4 1, .pcieLinkUp 1 3].any (fun i => i.wellFormed) = false := by decide

/-! ### Witnesses: arithmetic, moves, branches, staged effects -/

/-- States at which `Obligations.AluRegisterResults` has its hypotheses met. -/
@[reducible] def aluRegisterResultsAt (P : Fin 17 → Routine → State → Prop) : Prop :=
  let e : Fin 17 := 2
  let a := (0 : Dword)
  let b := (0 : Dword)
  let fl := (0 : BitVec 6)
  let r := { rv a b with flags := fl }
  P e r (on e r base)

theorem witness_AluRegisterResults : aluRegisterResultsAt fun e r s => Issues e r s := by
  simp only [aluRegisterResultsAt, Issues]
  decide +kernel

/-- States at which `Obligations.AluImmediateResults` has its hypotheses met. -/
@[reducible] def aluImmediateResultsAt (P : Fin 17 → Routine → State → Prop) : Prop :=
  let e : Fin 17 := 2
  let a := (0 : Dword)
  let fl := (0 : BitVec 6)
  let r := { rv a 77 with flags := fl }
  P e r (on e r base)

theorem witness_AluImmediateResults : aluImmediateResultsAt fun e r s => Issues e r s := by
  simp only [aluImmediateResultsAt, Issues]
  decide +kernel

/-- States at which `Obligations.MovesAndCompares` has its hypotheses met. -/
@[reducible] def movesAndComparesAt (P : Fin 17 → Routine → State → Prop) : Prop :=
  let e : Fin 17 := 2
  let a := (0 : Dword)
  let fl := (0 : BitVec 6)
  let r := { rv a 77 with flags := fl }
  P e r (on e r base)

theorem witness_MovesAndCompares : movesAndComparesAt fun e r s => Issues e r s := by
  simp only [movesAndComparesAt, Issues]
  decide +kernel

/-- States at which `Obligations.Branches` has its hypotheses met. -/
@[reducible] def branchesAt (P : Fin 17 → Routine → State → Prop) : Prop :=
  let e : Fin 17 := 2
  let fl := (0 : Nat)
  let r := { r0 with flags := BitVec.ofNat 6 fl, count := if fl = 3 then 1 else 5 }
  let s := { on e r base with tlr := { (on e r base).tlr with waiting := [1, 3, 5] } }
  P e r s

theorem witness_Branches : branchesAt fun e r s => Issues e r s := by
  simp only [branchesAt, Issues]
  decide +kernel

/-- States at which `Obligations.StoresAreStaged` has its hypotheses met. -/
@[reducible] def storesAreStagedAt (P : Fin 17 → Routine → State → Prop) : Prop :=
  let e : Fin 17 := 2
  let p := (0 : Dword)
  let r := rv p 0x123456
  P e r (on e r base)

theorem witness_StoresAreStaged : storesAreStagedAt fun e r s => Issues e r s ∧ r.stage.length < 32 := by
  simp only [storesAreStagedAt, Issues]
  decide +kernel

/-- States at which `Obligations.EffectsAreStaged` has its hypotheses met. -/
@[reducible] def effectsAreStagedAt (P : Fin 17 → Fin 16 → Fin 256 → FacetSel → BitVec 12 → Routine → State → Prop) : Prop :=
  let e : Fin 17 := 2
  let a := (0 : Dword)
  let k := (0 : Nat)
  let fn := BitVec.ofNat 12 k
  let r := { rv a 0x123456 with ctx := { Context.reset with bind := 0x1A7, adom := 5 } }
  P e 1 (if k % 2 = 0 then 0xA7 else 5) (if k % 2 = 0 then .bound else .reg 0) fn r (on e r base)

theorem witness_EffectsAreStaged : effectsAreStagedAt fun e a n fs func r s =>
    let f := func.toNat
    let A := r.v[a]
    Issues e r s ∧ r.stage.length < 32 ∧ facetOf r fs = some n ∧ f % 16 = 0 ∧ f % 32 < 24 ∧ A.toNat % 16 = 0 ∧ A.toNat < 0x1000000 ∧ f / 32 = 0 := by
  simp only [effectsAreStagedAt, Issues]
  decide +kernel

/-! ### Witnesses: loads, reads, angles, endings -/

/-- A helper of the states below. -/
def default' (p : Dword) : Access := ⟨p.toNat, 8, none, [], .reg 5, 6, 0x4321, 5⟩

/-- States at which `Obligations.LoadsRead` has its hypotheses met. -/
@[reducible] def loadsReadAt1 (P : Fin 17 → Routine → State → Prop) : Prop :=
  let e : Fin 17 := 2
  let s0 := mem someMem base
  let stage : List Effect := [.store 0x40 [1,2,3,4], .store 0x44 [5,6,7,8], .atomic 0x48 false 3, .store 0x42 [9,9,9,9], .store 0xFFFFFC
    [0xAA,0xBB,0xCC,0xDD], .flush 3]
  let p := (0 : Dword)
  let c := 5
  let s1 := s0
  let r := { rv p 0x123456 with stage := stage, count := c }
  let s := on e r s1
  P e r s

theorem witness_LoadsRead_1 : loadsReadAt1 fun e r s => Issues e r s := by
  simp only [loadsReadAt1, Issues]
  decide +kernel

/-- States at which `Obligations.LoadsRead` has its hypotheses met. -/
@[reducible] def loadsReadAt2 (P : Fin 17 → List VaultRequest → Bool → Routine → State → Access → Prop) : Prop :=
  let e : Fin 17 := 2
  let s0 := mem someMem base
  let stage : List Effect := [.store 0x40 [1,2,3,4], .store 0x44 [5,6,7,8], .atomic 0x48 false 3, .store 0x42 [9,9,9,9], .store 0xFFFFFC
    [0xAA,0xBB,0xCC,0xDD], .flush 3]
  let p := (0 : Dword)
  let ec := (⟨0, 0⟩ : LineEcc)
  let w := 0
  let c := 5
  let s1 := s0
  let r := { rv p 0x123456 with stage := stage, count := c }
  let q : VaultRequest := ⟨.engine e, 3, .read, ec⟩
  let x0 : Access := default' p
  let sz := 4
  let into := LoadTo.reg 5
  let got := 0
  let act := 0
  let at' := none
  let x : Access := { x0 with size := sz, into := into, got := (List.range got).map fun k => BitVec.ofNat 8 (k + 3), atomic := at' }
  let r2 := { r with acc := some x, issueAt := 80010 - w }
  let s2 := (on e r2 s1).set (ENG_STAT.role e) act
  let s2 := { s2 with vlt := { s2.vlt with pos := w, granted := decide (w = 700) } }
  let pooled := false
  P e [q] pooled r2 s2 x

theorem witness_LoadsRead_2 : loadsReadAt2 fun e reqs pooled r s x => s.routine e = some r ∧ r.micro = none ∧ r.acc = some x ∧ x.atomic = none ∧
    x.size ≤ 64 ∧ x.got.length < x.size ∧ GoesTo e pooled reqs s := by
  simp only [loadsReadAt2, GoesTo]
  decide +kernel

/-- States at which `Obligations.FetchAndOp` has its hypotheses met. -/
@[reducible] def fetchAndOpAt (P : Fin 17 → Fin 16 → Bool → Dword → List VaultRequest → Bool → Access → Routine → State → Prop) : Prop :=
  let e : Fin 17 := 2
  let s0 := mem someMem base
  let stage : List Effect := [.store 0x40 [1,2,3,4], .store 0x44 [5,6,7,8], .atomic 0x48 false 3, .store 0x42 [9,9,9,9], .store 0xFFFFFC
    [0xAA,0xBB,0xCC,0xDD], .flush 3]
  let p := (0 : Dword)
  let ec := (⟨0, 0⟩ : LineEcc)
  let w := 0
  let c := 5
  let s1 := s0
  let r := { rv p 0x123456 with stage := stage, count := c }
  let q : VaultRequest := ⟨.engine e, 3, .read, ec⟩
  let x0 : Access := default' p
  let sz := 8
  let into := .reg 5
  let got := 0
  let act := 0
  let at' := some (true, (0x1122334455667788 : Dword))
  let x : Access := { x0 with size := sz, into := into, got := (List.range got).map fun k => BitVec.ofNat 8 (k + 3), atomic := at' }
  let r2 := { r with acc := some x, issueAt := 80010 - w }
  let s2 := (on e r2 s1).set (ENG_STAT.role e) act
  let s2 := { s2 with vlt := { s2.vlt with pos := w, granted := decide (w = 700) } }
  let pooled := false
  let sw := (at'.getD (true, (0 : Dword))).1
  let v := (at'.getD (true, (0 : Dword))).2
  P e 5 sw v [q] pooled x r2 s2

theorem witness_FetchAndOp : fetchAndOpAt fun e d swap w reqs pooled x r s =>
    let one := lineCheck 0 (x.addr / 32) (eccWord (slotEcc e reqs) (x.addr / 8)) (countSlot 0 (takeSlot (0, pooled, e.val) s))
    s.wf = true ∧ s.routine e = some r ∧ r.micro = none ∧ r.acc = some x ∧ x.atomic = some (swap, w) ∧ x.size = 8 ∧ x.got = [] ∧ x.into = .reg d ∧ x.addr
        % 8 = 0 ∧ GoesTo e pooled reqs s ∧ one.vlt.poisoned (x.addr / 8) = false := by
  simp only [fetchAndOpAt, GoesTo]
  decide +kernel

/-- States at which `Obligations.LoadsStop` has its hypotheses met. -/
@[reducible] def loadsStopAt1 (P : Fin 17 → List VaultRequest → Bool → Routine → State → Access → Prop) : Prop :=
  let e : Fin 17 := 2
  let s0 := mem someMem base
  let stage : List Effect := [.store 0x40 [1,2,3,4], .store 0x44 [5,6,7,8], .atomic 0x48 false 3, .store 0x42 [9,9,9,9], .store 0xFFFFFC
    [0xAA,0xBB,0xCC,0xDD], .flush 3]
  let p := (0 : Dword)
  let ec := (⟨0, 0⟩ : LineEcc)
  let w := 0
  let c := 5
  let s1 := s0
  let r := { rv p 0x123456 with stage := stage, count := c }
  let q : VaultRequest := ⟨.engine e, 3, .read, ec⟩
  let x0 : Access := default' p
  let sz := 4
  let into := LoadTo.reg 5
  let got := 0
  let act := 0
  let at' := none
  let x : Access := { x0 with size := sz, into := into, got := (List.range got).map fun k => BitVec.ofNat 8 (k + 3), atomic := at' }
  let r2 := { r with acc := some x, issueAt := 80010 - w }
  let s2 := (on e r2 s1).set (ENG_STAT.role e) act
  let s2 := { s2 with vlt := { s2.vlt with pos := w, granted := decide (w = 700) } }
  let pooled := false
  P e [q] pooled r2 s2 x

theorem witness_LoadsStop_1 : loadsStopAt1 fun e reqs pooled r s x => s.routine e = some r ∧ r.acc = some x ∧ x.got.length < x.size ∧ GoesTo e pooled
    reqs s ∧ (r.acc.isSome = true ∨ r.budget < r.count) := by
  simp only [loadsStopAt1, GoesTo]
  decide +kernel

/-- States at which `Obligations.LoadsStop` has its hypotheses met. -/
@[reducible] def loadsStopAt2 (P : Fin 17 → Routine → State → Prop) : Prop :=
  let e : Fin 17 := 2
  let s0 := mem someMem base
  let stage : List Effect := [.store 0x40 [1,2,3,4], .store 0x44 [5,6,7,8], .atomic 0x48 false 3, .store 0x42 [9,9,9,9], .store 0xFFFFFC
    [0xAA,0xBB,0xCC,0xDD], .flush 3]
  let p := (0 : Dword)
  let c := 5
  let s1 := s0
  let r := { rv p 0x123456 with stage := stage, count := c }
  let s := on e r s1
  P e r s

theorem witness_LoadsStop_2 : loadsStopAt2 fun e r s => Issues e r s := by
  simp only [loadsStopAt2, Issues]
  decide +kernel

/-- States at which `Obligations.SpecialFacetAndCounterReads` has its hypotheses met. -/
@[reducible] def specialFacetAndCounterReadsAt (k : Nat) (fsᵢ : Nat) (b : BitVec 9) (P : Fin 17 → FacetSel → BitVec 12 → Fin 256 → Routine → State → Capture → CntCapture → Prop) : Prop :=
  let e : Fin 17 := 2
  let s0 := mem someMem base
  let cap : Capture := ⟨0x123456789A, true⟩
  let cap2 : Capture := ⟨0x5000, false⟩
  let s1 := { s0 with fct := vmod s0.fct 7 fun f => { f with caps := [cap, cap2, cap] } }
  let s1 := { s1 with cnt := vmod s1.cnt 3 fun f => { f with caps := [⟨77, 0x555⟩, ⟨78, 0x666⟩] } }
  let s1 := { s1 with cnt := vmod s1.cnt 31 fun f => { f with caps := [⟨1, 2⟩, ⟨78, 0x666⟩, ⟨3,4⟩, ⟨5,6⟩] } }
  let own := true
  let s2 := if own then ((s1.set (FCT_CTRL.cap_owner 7) 1).set (FCT_BIND.channel 7) 3).set (CNT_BIND.en 3) 1 |>.set (CNT_BIND.channel 3) 3 else s1
  let s2 := s2.set SLO_STAT.node_id (if own then 63 else 5)
  let fn := BitVec.ofNat 12 k
  let fs := if fsᵢ = 0 then FacetSel.reg 1 else FacetSel.bound
  let n := (7 : Fin 256)
  let r := { rv 7 0x123456 with ctx := { Context.reset with bind := b, adom := 5, persona := true }, reads := [(.facet 7, 1), (.counter 3, 2)], flags := 0x15 }
  let c := ((s2.fct[7]).caps[k % 8]?).getD cap
  let cc := ((s2.cnt[(Fin.ofNat 32 k : Fin 32)]).caps[k / 32 % 4]?).getD ⟨0,0⟩
  P e fs fn n r (on e r s2) c cc

theorem witness_SpecialFacetAndCounterReads_1 : specialFacetAndCounterReadsAt 0 0 0 fun e fs func n r s c _ =>
    let f := func.toNat
    let m := Fin.ofNat 32 f
    Issues e r s ∧ f = 0 ∧ f ∉ [2, 3, 5, 6] ∧ facetOf r fs = some n ∧ (s.fct[n]).caps[f % 8]? = some c ∧ (s.cnt[m]).caps.length ≤ f / 32 % 4 := by
  simp only [specialFacetAndCounterReadsAt, Issues]
  decide +kernel

theorem witness_SpecialFacetAndCounterReads_2 : specialFacetAndCounterReadsAt 3 0 0 fun e fs func n r s _ cc =>
    let f := func.toNat
    let m := Fin.ofNat 32 f
    Issues e r s ∧ f = 3 ∧ facetOf r fs = some n ∧ (s.fct[n]).caps.length ≤ f % 8 ∧ (s.cnt[m]).caps[f / 32 % 4]? = some cc := by
  simp only [specialFacetAndCounterReadsAt, Issues]
  decide +kernel

theorem witness_SpecialFacetAndCounterReads_3 : specialFacetAndCounterReadsAt 2 1 7 fun e fs func _ r s _ _ =>
    let f := func.toNat
    Issues e r s ∧ f = 2 ∧ facetOf r fs = none := by
  simp only [specialFacetAndCounterReadsAt, Issues]
  decide +kernel

theorem witness_SpecialFacetAndCounterReads_4 : specialFacetAndCounterReadsAt 5 0 0 fun e _ func _ r s _ _ =>
    let f := func.toNat
    Issues e r s ∧ f = 5 := by
  simp only [specialFacetAndCounterReadsAt, Issues]
  decide +kernel

theorem witness_SpecialFacetAndCounterReads_5 : specialFacetAndCounterReadsAt 6 0 0 fun e _ func _ r s _ _ =>
    let f := func.toNat
    Issues e r s ∧ f = 6 := by
  simp only [specialFacetAndCounterReadsAt, Issues]
  decide +kernel

theorem witness_SpecialFacetAndCounterReads_6 : specialFacetAndCounterReadsAt 1 0 0 fun e _ func _ r s _ _ =>
    let f := func.toNat
    Issues e r s ∧ f = 1 := by
  simp only [specialFacetAndCounterReadsAt, Issues]
  decide +kernel

theorem witness_SpecialFacetAndCounterReads_7 : specialFacetAndCounterReadsAt 4 0 0 fun e _ func _ r s _ _ =>
    let f := func.toNat
    Issues e r s ∧ f = 4 ∧ s.get SLO_STAT.node_id < 64 := by
  simp only [specialFacetAndCounterReadsAt, Issues]
  decide +kernel

theorem witness_SpecialFacetAndCounterReads_8 : specialFacetAndCounterReadsAt 7 0 0 fun e _ func _ r s _ _ =>
    let f := func.toNat
    Issues e r s ∧ 7 ≤ f := by
  simp only [specialFacetAndCounterReadsAt, Issues]
  decide +kernel

/-- States at which `Obligations.AngleAndDraftInstructions` has its hypotheses met. -/
@[reducible] def angleAndDraftInstructionsAt (st : Nat) (a : Dword) (b : Dword) (fnᵢ : Nat) (hit : Bool) (P : Fin 17 → Fin 16 → Fin 16 → BitVec 12 → Routine → State → Nat → Bool → Prop) : Prop :=
  let e : Fin 17 := 2
  let s0 := mem someMem base
  let d := (1 : Fin 8)
  let s2 := crank d st (s0.set (BZL_CFG.cycle d) (if st = 3 then 1 else 0))
  let fn := if fnᵢ = 0 then (0x800 : BitVec 12) + BitVec.ofNat 12 (d.val * 256) + 5 else 0x800 + BitVec.ofNat 12 (d.val * 256) + 24
  let r := { rv a b with ctx := { Context.reset with bind := 0x107, adom := BitVec.ofNat 3 d.val }, flags := 0x2A }
  let k := domainOf r fn
  let th := ((s2.bzl[k]).angleAt (s2.cycle16 k) a).getD 0
  P e 1 2 fn r (on e r s2) th hit

theorem witness_AngleAndDraftInstructions_1 : angleAndDraftInstructionsAt 0 0 0 0 false fun e a b func r s _ hit =>
    let k := domainOf r func
    let A := r.v[a].toNat
    let B := r.v[b].toNat
    let cyc := s.cycleAu k
    let dom := s.bzl[k]
    let awp : Bool := s.tracking k = true ∧ (((s.live k).toNat + cyc - A % 2 ^ 32 % cyc) % cyc : Nat) < (B % 2 ^ 32 + cyc - A % 2 ^ 32 % cyc) % cyc
    Issues e r s ∧ (cyc ≤ A % 2 ^ 32 ∨ s.tracking k = false) ∧ (s.tracking k = false ∨ dom.angleAt (s.cycle16 k) r.v[a] = none) ∧ hit = awp ∧ B / 2 ^ 40 %
        2 ^ 16 = 0 ∧ B / 2 ^ 25 % 2 ^ 7 = 0 ∧ A % 2 ^ 32 < cyc ∧ r.stage.length < 32 ∧ (func.toNat % 32 < 24) := by
  simp only [angleAndDraftInstructionsAt, Issues]
  decide +kernel

theorem witness_AngleAndDraftInstructions_2 : angleAndDraftInstructionsAt 2 737279 0xFFFFFFFFFFFFFFFF 1 true fun e a b func r s th _ =>
    let k := domainOf r func
    let A := r.v[a].toNat
    let B := r.v[b].toNat
    let cyc := s.cycleAu k
    let dom := s.bzl[k]
    Issues e r s ∧ A % 2 ^ 32 < cyc ∧ s.tracking k = true ∧ dom.timeOf (targetOf (s.cycle16 k) dom.thetaK (A % 2 ^ 32)) ≠ noTime ∧ dom.angleAt (s.cycle16
        k) r.v[a] = some th ∧ (B / 2 ^ 40 % 2 ^ 16 ≠ 0 ∨ B / 2 ^ 25 % 2 ^ 7 ≠ 0 ∨ cyc ≤ A % 2 ^ 32) ∧ (24 ≤ func.toNat % 32) := by
  simp only [angleAndDraftInstructionsAt, Issues]
  decide +kernel

/-- States at which `Obligations.RoutineEndings` has its hypotheses met. -/
@[reducible] def routineEndingsAt (fn : Nat) (ctxᵢ : Nat) (P : Fin 17 → BitVec 12 → Ecc → Routine → State → Prop) : Prop :=
  let e : Fin 17 := 2
  let s0 := mem someMem base
  let stage : List Effect := [.store 0x40 [1,2,3,4], .store 0x44 [5,6,7,8], .atomic 0x48 false 3, .store 0x42 [9,9,9,9], .store 0xFFFFFC
    [0xAA,0xBB,0xCC,0xDD], .flush 3]
  let l1 := false
  let en := 0
  let r := { rv 0x1111 0x123456 with stage := stage, wb := { Context.reset with bind := 0x1A7, budget := 100 }, cause := 0x4001, flags := 0x33 }
  let s := (s0.set (TLR_CH_CTL.en 3) en).wr (TLR_CH_PEND 3) 0x8
  let s := if l1 then { s with tlr := { s.tlr with eng := vmod s.tlr.eng e fun x => { x with l0 := some { r with ch := 9 }, l1 := some r } } } else on e
    r s
  let s := s.set (TLR_CH_STAT.state 3) 3
  let ctx := if ctxᵢ = 0 then Ecc.clean else .uncorrectable
  P e (BitVec.ofNat 12 fn) ctx r s

theorem witness_RoutineEndings_1 : routineEndingsAt 305 0 fun e func ctx r s => Issues e r s ∧ s.wf = true ∧ ctx ≠ .uncorrectable ∧ (func.getLsbD 9 =
    true ∨ func.getLsbD 8 = true) := by
  simp only [routineEndingsAt, Issues]
  decide +kernel

theorem witness_RoutineEndings_2 : routineEndingsAt 0 1 fun e _ ctx r s => Issues e r s ∧ s.wf = true ∧ ctx = .uncorrectable := by
  simp only [routineEndingsAt, Issues]
  decide +kernel

/-- States at which `Obligations.LegacyInstructions` has its hypotheses met. -/
@[reducible] def legacyInstructionsAt (p : Dword) (P : Fin 17 → BitVec 22 → Ecc → Routine → State → Prop) : Prop :=
  let e : Fin 17 := 2
  let s0 := mem someMem base
  let stage : List Effect := [.store 0x40 [1,2,3,4], .store 0x44 [5,6,7,8], .atomic 0x48 false 3, .store 0x42 [9,9,9,9], .store 0xFFFFFC
    [0xAA,0xBB,0xCC,0xDD], .flush 3]
  let c := 5
  let s1 := s0
  let r := { rv p 0x123456 with stage := stage, count := c }
  let r := { r with v := r.v.set 14 p, stage := stage }
  let ctx := Ecc.clean
  P e 1 ctx r (on e r s1)

theorem witness_LegacyInstructions_1 : legacyInstructionsAt 0 fun e a ctx r s =>
    let addr : Nat := r.v[(14 : Fin 16)].toNat % 2 ^ 24 + 4 * a.toNat
    Issues e r s ∧ r.stage.length < 32 ∧ addr < 0x1000000 ∧ addr % 4 = 0 ∧ s.wf = true ∧ ctx ≠ .uncorrectable := by
  simp only [legacyInstructionsAt, Issues]
  decide +kernel

theorem witness_LegacyInstructions_2 : legacyInstructionsAt 0xFFFFFC fun e a _ r s =>
    let addr : Nat := r.v[(14 : Fin 16)].toNat % 2 ^ 24 + 4 * a.toNat
    Issues e r s ∧ r.stage.length < 32 ∧ (0x1000000 ≤ addr ∨ addr % 4 ≠ 0) := by
  simp only [legacyInstructionsAt, Issues]
  decide +kernel

/-- States at which `Obligations.MintInstructions` has its hypotheses met. -/
@[reducible] def mintInstructionsAt1 (P : Fin 17 → Routine → State → Prop) : Prop :=
  let e : Fin 17 := 2
  let s0 := mem someMem base
  let v := 0
  let op := 0xDF
  let nw := (0x88800000000000000000000000000000 : Nat)
  let uw := (0x1800 : BitVec 13)
  let u : BitVec 13 := 0x1805; let n : BitVec 11 := 0x605
  let s := ((s0.set (MNT_DISP.uaddr op) u.toNat).set (MNT_DISP.valid op) v)
  let s := { s with mnt := { s.mnt with micro := [(u.toNat, n ++ uw)], nano := [(n.toNat, BitVec.ofNat 128 nw)] } }
  let inn := false
  let m : Micro := ⟨0x12345678, if v = 1 then u else 0x1805, Vector.replicate 8 7, 3, 9, 0, if v = 1 then [] else [0x1900], none⟩
  let r := { rv 0x1111 0x123456 with micro := if inn then some m else none }
  let s := on e r s
  P e r s

theorem witness_MintInstructions_1 : mintInstructionsAt1 fun e r s => Issues e r s ∧ s.trapLate e = false := by
  simp only [mintInstructionsAt1, Issues]
  decide +kernel

/-- States at which `Obligations.MintInstructions` has its hypotheses met. -/
@[reducible] def mintInstructionsAt2 (P : Fin 17 → BitVec 13 → Routine → State → Micro → Fin 512 → Nat → Prop) : Prop :=
  let e : Fin 17 := 2
  let s0 := mem someMem base
  let v := 0
  let op := 0xDF
  let nw := (0x88800000000000000000000000000000 : Nat)
  let uw := (0x1800 : BitVec 13)
  let u : BitVec 13 := 0x1805; let n : BitVec 11 := 0x605
  let s := ((s0.set (MNT_DISP.uaddr op) u.toNat).set (MNT_DISP.valid op) v)
  let s := { s with mnt := { s.mnt with micro := [(u.toNat, n ++ uw)], nano := [(n.toNat, BitVec.ofNat 128 nw)] } }
  let inn := true
  let m : Micro := ⟨0x12345678, if v = 1 then u else 0x1805, Vector.replicate 8 7, 3, 9, 0, if v = 1 then [] else [0x1900], none⟩
  let r := { rv 0x1111 0x123456 with micro := if inn then some m else none }
  let s := on e r s
  let s2 := ((((s.set TLR_CTRL.preempt_en 1).set (TLR_CH_STAT.state 20) 2).set (TLR_CH_CTL.en 20) 1).wr (TLR_CH_CAUSE_EN 20) 1).wr (TLR_CH_PEND 20) 1
  let s2 := { s2 with tlr := { s2.tlr with ctx := vmod s2.tlr.ctx 20 fun x => { x with cls := 3 } } }
  let c := 70000
  let s3 := { s2 with tlr := { s2.tlr with eng := vmod s2.tlr.eng e fun x => { x with sel := some (20, c) } } }
  P e u r s3 m 20 c

theorem witness_MintInstructions_2 : mintInstructionsAt2 fun e u r s m ch c => s.routine e = some r ∧ r.count ≤ r.budget ∧ r.acc = none ∧ r.micro =
    some m ∧ m.u = u ∧ s.trapLate e = true ∧ (s.tlr.eng[e]).sel = some (ch, c) ∧ ((s.tlr.eng[e]).l0).bind (·.micro) = some m := by decide +kernel

/-! ### Witnesses: registers, batches, timebase, counters -/

/-- A helper of the states below. -/
def st1 : State := 
  let s := mem someMem base
  let s := s.wr GBL_SCRATCH 0x12345678
  s

/-- States at which `Obligations.AccessCodes` has its hypotheses met. -/
@[reducible] def accessCodesAt (P : RegWord → Nat → Prop) : Prop :=
  let blk := (0 : Nat)
  let k := (0 : Nat)
  let off := blk * 0x10000 + 4 * k
  let r := (regWordAt off).getD ⟨0,0,0,0,0,0,0,0,0,0,0,[]⟩
  let b := (0 : Nat)
  P r b

theorem witness_AccessCodes : accessCodesAt fun r k =>
    let has (m : Nat) : Bool := m.testBit k
    k < 32 ∧ r.bad = [] ∧ (has r.rwl = true → has r.rw = true) ∧ (has r.w1c = true → has r.rw = false ∧ has r.w1s = false) ∧ (has r.w1s = true → has r.rw
        = false) ∧ (∀ j < 40, r.rwl.testBit j = true → r.rw.testBit j = true) := by decide +kernel

/-- States at which `Obligations.RegistersReadBack` has its hypotheses met. -/
@[reducible] def registersReadBackAt (P : State → Fld → Prop) : Prop :=
  let s := st1
  let f := CNT_CTRL.run 5
  P s f

theorem witness_RegistersReadBack : registersReadBackAt fun s f => s.wf = true ∧ f.lo ≤ f.hi ∧ f.hi < 32 ∧ f.lo = f.hi := by decide +kernel

/-- States at which `Obligations.PlainRegisterWrites` has its hypotheses met. -/
@[reducible] def plainRegisterWritesAt (vᵢ : Nat) (offᵢ : Nat) (P : Word → Fin 32 → Fin 4 → Fin 256 → Fin 8 → Fin 16 → Fin 2 → Fin 512 → Fin 1024 → BitVec 16 → Nat → Nat → Prop) : Prop :=
  let v := (0 : Word)
  let n := (0 : Fin 32)
  let d := (0 : Fin 8)
  let f : Fin 256 := Fin.ofNat 256 (n * 5); let m : Fin 16 := Fin.ofNat 16 (n * 3); let e : Fin 2 := Fin.ofNat 2 n; let k : Fin 4 := Fin.ofNat 4 d
  let ch : Fin 512 := 300; let x : Fin 1024 := 700; let i : BitVec 16 := 0x8123
  let v := [v, 1, 700].getD vᵢ (v)
  let off := [GBL_GO_AT_MASK, GBL_GO, GBL_HALT, TB_SLEW, CNT_CMP n k, CNT_CTRL n, CNT_VAL n, FCT_CTRL f, FCT_FILT f, FCT_RATE f, FCT_SCHED_CMD f,
    BZL_TBL_DATA d, 0xA0000 + 0xA0 * 300 + 8, 0xC0000 + 4 * i.toNat, MNT_UDATA, MNT_NADDR, MNT_NDATA 3, MNT_DISP f, ETH_PTP_OFS, VLT_ATOM_CMD, IC_SRC
    x, HST_BATCH_DATA, IC_EOI, 3].getD offᵢ (GBL_GO_AT_MASK)
  P v n k f d m e ch x i off 8

theorem witness_PlainRegisterWrites_1 : plainRegisterWritesAt 0 0 fun _ n k f d m e _ _ _ off _ => off ∈ [GBL_GO_AT_MASK, GBL_GO_AT_TALLY,
    GBL_GO_AT_TALLY + 4, GBL_SCRATCH, TB_CTRL, CNT_BIND n, FCT_BIND f, FCT_SCHED_TIME f, FCT_SCHED_TIME f + 4, FCT_ROUTE n, FCT_STAT f, BZL_BIND d,
    BZL_TBL_IDX d, BZL_DFT_W0 d, WHL_STAT d, TLR_STAT, MNT_UADDR, VLT_ROT, VLT_SCRUB, ADC_GPER d, ADC_CAL_TGT, DMA_GSTAT, DBK_WIN, DBK_SEAL_TIME m,
    ETH_CTRL e, ETH_PTP_GAIN, ETH_TLM_IP d, IC_CTRL, IC_STORM, SLO_PUB k, SLO_PORT_STAT k, FLT_STAT, PWR_ALARM, ASY_TLIM, HST_BATCH_ADDR,
    HST_BATCH_TALLY] := by decide +kernel

theorem witness_PlainRegisterWrites_2 : plainRegisterWritesAt 0 1 fun _ _ _ _ _ _ _ _ _ _ off _ => off = GBL_GO := by decide +kernel

theorem witness_PlainRegisterWrites_3 : plainRegisterWritesAt 0 2 fun _ _ _ _ _ _ _ _ _ _ off _ => off = GBL_HALT := by decide +kernel

theorem witness_PlainRegisterWrites_4 : plainRegisterWritesAt 0 3 fun _ _ _ _ _ _ _ _ _ _ off _ => off = TB_SLEW := by decide +kernel

theorem witness_PlainRegisterWrites_5 : plainRegisterWritesAt 0 4 fun _ n k _ _ _ _ _ _ _ off _ => off = CNT_CMP n k := by decide +kernel

theorem witness_PlainRegisterWrites_6 : plainRegisterWritesAt 0 5 fun _ n _ _ _ _ _ _ _ _ off _ => off = CNT_CTRL n := by decide +kernel

theorem witness_PlainRegisterWrites_7 : plainRegisterWritesAt 0 6 fun _ n _ _ _ _ _ _ _ _ off _ => off = CNT_VAL n := by decide +kernel

theorem witness_PlainRegisterWrites_8 : plainRegisterWritesAt 0 7 fun _ _ _ f _ _ _ _ _ _ off _ => off = FCT_CTRL f := by decide +kernel

theorem witness_PlainRegisterWrites_9 : plainRegisterWritesAt 0 8 fun _ _ _ f _ _ _ _ _ _ off _ => off = FCT_FILT f := by decide +kernel

theorem witness_PlainRegisterWrites_10 : plainRegisterWritesAt 0 9 fun _ _ _ f _ _ _ _ _ _ off _ => off = FCT_RATE f := by decide +kernel

theorem witness_PlainRegisterWrites_11 : plainRegisterWritesAt 0 10 fun _ _ _ f _ _ _ _ _ _ off _ => off = FCT_SCHED_CMD f := by decide +kernel

theorem witness_PlainRegisterWrites_12 : plainRegisterWritesAt 0 11 fun _ _ _ _ d _ _ _ _ _ off _ => off = BZL_TBL_DATA d := by decide +kernel

theorem witness_PlainRegisterWrites_13 : plainRegisterWritesAt 0 12 fun _ _ _ _ _ _ _ ch _ _ off w => off = 0xA0000 + 0xA0 * ch + w ∧ w < 0xA0 ∧ w % 4
    = 0 := by decide +kernel

theorem witness_PlainRegisterWrites_14 : plainRegisterWritesAt 0 13 fun _ _ _ _ _ _ _ _ _ i off _ => off = 0xC0000 + 4 * i.toNat := by decide +kernel

theorem witness_PlainRegisterWrites_15 : plainRegisterWritesAt 0 14 fun _ _ _ _ _ _ _ _ _ _ off _ => off = MNT_UDATA := by decide +kernel

theorem witness_PlainRegisterWrites_16 : plainRegisterWritesAt 0 15 fun _ _ _ _ _ _ _ _ _ _ off _ => off = MNT_NADDR := by decide +kernel

theorem witness_PlainRegisterWrites_17 : plainRegisterWritesAt 0 16 fun _ _ _ _ _ _ _ _ _ _ off _ => off = MNT_NDATA 3 := by decide +kernel

theorem witness_PlainRegisterWrites_18 : plainRegisterWritesAt 0 17 fun _ _ _ f _ _ _ _ _ _ off _ => off = MNT_DISP f := by decide +kernel

theorem witness_PlainRegisterWrites_19 : plainRegisterWritesAt 0 18 fun _ _ _ _ _ _ _ _ _ _ off _ => off = ETH_PTP_OFS := by decide +kernel

theorem witness_PlainRegisterWrites_20 : plainRegisterWritesAt 1 19 fun v _ _ _ _ _ _ _ _ _ off _ => off = VLT_ATOM_CMD ∧ v = 1 := by decide +kernel

theorem witness_PlainRegisterWrites_21 : plainRegisterWritesAt 0 20 fun _ _ _ _ _ _ _ _ x _ off _ => off = IC_SRC x := by decide +kernel

theorem witness_PlainRegisterWrites_22 : plainRegisterWritesAt 0 21 fun _ _ _ _ _ _ _ _ _ _ off _ => off = HST_BATCH_DATA := by decide +kernel

theorem witness_PlainRegisterWrites_23 : plainRegisterWritesAt 2 22 fun v _ _ _ _ _ _ _ x _ off _ => off = IC_EOI ∧ v.toNat = x := by decide +kernel

theorem witness_PlainRegisterWrites_24 : plainRegisterWritesAt 0 23 fun _ _ _ _ _ _ _ _ _ _ off _ => (off % 4 ≠ 0 ∨ (0xB4000 ≤ off ∧ off < 0xC0000) ∨
    (0x1D0000 ≤ off ∧ off < 0x1E0000) ∨ 0x1E2000 ≤ off) := by decide +kernel

/-- States at which `Obligations.HostBatchCommands` has its hypotheses met. -/
@[reducible] def hostBatchCommandsAt (fillᵢ : Nat) (ov : Bool) (pendᵢ : Nat) (P : State → PendingBatch → Prop) : Prop :=
  let ent : List (Nat × Word) := [(CNT_CMP 3 1, 77), (FCT_CTRL 3, 2), (CNT_CMP 3 1, 79)]
  let fill := [[], List.replicate 64 (GBL_SCRATCH, 2), ent].getD fillᵢ ([])
  let pend := [(none : Option PendingBatch), (some (⟨98, ent⟩ : PendingBatch) : Option PendingBatch), (some ⟨102, ent⟩ : Option PendingBatch)].getD
    pendᵢ ((none : Option PendingBatch))
  let T := 0
  let s := { st1.wr64 HST_BATCH_TALLY (BitVec.ofNat 64 T) with hst := ⟨fill, ov, pend⟩ }
  P s (pend.getD ⟨0, []⟩)

theorem witness_HostBatchCommands_1 : hostBatchCommandsAt 0 true 0 fun s _ =>
    let h := s.hst
    h.fill.length < 64 ∧ h.fill = [] ∧ h.pend = none := by decide +kernel

theorem witness_HostBatchCommands_2 : hostBatchCommandsAt 1 true 1 fun s p =>
    let h := s.hst
    64 ≤ h.fill.length ∧ h.fill ≠ [] ∧ h.pend.isSome = true ∧ h.pend = some p ∧ p.tally ≤ s.tally + 1 ∧ p.tally ≤ s.tally := by decide +kernel

theorem witness_HostBatchCommands_3 : hostBatchCommandsAt 0 true 2 fun s p =>
    let h := s.hst
    h.pend = some p ∧ s.tally + 1 < p.tally ∧ s.tally < p.tally := by decide +kernel

theorem witness_HostBatchCommands_4 : hostBatchCommandsAt 2 true 0 fun s _ =>
    let h := s.hst
    h.fill ≠ [] ∧ h.pend = none ∧ (h.overflow = true ∨ (∃ x ∈ h.fill, batchable x.1 = false)) := by decide +kernel

theorem witness_HostBatchCommands_5 : hostBatchCommandsAt 2 false 0 fun s _ =>
    let h := s.hst
    h.fill ≠ [] ∧ h.pend = none ∧ h.overflow = false ∧ (∀ x ∈ h.fill, batchable x.1 = true) := by decide +kernel

/-- States at which `Obligations.TimebaseCommands` has its hypotheses met. -/
@[reducible] def timebaseCommandsAt (own : Nat) (r : Word) (dn : Bool) (lock : Nat) (boot : Nat) (P : State → SlewOwner → Word → Prop) : Prop :=
  let src := SlewOwner.host
  let b := (true : Bool)
  let pst := 0
  let s := { ((((st1.set TB_CTRL.slew_src own).set TB_STAT.pll_lock lock).set FLT_BOOT.pll boot).set PWR_STAT.state pst) with tb := { st1.tb with boundary := b, boundaryDone := dn, aon := 12345 } }
  P s src r

theorem witness_TimebaseCommands_1 : timebaseCommandsAt 0 0 false 1 1 fun s src rate =>
    let own := s.get TB_CTRL.slew_src = match src with | .host => 0 | .ptp => 1 | .sloulo => 2
    s.tb.boundary = true ∧ s.tb.boundaryDone = false ∧ own ∧ -68719476 ≤ rate.toInt ∧ rate.toInt ≤ 68719476 ∧ s.flag TB_STAT.pll_lock = true := by decide +kernel

theorem witness_TimebaseCommands_2 : timebaseCommandsAt 1 0 true 0 1 fun s src _ =>
    let own := s.get TB_CTRL.slew_src = match src with | .host => 0 | .ptp => 1 | .sloulo => 2
    (s.tb.boundary = false ∨ s.tb.boundaryDone = true) ∧ (¬ own) ∧ s.wf = true ∧ s.flag TB_STAT.pll_lock = false ∧ s.flag FLT_BOOT.pll = true ∧ s.get
        PWR_STAT.state ≠ 6 := by decide +kernel

theorem witness_TimebaseCommands_3 : timebaseCommandsAt 0 68719477 false 0 0 fun s src rate =>
    let own := s.get TB_CTRL.slew_src = match src with | .host => 0 | .ptp => 1 | .sloulo => 2
    own ∧ 68719476 < rate.toInt ∧ s.wf = true ∧ s.flag FLT_BOOT.pll = false ∧ s.get PWR_STAT.state ≠ 5 := by decide +kernel

theorem witness_TimebaseCommands_4 : timebaseCommandsAt 0 0x80000000 false 1 1 fun s src rate =>
    let own := s.get TB_CTRL.slew_src = match src with | .host => 0 | .ptp => 1 | .sloulo => 2
    own ∧ rate.toInt < -68719476 := by decide +kernel

/-- States at which `Obligations.CounterCommands` has its hypotheses met. -/
@[reducible] def counterCommandsAt (run : Nat) (val : Word) (curᵢ : Nat) (evt : Nat) (pa : Nat) (P : State → Fin 32 → Fin 4 → Word → Bool → CntCapture → List CntCapture → Prop) : Prop :=
  let n := (0 : Fin 32)
  let k := (0 : Fin 4)
  let cur := [none, some ((5 : Word), false), some (0xFFFFFFFF, false)].getD curᵢ (none)
  let s := ((((st1.set (CNT_CTRL.run n) run).wr (CNT_VAL n) val).set (CNT_CMPCTL.evt n k) evt).set (CNT_CMPCTL.pin_act n k) pa).set (CNT_CMPCTL.facet n
    k) 200
  let s := { s with cnt := vmod s.cnt n fun c => { c with cmp := vmod c.cmp k fun y => { y with cur := cur }, ctlPrev := s.rd (CNT_CTRL n), caps := if evt = 1 then [⟨3, 4⟩, ⟨5, 0x123456789⟩] else [] } }
  let s := s.set (CNT_CTRL.zero_on_go n) evt
  P s n k ((cur.getD (0, false)).1) ((cur.getD (0, false)).2) ⟨3, 4⟩ [⟨5, 0x123456789⟩]

theorem witness_CounterCommands_1 : counterCommandsAt 0 0 0 0 0 fun s n k _ _ _ _ =>
    let count := (s.rd (CNT_VAL n)).toNat
    s.wf = true ∧ s.flag (CNT_CTRL.run n) = false ∧ (count ≠ 2 ^ 32 - 1 ∨ fieldOf (s.cnt[n]).ctlPrev (CNT_CTRL.run n) ≠ 1) ∧ ((s.cnt[n]).cmp[k]).cur =
        none ∧ (s.cnt[n]).caps = [] := by decide +kernel

theorem witness_CounterCommands_2 : counterCommandsAt 1 0xFFFFFFFF 1 1 2 fun s n k c l cc ll =>
    let count := (s.rd (CNT_VAL n)).toNat
    s.wf = true ∧ s.flag (CNT_CTRL.run n) = true ∧ count = 2 ^ 32 - 1 ∧ fieldOf (s.cnt[n]).ctlPrev (CNT_CTRL.run n) = 1 ∧ ((s.cnt[n]).cmp[k]).cur = some
        (c, l) ∧ c.toNat ≠ count ∧ (c - s.rd (CNT_VAL n)).toNat < 2 ^ 31 ∧ (s.cnt[n]).caps = cc :: ll := by decide +kernel

theorem witness_CounterCommands_3 : counterCommandsAt 0 0 2 0 0 fun s n k c l _ _ =>
    let count := (s.rd (CNT_VAL n)).toNat
    s.wf = true ∧ ((s.cnt[n]).cmp[k]).cur = some (c, l) ∧ (c.toNat = count ∨ 2 ^ 31 ≤ (c - s.rd (CNT_VAL n)).toNat) := by decide +kernel

/-- States at which `Obligations.GoAndHalt` has its hypotheses met. -/
@[reducible] def goAndHaltAt (g : Option GoAtReq) (T : Nat) (fab : Nat) (P : State → Fin 64 → Dword → GoAtReq → Prop) : Prop :=
  let b := true
  let s := (forAll 32 (fun n s => (s.set (CNT_CTRL.run n) (n.val % 2)).set (CNT_CTRL.zero_on_go n) (n.val / 2 % 2) |>.wr (CNT_VAL n) 77) st1)
  let s := { ((s.wr64 GBL_GO_AT_TALLY (BitVec.ofNat 64 T)).set GBL_GO_AT_CTRL.fabric fab).set GBL_GO_AT_CTRL.accept_remote fab with goAt := g, goDone := if b && fab == 1 then some (5, T) else none, goNow := if b then 0xFF else 0, haltNow := if b then 0xF00000F0 else 0, tb := { s.tb with boundary := b } }
  P s 5 (BitVec.ofNat 64 T) (g.getD ⟨0, 0, none, false⟩)

theorem witness_GoAndHalt_1 : goAndHaltAt (some (⟨0xF0F0, 100, none, false⟩ : GoAtReq)) 100 1 fun s node tally q =>
    let R := tally.toNat
    s.wf = true ∧ s.goAt = some q ∧ s.tb.boundary = true ∧ q.tally ≤ s.tally ∧ s.goAt.isSome = true ∧ s.flag GBL_GO_AT_CTRL.accept_remote = true ∧
        s.goDone = some (node, R) := by decide +kernel

theorem witness_GoAndHalt_2 : goAndHaltAt none 100 0 fun s node tally _ =>
    let T := (s.rd64 GBL_GO_AT_TALLY).toNat
    let R := tally.toNat
    s.wf = true ∧ s.goAt = none ∧ T ≤ s.tally + 1 ∧ s.flag GBL_GO_AT_CTRL.accept_remote = false ∧ s.goDone ≠ some (node, R) := by decide +kernel

theorem witness_GoAndHalt_3 : goAndHaltAt (some ⟨0xF0F0, 101, some 5, false⟩) 101 0 fun s node tally q =>
    let R := tally.toNat
    s.wf = true ∧ s.goAt = some q ∧ s.tally < q.tally ∧ q.fabric = false ∧ s.goDone ≠ some (node, R) ∧ q.remote = some node ∧ q.tally = R := by decide +kernel

theorem witness_GoAndHalt_4 : goAndHaltAt none 100 1 fun s _ tally _ =>
    let R := tally.toNat
    s.wf = true ∧ s.flag GBL_GO_AT_CTRL.accept_remote = true ∧ s.goAt = none ∧ R ≤ s.tally + 1 := by decide +kernel

theorem witness_GoAndHalt_5 : goAndHaltAt none 102 0 fun s _ _ _ =>
    let T := (s.rd64 GBL_GO_AT_TALLY).toNat
    s.wf = true ∧ s.goAt = none ∧ s.tally + 2 ≤ T ∧ s.flag GBL_GO_AT_CTRL.fabric = false := by decide +kernel

theorem witness_GoAndHalt_6 : goAndHaltAt none 102 1 fun s _ tally _ =>
    let R := tally.toNat
    s.wf = true ∧ s.flag GBL_GO_AT_CTRL.accept_remote = true ∧ s.goAt = none ∧ s.tally + 2 ≤ R := by decide +kernel

/-! ### Witnesses: facets and inputs -/

/-- A helper of the states below. -/
def fm (n : Fin 256) (f : Facet → Facet) (s : State) : State := { s with fct := vmod s.fct n f }

/-- A helper of the states below. -/
def arm (t : Nat) (act : BitVec 2) (drop : Bool) (tag : Byte) (u : Bool) : Armed := ⟨BitVec.ofNat 64 t, act, drop, tag, true, none, u⟩

/-- A helper of the states below. -/
def N : Nat := 800123

/-- A helper of the states below. -/
def queues : List (List Armed) := [[], [arm N 1 false 5 true], [arm (N-3) 3 true 5 true, arm (N+4) 2 false 6 true, arm (N+4) 1 false 7 false], [arm (N+8) 1 false 5 true],
  [arm (N+7) 3 false 5 true, arm (N+9) 2 false 5 true, arm (N+10) 2 false 6 false, arm (N+10) 0 false 5 false], [arm (N-100) 2 false 5 true, arm (N+100) 2 false 5 true], [arm (N+6) 0 true 5 true, arm (N+8) 1 false 5 true],
  [arm (N + 2^39 + 5) 1 false 5 true], [arm (N-1) 1 false 9 true]]

/-- States at which `Obligations.ArmedEntriesArrive` has its hypotheses met. -/
@[reducible] def armedEntriesArriveAt (q : List Armed) (mode : Nat) (ogᵢ : Nat) (v : Word) (P : State → Fin 256 → ArmSpec → Word → Fin 8 → Fin 256 → Prop) : Prop :=
  let s0 := mem someMem base
  let n := (0 : Fin 256)
  let hold := (false : Bool)
  let frz := (false : Bool)
  let gh := 0
  let lv := 0
  let o := true
  let s := ((s0.set (FCT_CTRL.mode n) mode).set FCT_GSAFE.held gh).set (FCT_CTRL.safe_lvl n) lv
  let s := fm n (fun f => { f with queue := q, hold := hold, frozen := frz, wasOut := mode ≥ 2, edges := if gh = 1 then [(BitVec.ofNat 64 N, o)] else if lv = 3 then [(s.now + 5, o)] else [], out := o, freed := if lv = 2 then 2 else 0 })
    s
  let s := (s.set (FCT_BIND.en n) 1).set (FCT_BIND.channel n) 77
  let t := (none : Option Time)
  let dr := true
  let og := if ogᵢ = 0 then none else some ((3 : Fin 8), (9 : Fin 256))
  P s n ⟨t, 2, dr, 0x66, true, og⟩ v 3 9

theorem witness_ArmedEntriesArrive_1 : armedEntriesArriveAt [] 0 0 0 fun s n x v _ _ =>
    let f := s.fct[n]
    let open' := f.wasOut = true ∧ (f.frozen = false ∨ s.held n = false)
    x.origin = none ∧ (¬ open') ∧ fieldOf v (FCT_SCHED_CMD.push n) = 0 := by decide +kernel

theorem witness_ArmedEntriesArrive_2 : armedEntriesArriveAt [] 2 0 0x80000000 fun s n x v _ _ =>
    let f := s.fct[n]
    let open' := f.wasOut = true ∧ (f.frozen = false ∨ s.held n = false)
    x.origin = none ∧ open' ∧ f.queue.length + f.freed < 4 ∧ fieldOf v (FCT_SCHED_CMD.push n) ≠ 0 := by decide +kernel

theorem witness_ArmedEntriesArrive_3 : armedEntriesArriveAt [] 0 1 0 fun s _ x _ d i => x.origin = some (d, i) ∧ (s.draft d i).status ≠ .armed := by decide +kernel

theorem witness_ArmedEntriesArrive_4 : armedEntriesArriveAt [arm (N+7) 3 false 5 true, arm (N+9) 2 false 5 true, arm (N+10) 2 false 6 false, arm
    (N+10) 0 false 5 false] 2 0 0 fun s n x _ _ _ =>
    let f := s.fct[n]
    let open' := f.wasOut = true ∧ (f.frozen = false ∨ s.held n = false)
    x.origin = none ∧ open' ∧ 4 ≤ f.queue.length + f.freed ∧ s.wf = true := by decide +kernel

/-- States at which `Obligations.FacetCompareActs` has its hypotheses met. -/
@[reducible] def facetCompareActsAt (P : State → Fin 256 → Armed → Prop) : Prop :=
  let s0 := mem someMem base
  let n := (0 : Fin 256)
  let q := ([arm N 1 false 5 true] : List Armed)
  let mode := 0
  let hold := (false : Bool)
  let frz := (false : Bool)
  let gh := 0
  let lv := 0
  let o := true
  let s := ((s0.set (FCT_CTRL.mode n) mode).set FCT_GSAFE.held gh).set (FCT_CTRL.safe_lvl n) lv
  let s := fm n (fun f => { f with queue := q, hold := hold, frozen := frz, wasOut := mode ≥ 2, edges := if gh = 1 then [(BitVec.ofNat 64 N, o)] else if lv = 3 then [(s.now + 5, o)] else [], out := o, freed := if lv = 2 then 2 else 0 })
    s
  let s := (s.set (FCT_BIND.en n) 1).set (FCT_BIND.channel n) 77
  let a := (q.filter s.actsNow).headD (arm 5 1 false 5 true)
  P s n a

theorem witness_FacetCompareActs : facetCompareActsAt fun s n a => s.wf = true ∧ (s.fct[n]).queue.filter s.actsNow = [a] ∧ (s.fct[n]).lateNow = [] := by decide +kernel

/-- States at which `Obligations.FacetQueueAndHold` has its hypotheses met. -/
@[reducible] def facetQueueAndHoldAt (hold : Bool) (P : State → Fin 256 → Prop) : Prop :=
  let s0 := mem someMem base
  let n := (0 : Fin 256)
  let q := ([] : List Armed)
  let mode := 0
  let frz := (false : Bool)
  let gh := 0
  let lv := 0
  let o := true
  let s := ((s0.set (FCT_CTRL.mode n) mode).set FCT_GSAFE.held gh).set (FCT_CTRL.safe_lvl n) lv
  let s := fm n (fun f => { f with queue := q, hold := hold, frozen := frz, wasOut := mode ≥ 2, edges := if gh = 1 then [(BitVec.ofNat 64 N, o)] else if lv = 3 then [(s.now + 5, o)] else [], out := o, freed := if lv = 2 then 2 else 0 })
    s
  let s := (s.set (FCT_BIND.en n) 1).set (FCT_BIND.channel n) 77
  P s n

theorem witness_FacetQueueAndHold_1 : facetQueueAndHoldAt false fun s n =>
    let f := s.fct[n]
    s.wf = true ∧ f.hold = false := by decide +kernel

theorem witness_FacetQueueAndHold_2 : facetQueueAndHoldAt true fun s n =>
    let f := s.fct[n]
    s.wf = true ∧ f.hold = true := by decide +kernel

/-- States at which `Obligations.SafeStates` has its hypotheses met. -/
@[reducible] def safeStatesAt (gh : Nat) (sn : Nat) (la : Nat) (P : State → Prop) : Prop :=
  let s0 := mem someMem base
  let io := 0
  let pst := 0
  let s := forAll 256 (fun n s => ((s.set (FCT_CTRL.mode n) (n.val % 4)).set (FCT_CTRL.safe_lvl n) (n.val / 4 % 4)) |> fm n (fun f => { f with latched := BitVec.ofNat 2 (n.val / 16 % 3), hold := n.val = 7 }))
    s0
  let pll := 0
  let s := ((((s.set TB_STAT.pll_lock pll).set FCT_GSAFE.held gh).set FCT_GSAFE.safe_n sn).set FCT_GSAFE.io_hold io).set FCT_GSAFE.latch la |>.set
    PWR_STAT.state pst
  let s := { s with safeN := sn = 1 }
  P s

theorem witness_SafeStates_1 : safeStatesAt 0 1 0 fun s => s.wf = true ∧ (s.flag FCT_GSAFE.held = false ∨ s.flag FCT_GSAFE.safe_n = false ∨ s.flag
    FCT_GSAFE.latch = true) ∧ s.flag FCT_GSAFE.safe_n = true := by decide +kernel

theorem witness_SafeStates_2 : safeStatesAt 1 1 0 fun s => s.wf = true ∧ s.flag FCT_GSAFE.held = true ∧ s.flag FCT_GSAFE.safe_n = true ∧ s.flag
    FCT_GSAFE.latch = false := by decide +kernel

theorem witness_SafeStates_3 : safeStatesAt 1 0 1 fun s => s.wf = true ∧ s.flag FCT_GSAFE.safe_n = false := by decide +kernel

/-- States at which `Obligations.EdgesAccepted` has its hypotheses met. -/
@[reducible] def edgesAcceptedAt (sil : Bool) (due : Nat) (mode : Nat) (ce : Nat) (rm : Nat) (P : State → Fin 256 → Fin 8 → Flight → Prop) : Prop :=
  let s0 := mem someMem base
  let n := (0 : Fin 256)
  let w := (0 : Fin 8)
  let lvl := true
  let mu := (false : Bool)
  let ml := (false : Bool)
  let mt := 0
  let sl := 0
  let sv := 0
  let sc := 0
  let sf := (false : Bool)
  let x : Flight := ⟨lvl, 799999, due, sil, 100000⟩
  let inp : InPath := { InPath.reset with flight := [x, x], muteNow := mu, muteLatched := ml, muteUntil := mt, limTally := if mode = 0 then 7 else 99, limCount := sc + (if mode = 2 then 5 else 0), stuckCount := sc, stuckFired := sf, filt := !lvl, first := if ce = 2 then some 3 else none }
  let s := fm n (fun f => { f with inp := inp, queue := queues.getD 4 [], caps := if ce = 2 then [⟨7, true⟩, ⟨8, false⟩] else [] }) s0
  let s := { s with whl := vmod s.whl w fun y => { y with inp := inp } }
  let s := (((((s.set (FCT_CTRL.mode n) mode).set (FCT_CTRL.cap_edge n) ce).set (FCT_RATE.max n) rm).set (FCT_FILT.stuck_lim n) sl).set
    (FCT_FILT.stuck_lvl n) sv).set (FCT_CTRL.cap_owner n) rm
  P s n w x

theorem witness_EdgesAccepted_1 : edgesAcceptedAt true 100015 1 1 0 fun s n w x =>
    let p := (s.fct[n]).inp
    let k := tallyOf x.time
    let due := decide (p.dueFlight s.tb.cyc = some x)
    due ∧ (x.silent = true ∨ (p.muteNow = true ∧ p.muteLatched = true) ∨ k < p.muteUntil) ∧ (s.whl[w]).inp.dueFlight s.tb.cyc = some x := by decide +kernel

theorem witness_EdgesAccepted_2 : edgesAcceptedAt true 100016 1 1 0 fun s n w _ =>
    let p := (s.fct[n]).inp
    p.dueFlight s.tb.cyc = none ∧ (s.whl[w]).inp.dueFlight s.tb.cyc = none := by decide +kernel

theorem witness_EdgesAccepted_3 : edgesAcceptedAt false 100015 1 1 0 fun s n _ x =>
    let p := (s.fct[n]).inp
    let k := tallyOf x.time
    let seen := if p.limTally = k then p.limCount else 0
    let max' := s.get (FCT_RATE.max n)
    let due := decide (p.dueFlight s.tb.cyc = some x)
    let judged := decide <| x.silent = false ∧ ¬ (p.muteNow = true ∧ p.muteLatched = true) ∧ p.muteUntil ≤ k
    due ∧ judged ∧ (max' = 0 ∨ seen < max') ∧ s.wf = true := by decide +kernel

theorem witness_EdgesAccepted_4 : edgesAcceptedAt false 100015 2 3 3 fun s n _ x =>
    let p := (s.fct[n]).inp
    let k := tallyOf x.time
    let seen := if p.limTally = k then p.limCount else 0
    let max' := s.get (FCT_RATE.max n)
    let due := decide (p.dueFlight s.tb.cyc = some x)
    let judged := decide <| x.silent = false ∧ ¬ (p.muteNow = true ∧ p.muteLatched = true) ∧ p.muteUntil ≤ k
    due ∧ judged ∧ max' ≠ 0 ∧ max' ≤ seen ∧ s.wf = true := by decide +kernel

/-- States at which `Obligations.InputCommands` has its hypotheses met. -/
@[reducible] def inputCommandsAt (ml : Bool) (mt : Nat) (ce : Nat) (sc : Nat) (sf : Bool) (P : State → Fin 256 → Fin 8 → Capture → List Capture → Prop) : Prop :=
  let s0 := mem someMem base
  let n := (0 : Fin 256)
  let w := (0 : Fin 8)
  let lvl := true
  let sil := true
  let mu := (true : Bool)
  let due := 5
  let mode := 1
  let rm := 0
  let sl := 5
  let sv := 1
  let x : Flight := ⟨lvl, 799999, due, sil, 100000⟩
  let inp : InPath := { InPath.reset with flight := [x, x], muteNow := mu, muteLatched := ml, muteUntil := mt, limTally := if mode = 0 then 7 else 99, limCount := sc + (if mode = 2 then 5 else 0), stuckCount := sc, stuckFired := sf, filt := !lvl, first := if ce = 2 then some 3 else none }
  let s := fm n (fun f => { f with inp := inp, queue := queues.getD 4 [], caps := if ce = 2 then [⟨7, true⟩, ⟨8, false⟩] else [] }) s0
  let s := { s with whl := vmod s.whl w fun y => { y with inp := inp } }
  let s := (((((s.set (FCT_CTRL.mode n) mode).set (FCT_CTRL.cap_edge n) ce).set (FCT_RATE.max n) rm).set (FCT_FILT.stuck_lim n) sl).set
    (FCT_FILT.stuck_lvl n) sv).set (FCT_CTRL.cap_owner n) rm
  let wm := 0
  let vo := 0
  let ar := (false : Bool)
  let tp := none
  let di := (false : Bool)
  let s := ((((s.set (WHL_CFG.mode w) wm).set (WHL_CFG.vr_pol w) (if ar && sl = 5 then 0 else 1)).set (WHL_CFG.min_thr w) 50).set (WHL_CFG.thr_frac w)
    128).set (WHL_STAT.peak w) 300
  let s := { s with whl := vmod s.whl w fun y => { y with volts := vo, armed := ar, top := tp, ext := lvl, dcFrom := if di then some 4 else none } }
  P s n w ⟨7, true⟩ [⟨8, false⟩]

theorem witness_InputCommands_1 : inputCommandsAt true 0 1 5 false fun s n w _ _ =>
    let f := s.fct[n]
    (f.inp.muteNow = false ∨ f.inp.muteLatched = true ∨ s.tally < f.inp.muteUntil) ∧ f.inp.muteNow = true ∧ f.inp.muteLatched = true ∧
        (s.whl[w]).inp.muteNow = true ∧ (s.whl[w]).inp.muteLatched = true ∧ s.get (FCT_CTRL.mode n) ≠ 0 ∧ 0 < s.get (FCT_FILT.stuck_lim n) ∧ s.get
        (FCT_FILT.stuck_lim n) ≤ f.inp.stuckCount ∧ f.inp.stuckFired = false ∧ s.wf = true ∧ f.caps = [] := by decide +kernel

theorem witness_InputCommands_2 : inputCommandsAt false 99 2 9 true fun s n w c l =>
    let f := s.fct[n]
    f.inp.muteNow = true ∧ f.inp.muteLatched = false ∧ f.inp.muteUntil ≤ s.tally ∧ (f.inp.muteNow = false ∨ f.inp.muteLatched = false) ∧
        (s.whl[w]).inp.muteNow = true ∧ (s.whl[w]).inp.muteLatched = false ∧ (s.whl[w]).inp.muteUntil ≤ s.tally ∧ f.inp.stuckFired = true ∧ f.caps = c
        :: l := by decide +kernel

/-! ### Witnesses: Bezel -/

/-- A helper of the states below. -/
def df (l : Bool) (h : Bool) (own : Fin 512) : DraftSpec := { DraftSpec.reset with angle := 130000, act := 1, facet := 9, lead := 1, limp := l, hostOwn := h, owner := own, notify := true, tag := 7 }

/-- A helper of the states below. -/
def drafts (d : Fin 8) (s : State) : State := dm d (fun x => { x with drafts := Vector.ofFn fun i =>
    let st : DraftStatus := match i.val % 9 with | 0 => .free | 1 => .draft | 2 => .armed | 3 => .done | 4 => .lateDone | 5 => .dropped | 6 => .withdrawn | 7 => .cancelled | _ => .draft
    { Draft.reset with spec := df (i.val % 2 = 0) (i.val % 5 = 0) (if i.val % 3 = 0 then 3 else 4), status := st, target := 5 * 16 * 1474560 + 500000, time := 900000, reason := 3 } }) s

/-- A helper of the states below. -/
def ticket (fr : Bool) (st : Nat) (slot : Nat) : ToothCell :=
  { time := 799000, pos := BitVec.ofNat 25 (16 * 12288 * slot), e := #v[BitVec.ofNat 25 (16*12288*(slot+1)), BitVec.ofNat 25 (16*12288*(slot+2)),BitVec.ofNat 25 (16*12288*(slot+3)),BitVec.ofNat 25 (16*12288*(slot+4))],
    slot := BitVec.ofNat 10 slot, state := BitVec.ofNat 3 st, reason := 3, dom := 1, trans := fr, cycle := false, seq := 5 }

/-- States at which `Obligations.WheelDecisions` has its hypotheses met. -/
@[reducible] def wheelDecisionsAt (st : Nat) (camt : Nat) (limp : Nat) (reseek : Nat) (dt : Nat) (back : Bool) (pi : Bool) (sec : Bool) (w : Fin 4) (rising : Bool) (P : State → Fin 8 → Time → Bool → List PriEdge → Fin 4 → Bool → Nat → Nat → Int → Prop) : Prop :=
  let s0 := mem someMem base
  let d := (0 : Fin 8)
  let now := 800123
  let cyc := 0
  let en := 1
  let s := crank d st s0
  let s := { s with tb := { s.tb with gtb := BitVec.ofNat 64 now, cyc := now / 8 } }
  let s := ((((s.set (BZL_STATE.cam_track d) camt).set (BZL_SYNC.limp_en d) limp).set (BZL_SYNC.auto_reseek d) reseek).set (BZL_CFG.cycle d) cyc).set
    (BZL_CTRL.en d) en
  let s := (s.wr (BZL_SEC_PMIN d 0) (wordOfInt (-3000))).wr (BZL_SEC_PMAX d 0) 3000
  let s := (s.wr (BZL_SEC_PMIN d 1) (wordOfInt (-3000))).wr (BZL_SEC_PMAX d 1) 3000
  let s := ((s.set (BZL_SEC_CFG.en d 0) 1).set (BZL_SEC_CFG.en d 1) 1).set (BZL_SYNC.limp_start d) 1
  let s := ((s.set (BZL_STALL.keep d) 12).set (BZL_LIMP.start_wait d) 20)
  let s := drafts d (dm d (fun x => { x with sec := [(0, 122880 + 5000 + 2^30), (64, 122880 + 5000)], watch := { x.watch with on := cyc = 1 } }) s)
  let s := { s with whl := vmod s.whl 2 fun y => { y with inp := { y.inp with stuckCount := 9, stuckFired := cyc = 1 }, peakTally := if cyc = 1 then 0 else 99 } }
  let s := ((s.set (WHL_CFG.mode 2) (1 + st % 2)).set (WHL_FILT.stuck_lim 2) 9).set (BZL_CFG.pri_whl d) 2
  let s := if camt = 1 || st = 3 then takeSettings d s else s
  let t : Time := BitVec.ofNat 64 (if pi then dt else (760123 + dt % 41000))
  let l : List PriEdge := if w = 1 then [⟨t + 100000, some false⟩] else []
  let s := dm d (fun x => { x with priIn := if pi then ⟨t, some back⟩ :: l else [], secIn := if sec then [⟨w, t, rising⟩] else [] }) s
  let s := if w = 2 then (s.set (BZL_SEC_CFG.en d 2) 1) else s
  let s := (s.wr (BZL_WIN_NORM d) 0x1800_0C00).wr (BZL_WIN_GAP d) 0x4000_1000
  let th := (placeAu s d t).getD 0
  let m := (camMatch s d w rising th).getD (0, 0)
  P s d t back l w rising th m.1 m.2

theorem witness_WheelDecisions_1 : wheelDecisionsAt 0 0 0 0 (760123 + 98000) true false false 0 true fun s d _ _ _ _ _ _ _ _ =>
    let x := s.bzl[d]
    s.wf = true ∧ d.val < 4 ∧ x.priIn = [] ∧ s.tracking d = false ∧ x.nextSec = none := by decide +kernel

theorem witness_WheelDecisions_2 : wheelDecisionsAt 2 0 0 0 (760123 + 98000) true true true 1 true fun s d t back l w rising th _ _ =>
    let x := s.bzl[d]
    let first : Prop := x.priIn = ⟨t, some back⟩ :: l
    s.wf = true ∧ d.val < 4 ∧ first ∧ back = true ∧ s.dState d = stSync ∧ s.heldBack d t = false ∧ ((x.lastPri.all (fun b => 3200 ≤ t.toNat - b.toNat)) =
        true) ∧ x.nextSec = some ⟨w, t, rising⟩ ∧ w ≠ 0 ∧ placeAu s d t = some th ∧ camMatch s d w rising th = none := by decide +kernel

theorem witness_WheelDecisions_3 : wheelDecisionsAt 2 0 0 0 (760123 + 20000) false true true 1 false fun s d t back l w rising th k ph =>
    let x := s.bzl[d]
    let T := t.toNat - (x.lastPri.getD t).toNat
    let j := s.nextSlot d x.slot
    let P := match x.pred with | some p => p.p | none => 0
    let now := takeSettings d s
    let first : Prop := x.priIn = ⟨t, some back⟩ :: l
    s.wf = true ∧ d.val < 4 ∧ first ∧ back = false ∧ s.dState d = stSync ∧ s.heldBack d t = false ∧ inWindow (now.window d j) T P 1 = false ∧ x.nextSec =
        some ⟨w, t, rising⟩ ∧ placeAu s d t = some th ∧ camMatch s d w rising th = some (k, ph) := by decide +kernel

theorem witness_WheelDecisions_4 : wheelDecisionsAt 2 0 0 0 (760123 + 98000) false true false 0 true fun s d t back l _ _ _ _ _ =>
    let x := s.bzl[d]
    let T := t.toNat - (x.lastPri.getD t).toNat
    let j := s.nextSlot d x.slot
    let P := match x.pred with | some p => p.p | none => 0
    let now := takeSettings d s
    let first : Prop := x.priIn = ⟨t, some back⟩ :: l
    s.wf = true ∧ d.val < 4 ∧ first ∧ back = false ∧ s.dState d = stSync ∧ s.heldBack d t = false ∧ inWindow (now.window d j) T P 1 = true := by decide +kernel

theorem witness_WheelDecisions_5 : wheelDecisionsAt 1 0 0 0 (760123 + 3000) true true false 0 true fun s d t back l _ _ _ _ _ =>
    let x := s.bzl[d]
    let first : Prop := x.priIn = ⟨t, some back⟩ :: l
    s.wf = true ∧ d.val < 4 ∧ first ∧ back = true ∧ s.dState d = stGap ∧ s.heldBack d t = false := by decide +kernel

theorem witness_WheelDecisions_6 : wheelDecisionsAt 6 0 0 0 (760123 + 98000) true true false 0 true fun s d t back l _ _ _ _ _ =>
    let x := s.bzl[d]
    let now := takeSettings d s
    let first : Prop := x.priIn = ⟨t, some back⟩ :: l
    s.wf = true ∧ d.val < 4 ∧ first ∧ s.dState d = stLost ∧ now.syncFlag d (BZL_SYNC.auto_reseek d) = false := by decide +kernel

theorem witness_WheelDecisions_7 : wheelDecisionsAt 6 1 1 1 (760123 + 98000) true true false 0 true fun s d t back l _ _ _ _ _ =>
    let x := s.bzl[d]
    let now := takeSettings d s
    let first : Prop := x.priIn = ⟨t, some back⟩ :: l
    s.wf = true ∧ d.val < 4 ∧ first ∧ s.dState d = stLost ∧ now.syncFlag d (BZL_SYNC.auto_reseek d) = true := by decide +kernel

/-- States at which `Obligations.TimedOutDomains` has its hypotheses met. -/
@[reducible] def timedOutDomainsAt1 (st : Nat) (P : State → Fin 8 → Fin 8 → Prop) : Prop :=
  let s0 := mem someMem base
  let d := (0 : Fin 8)
  let now := 800123
  let camt := 0
  let limp := 0
  let reseek := 0
  let cyc := 0
  let en := 1
  let s := crank d st s0
  let s := { s with tb := { s.tb with gtb := BitVec.ofNat 64 now, cyc := now / 8 } }
  let s := ((((s.set (BZL_STATE.cam_track d) camt).set (BZL_SYNC.limp_en d) limp).set (BZL_SYNC.auto_reseek d) reseek).set (BZL_CFG.cycle d) cyc).set
    (BZL_CTRL.en d) en
  let s := (s.wr (BZL_SEC_PMIN d 0) (wordOfInt (-3000))).wr (BZL_SEC_PMAX d 0) 3000
  let s := (s.wr (BZL_SEC_PMIN d 1) (wordOfInt (-3000))).wr (BZL_SEC_PMAX d 1) 3000
  let s := ((s.set (BZL_SEC_CFG.en d 0) 1).set (BZL_SEC_CFG.en d 1) 1).set (BZL_SYNC.limp_start d) 1
  let s := ((s.set (BZL_STALL.keep d) 12).set (BZL_LIMP.start_wait d) 20)
  let s := drafts d (dm d (fun x => { x with sec := [(0, 122880 + 5000 + 2^30), (64, 122880 + 5000)], watch := { x.watch with on := cyc = 1 } }) s)
  let s := { s with whl := vmod s.whl 2 fun y => { y with inp := { y.inp with stuckCount := 9, stuckFired := cyc = 1 }, peakTally := if cyc = 1 then 0 else 99 } }
  let s := ((s.set (WHL_CFG.mode 2) (1 + st % 2)).set (WHL_FILT.stuck_lim 2) 9).set (BZL_CFG.pri_whl d) 2
  let s := if camt = 1 || st = 3 then takeSettings d s else s
  P s d 2

theorem witness_TimedOutDomains_1 : timedOutDomainsAt1 0 fun s d n =>
    let p := (s.whl[n]).inp
    let due := s.get (WHL_CFG.mode n) ≠ 0 ∧ 0 < s.get (WHL_FILT.stuck_lim n) ∧ s.get (WHL_FILT.stuck_lim n) ≤ p.stuckCount ∧ p.stuckFired = false
    s.wf = true ∧ d.val < 4 ∧ s.overdueDue d = false ∧ s.tracking d = false ∧ s.keepDue d = false ∧ s.limpWatchDue d = false ∧ due ∧ (s.get (WHL_CFG.mode
        n) ≠ 1 ∨ s.tally - (s.whl[n]).peakTally < 65536) := by decide +kernel

theorem witness_TimedOutDomains_2 : timedOutDomainsAt1 1 fun s d _ => s.wf = true ∧ d.val < 4 ∧ s.overdueDue d = true ∧ s.dState d = stGap := by decide +kernel

/-- States at which `Obligations.TimedOutDomains` has its hypotheses met. -/
@[reducible] def timedOutDomainsAt2 (st : Nat) (camt : Nat) (cyc : Nat) (P : State → Fin 8 → Fin 8 → Prop) : Prop :=
  let s0 := mem someMem base
  let d := (0 : Fin 8)
  let now := 800123
  let limp := 1
  let reseek := 1
  let en := 1
  let s := crank d st s0
  let s := { s with tb := { s.tb with gtb := BitVec.ofNat 64 now, cyc := now / 8 } }
  let s := ((((s.set (BZL_STATE.cam_track d) camt).set (BZL_SYNC.limp_en d) limp).set (BZL_SYNC.auto_reseek d) reseek).set (BZL_CFG.cycle d) cyc).set
    (BZL_CTRL.en d) en
  let s := (s.wr (BZL_SEC_PMIN d 0) (wordOfInt (-3000))).wr (BZL_SEC_PMAX d 0) 3000
  let s := (s.wr (BZL_SEC_PMIN d 1) (wordOfInt (-3000))).wr (BZL_SEC_PMAX d 1) 3000
  let s := ((s.set (BZL_SEC_CFG.en d 0) 1).set (BZL_SEC_CFG.en d 1) 1).set (BZL_SYNC.limp_start d) 1
  let s := ((s.set (BZL_STALL.keep d) 12).set (BZL_LIMP.start_wait d) 20)
  let s := drafts d (dm d (fun x => { x with sec := [(0, 122880 + 5000 + 2^30), (64, 122880 + 5000)], watch := { x.watch with on := cyc = 1 } }) s)
  let s := { s with whl := vmod s.whl 2 fun y => { y with inp := { y.inp with stuckCount := 9, stuckFired := cyc = 1 }, peakTally := if cyc = 1 then 0 else 99 } }
  let s := ((s.set (WHL_CFG.mode 2) (1 + st % 2)).set (WHL_FILT.stuck_lim 2) 9).set (BZL_CFG.pri_whl d) 2
  let s := if camt = 1 || st = 3 then takeSettings d s else s
  let sv := { s with tb := { s.tb with gtb := 800000000 } }
  P sv d 2

theorem witness_TimedOutDomains_3 : timedOutDomainsAt2 2 0 1 fun s d n =>
    let limp := s.syncFlag d (BZL_SYNC.limp_en d) && s.flag (BZL_STATE.cam_track d)
    let p := (s.whl[n]).inp
    s.wf = true ∧ d.val < 4 ∧ s.overdueDue d = true ∧ s.dState d = stSync ∧ limp = false ∧ p.stuckFired = true ∧ s.get (WHL_CFG.mode n) = 1 ∧ 65536 ≤
        s.tally - (s.whl[n]).peakTally := by decide +kernel

theorem witness_TimedOutDomains_4 : timedOutDomainsAt2 0 1 0 fun s d _ => s.wf = true ∧ d.val < 4 ∧ s.limpWatchDue d = true := by decide +kernel

theorem witness_TimedOutDomains_5 : timedOutDomainsAt2 2 1 0 fun s d _ =>
    let limp := s.syncFlag d (BZL_SYNC.limp_en d) && s.flag (BZL_STATE.cam_track d)
    s.wf = true ∧ d.val < 4 ∧ s.overdueDue d = true ∧ s.dState d = stSync ∧ limp = true := by decide +kernel

theorem witness_TimedOutDomains_6 : timedOutDomainsAt2 4 1 0 fun s d _ => s.wf = true ∧ d.val < 4 ∧ s.keepDue d = true := by decide +kernel

/-- States at which `Obligations.DomainCommands` has its hypotheses met. -/
@[reducible] def domainCommandsAt1 (st : Nat) (camt : Nat) (reseek : Nat) (en : Nat) (tab : Nat) (ix : Nat) (P : State → Fin 8 → Prop) : Prop :=
  let s0 := mem someMem base
  let d := (0 : Fin 8)
  let now := 800123
  let limp := 0
  let cyc := 0
  let s := crank d st s0
  let s := { s with tb := { s.tb with gtb := BitVec.ofNat 64 now, cyc := now / 8 } }
  let s := ((((s.set (BZL_STATE.cam_track d) camt).set (BZL_SYNC.limp_en d) limp).set (BZL_SYNC.auto_reseek d) reseek).set (BZL_CFG.cycle d) cyc).set
    (BZL_CTRL.en d) en
  let s := (s.wr (BZL_SEC_PMIN d 0) (wordOfInt (-3000))).wr (BZL_SEC_PMAX d 0) 3000
  let s := (s.wr (BZL_SEC_PMIN d 1) (wordOfInt (-3000))).wr (BZL_SEC_PMAX d 1) 3000
  let s := ((s.set (BZL_SEC_CFG.en d 0) 1).set (BZL_SEC_CFG.en d 1) 1).set (BZL_SYNC.limp_start d) 1
  let s := ((s.set (BZL_STALL.keep d) 12).set (BZL_LIMP.start_wait d) 20)
  let s := drafts d (dm d (fun x => { x with sec := [(0, 122880 + 5000 + 2^30), (64, 122880 + 5000)], watch := { x.watch with on := cyc = 1 } }) s)
  let s := { s with whl := vmod s.whl 2 fun y => { y with inp := { y.inp with stuckCount := 9, stuckFired := cyc = 1 }, peakTally := if cyc = 1 then 0 else 99 } }
  let s := ((s.set (WHL_CFG.mode 2) (1 + st % 2)).set (WHL_FILT.stuck_lim 2) 9).set (BZL_CFG.pri_whl d) 2
  let s := if camt = 1 || st = 3 then takeSettings d s else s
  let s := (s.set (BZL_TBL_IDX.index d) ix).set (BZL_TBL_IDX.table d) tab
  let s := s.set (BZL_MAP_CTRL.mode d) (if st % 2 = 0 then 0 else ix % 2)
  let s := dm d (fun x => { x with mapW := [(5, -7)], mapA := [(5, -7), (6, 9)], mapPending := if reseek = 1 then some (limp = 1) else none, rev := camt = 1 })
    s
  P s d

theorem witness_DomainCommands_1 : domainCommandsAt1 0 0 0 1 0 3 fun s d =>
    let en := s.flag (BZL_CTRL.en d)
    let st := s.dState d
    let table := s.get (BZL_TBL_IDX.table d)
    s.wf = true ∧ en = true ∧ (en = false ∨ 4 ≤ d.val ∨ st = stSeek ∨ st = stGap) ∧ (st ≠ stSync ∨ s.flag (BZL_CFG.cycle d) = true ∨ 4 ≤ d.val) ∧ d.val <
        4 ∧ table ≠ 1 := by decide +kernel

theorem witness_DomainCommands_2 : domainCommandsAt1 2 1 1 0 0 3 fun s d =>
    let en := s.flag (BZL_CTRL.en d)
    let st := s.dState d
    let table := s.get (BZL_TBL_IDX.table d)
    s.wf = true ∧ en = false ∧ (4 ≤ d.val ∨ s.tablesValid d = true) ∧ st = stSync ∧ s.flag (BZL_CFG.cycle d) = false ∧ d.val < 4 ∧ table = 0 := by decide +kernel

theorem witness_DomainCommands_3 : domainCommandsAt1 2 0 0 1 1 5 fun s d =>
    let en := s.flag (BZL_CTRL.en d)
    let st := s.dState d
    let i := s.get (BZL_TBL_IDX.index d)
    let table := s.get (BZL_TBL_IDX.table d)
    s.wf = true ∧ en = true ∧ d.val < 4 ∧ (st = stSync ∨ st = stLimp ∨ st = stStall ∨ st = stReverse) ∧ s.get (BZL_MAP_CTRL.mode d) = 0 ∧ table = 1 ∧ i ≠
        0 := by decide +kernel

theorem witness_DomainCommands_4 : domainCommandsAt1 6 0 0 1 0 3 fun s d =>
    let en := s.flag (BZL_CTRL.en d)
    let st := s.dState d
    s.wf = true ∧ en = true ∧ d.val < 4 ∧ st = stLost := by decide +kernel

/-- States at which `Obligations.DomainCommands` has its hypotheses met. -/
@[reducible] def domainCommandsAt2 (P : State → Fin 8 → Prop) : Prop :=
  let s0 := mem someMem base
  let d := (0 : Fin 8)
  let st := 1
  let now := 800123
  let camt := 0
  let limp := 1
  let reseek := 1
  let cyc := 1
  let en := 1
  let s := crank d st s0
  let s := { s with tb := { s.tb with gtb := BitVec.ofNat 64 now, cyc := now / 8 } }
  let s := ((((s.set (BZL_STATE.cam_track d) camt).set (BZL_SYNC.limp_en d) limp).set (BZL_SYNC.auto_reseek d) reseek).set (BZL_CFG.cycle d) cyc).set
    (BZL_CTRL.en d) en
  let s := (s.wr (BZL_SEC_PMIN d 0) (wordOfInt (-3000))).wr (BZL_SEC_PMAX d 0) 3000
  let s := (s.wr (BZL_SEC_PMIN d 1) (wordOfInt (-3000))).wr (BZL_SEC_PMAX d 1) 3000
  let s := ((s.set (BZL_SEC_CFG.en d 0) 1).set (BZL_SEC_CFG.en d 1) 1).set (BZL_SYNC.limp_start d) 1
  let s := ((s.set (BZL_STALL.keep d) 12).set (BZL_LIMP.start_wait d) 20)
  let s := drafts d (dm d (fun x => { x with sec := [(0, 122880 + 5000 + 2^30), (64, 122880 + 5000)], watch := { x.watch with on := cyc = 1 } }) s)
  let s := { s with whl := vmod s.whl 2 fun y => { y with inp := { y.inp with stuckCount := 9, stuckFired := cyc = 1 }, peakTally := if cyc = 1 then 0 else 99 } }
  let s := ((s.set (WHL_CFG.mode 2) (1 + st % 2)).set (WHL_FILT.stuck_lim 2) 9).set (BZL_CFG.pri_whl d) 2
  let s := if camt = 1 || st = 3 then takeSettings d s else s
  let tab := 1
  let ix := 5
  let s := (s.set (BZL_TBL_IDX.index d) ix).set (BZL_TBL_IDX.table d) tab
  let s := s.set (BZL_MAP_CTRL.mode d) (if st % 2 = 0 then 0 else ix % 2)
  let s := dm d (fun x => { x with mapW := [(5, -7)], mapA := [(5, -7), (6, 9)], mapPending := if reseek = 1 then some (limp = 1) else none, rev := camt = 1 })
    s
  P (dm d (fun x => { x with pri := [] }) (s.set (BZL_CTRL.en d) 0)) d

theorem witness_DomainCommands_5 : domainCommandsAt2 fun s d =>
    let en := s.flag (BZL_CTRL.en d)
    let i := s.get (BZL_TBL_IDX.index d)
    let table := s.get (BZL_TBL_IDX.table d)
    s.wf = true ∧ en = false ∧ d.val < 4 ∧ s.tablesValid d = false ∧ table = 1 ∧ (s.get (BZL_MAP_CTRL.mode d) ≠ 0 ∨ i = 0) := by decide +kernel

/-- States at which `Obligations.DomainCommands` has its hypotheses met. -/
@[reducible] def domainCommandsAt3 (P : State → Fin 8 → Prop) : Prop :=
  let s0 := mem someMem base
  let d := (4 : Fin 8)
  let st := 0
  let now := 900000
  let cells := ([] : List ToothCell)
  let en := 0
  let mx := 0
  let fr := (true : Bool)
  let s := drafts d (crank d st s0)
  let s := { s with tb := { s.tb with gtb := BitVec.ofNat 64 now, cyc := now / 8 } }
  let s := (s.set (BZL_MIR_COAST.en d) en).set (BZL_MIR_COAST.max d) mx
  let s := s.set (BZL_CTRL.en d) (if now = 960000 then 0 else 1)
  let s := if now = 960000 then s.set (BZL_STATE.state d) 0 else s
  let s := dm d (fun x => { x with cells := cells, fresh := fr, lastCell := some 760500 }) s
  P (s.set (BZL_CTRL.en d) en) d

theorem witness_DomainCommands_6 : domainCommandsAt3 fun s d => s.wf = true ∧ 4 ≤ d.val := by decide +kernel

/-- States at which `Obligations.DraftCommands` has its hypotheses met. -/
@[reducible] def draftCommandsAt (st : Nat) (ix : Nat) (lead : Nat) (ang : Nat) (lm : Bool) (P : State → Fin 8 → Fin 256 → DraftSpec → Fin 512 → Prop) : Prop :=
  let s0 := mem someMem base
  let d := (1 : Fin 8)
  let h := 0
  let s := drafts d (crank d st s0)
  let s := { s with tb := { s.tb with gtb := 790000 } }
  let y : DraftSpec := { df lm false 3 with angle := BitVec.ofNat 21 ang, lead := BitVec.ofNat 2 lead }
  let s := s.set (BZL_DFT_IDX.index d) ix
  let org : Option (Fin 8 × Fin 256) := some (d, Fin.ofNat 256 ix)
  let a1 : Armed := ⟨790003, 1, false, 4, true, org, true⟩
  let s := if lead = 1 then { s with fct := vmod s.fct 9 fun f => { f with queue := [a1, { a1 with time := 790100 }, { a1 with time := 790200, origin := none }, { a1 with time := 790300 }] } }
    else s
  let s := if lead = 3 then { s with inflight := [(98751, .armedEntryArrival 9 ⟨some 8, 1, false, 4, true, org⟩), (98751, .rpostDelivery 3)] } else s
  let s := ((((s.set (BZL_DFT_W0.angle d) ang).set (BZL_DFT_W1.facet d) 77).set (BZL_DFT_W2.host_own d) h).set (BZL_DFT_W2.owner d) 4).set
    (BZL_DFT_CMD.refused d) 1
  P s d (Fin.ofNat 256 ix) y (if lm then 3 else 4)

theorem witness_DraftCommands_1 : draftCommandsAt 0 0 0 0 true fun s d k y ch =>
    let e := s.draft d k
    let refused := e.status = .armed ∨ (e.status ≠ .free ∧ (e.spec.hostOwn = true ∨ e.spec.owner ≠ y.owner))
    let owns := e.spec.hostOwn = false ∧ e.spec.owner = ch
    let n := Fin.ofNat 256 (s.get (BZL_DFT_IDX.index d))
    let host := hostSpec s d
    s.wf = true ∧ (¬ refused) ∧ s.tracking d = false ∧ (¬ owns ∨ (e.status ≠ .draft ∧ e.status ≠ .armed)) ∧ (¬ owns ∨ e.status = .armed) ∧ (s.draft d
        n).status ≠ .armed ∧ host.angle.toNat < s.cycleAu d ∧ (s.draft d n).status ≠ .draft := by decide +kernel

theorem witness_DraftCommands_2 : draftCommandsAt 0 1 0 1474560 false fun s d k y ch =>
    let e := s.draft d k
    let refused := e.status = .armed ∨ (e.status ≠ .free ∧ (e.spec.hostOwn = true ∨ e.spec.owner ≠ y.owner))
    let owns := e.spec.hostOwn = false ∧ e.spec.owner = ch
    let n := Fin.ofNat 256 (s.get (BZL_DFT_IDX.index d))
    let host := hostSpec s d
    s.wf = true ∧ refused ∧ owns ∧ e.status = .draft ∧ e.status ≠ .armed ∧ ((s.draft d n).status = .armed ∨ s.cycleAu d ≤ host.angle.toNat) ∧ (s.draft d
        n).status = .draft := by decide +kernel

theorem witness_DraftCommands_3 : draftCommandsAt 0 2 0 0 false fun s d k _ ch =>
    let e := s.draft d k
    let owns := e.spec.hostOwn = false ∧ e.spec.owner = ch
    let n := Fin.ofNat 256 (s.get (BZL_DFT_IDX.index d))
    let comes (k : Fin 256) (c : Nat × Instr) : Bool := match c.2 with | .armedEntryArrival _ z => z.origin == some (d, k) | _ => false
    let f := e.spec.facet
    s.wf = true ∧ owns ∧ e.status = .armed ∧ s.inflight.any (comes k) = false ∧ (((s.fct[f]).lateNext.all fun a => a.origin ≠ some (d, k)) = true) ∧
        (s.draft d n).status = .armed := by decide +kernel

theorem witness_DraftCommands_4 : draftCommandsAt 2 0 0 0 true fun s d k y _ =>
    let e := s.draft d k
    let x := s.bzl[d]
    let tgt := targetOf (s.cycle16 d) x.thetaK y.angle.toNat
    let fresh : Draft := { spec := y, status := .draft, reason := 0, target := tgt, time := x.timeOf tgt, tO := none }
    let refused := e.status = .armed ∨ (e.status ≠ .free ∧ (e.spec.hostOwn = true ∨ e.spec.owner ≠ y.owner))
    let holds := s.dState d = stSync ∨ (s.dState d = stLimp ∧ y.limp = true)
    s.wf = true ∧ (¬ refused) ∧ holds ∧ x.armable fresh = false := by decide +kernel

theorem witness_DraftCommands_5 : draftCommandsAt 2 0 0 130000 true fun s d k y _ =>
    let e := s.draft d k
    let x := s.bzl[d]
    let tgt := targetOf (s.cycle16 d) x.thetaK y.angle.toNat
    let fresh : Draft := { spec := y, status := .draft, reason := 0, target := tgt, time := x.timeOf tgt, tO := none }
    let refused := e.status = .armed ∨ (e.status ≠ .free ∧ (e.spec.hostOwn = true ∨ e.spec.owner ≠ y.owner))
    let holds := s.dState d = stSync ∨ (s.dState d = stLimp ∧ y.limp = true)
    s.wf = true ∧ (¬ refused) ∧ holds ∧ x.armable fresh = true := by decide +kernel

theorem witness_DraftCommands_6 : draftCommandsAt 3 0 0 0 false fun s d k y _ =>
    let e := s.draft d k
    let refused := e.status = .armed ∨ (e.status ≠ .free ∧ (e.spec.hostOwn = true ∨ e.spec.owner ≠ y.owner))
    s.wf = true ∧ (¬ refused) ∧ s.dState d = stLimp ∧ y.limp = false := by decide +kernel

theorem witness_DraftCommands_7 : draftCommandsAt 0 2 3 0 false fun s d k _ ch =>
    let e := s.draft d k
    let owns := e.spec.hostOwn = false ∧ e.spec.owner = ch
    let comes (k : Fin 256) (c : Nat × Instr) : Bool := match c.2 with | .armedEntryArrival _ z => z.origin == some (d, k) | _ => false
    s.wf = true ∧ owns ∧ e.status = .armed ∧ s.inflight.any (comes k) = true := by decide +kernel

/-- States at which `Obligations.MirrorDecisions` has its hypotheses met. -/
@[reducible] def mirrorDecisionsAt (st : Nat) (now : Nat) (cells : List ToothCell) (en : Nat) (mx : Nat) (fr : Bool) (P : State → Fin 8 → ToothCell → List ToothCell → Prop) : Prop :=
  let s0 := mem someMem base
  let d := (4 : Fin 8)
  let c := (ticket false 2 11 : ToothCell)
  let l := ([] : List ToothCell)
  let s := drafts d (crank d st s0)
  let s := { s with tb := { s.tb with gtb := BitVec.ofNat 64 now, cyc := now / 8 } }
  let s := (s.set (BZL_MIR_COAST.en d) en).set (BZL_MIR_COAST.max d) mx
  let s := s.set (BZL_CTRL.en d) (if now = 960000 then 0 else 1)
  let s := if now = 960000 then s.set (BZL_STATE.state d) 0 else s
  let s := dm d (fun x => { x with cells := cells, fresh := fr, lastCell := some 760500 }) s
  P s d c l

theorem witness_MirrorDecisions_1 : mirrorDecisionsAt 0 800123 [] 0 0 true fun s d _ _ =>
    let x := s.bzl[d]
    s.wf = true ∧ 4 ≤ d.val ∧ x.cells = [] ∧ s.coastMissed d = false ∧ s.tracking d = false := by decide +kernel

theorem witness_MirrorDecisions_2 : mirrorDecisionsAt 0 800123 [ticket false 2 11] 0 0 true fun s d c l =>
    let x := s.bzl[d]
    let on := s.flag (BZL_CTRL.en d)
    s.wf = true ∧ 4 ≤ d.val ∧ x.cells = c :: l ∧ on = true := by decide +kernel

theorem witness_MirrorDecisions_3 : mirrorDecisionsAt 0 960000 [ticket false 2 11] 0 0 true fun s d c l =>
    let x := s.bzl[d]
    let on := s.flag (BZL_CTRL.en d)
    s.wf = true ∧ 4 ≤ d.val ∧ x.cells = c :: l ∧ on = false ∧ s.tracking d = false := by decide +kernel

theorem witness_MirrorDecisions_4 : mirrorDecisionsAt 2 10000000 [] 0 0 true fun s d _ _ =>
    let coast := s.flag (BZL_MIR_COAST.en d)
    s.wf = true ∧ 4 ≤ d.val ∧ s.coastMissed d = true ∧ (coast = false ∨ s.coastOver d = true) := by decide +kernel

theorem witness_MirrorDecisions_5 : mirrorDecisionsAt 2 10000000 [] 1 100 false fun s d _ _ =>
    let coast := s.flag (BZL_MIR_COAST.en d)
    s.wf = true ∧ 4 ≤ d.val ∧ s.coastMissed d = true ∧ coast = true ∧ s.coastOver d = false := by decide +kernel

/-! ### Witnesses: Teller -/

/-- A helper of the states below. -/
def cx (ch : Fin 512) (f : Context → Context) (s : State) : State := { s with tlr := { s.tlr with ctx := vmod s.tlr.ctx ch f } }

/-- A helper of the states below. -/
def en (e : Fin 17) (f : Engine → Engine) (s : State) : State := { s with tlr := { s.tlr with eng := vmod s.tlr.eng e f } }

/-- A helper of the states below. -/
def rdy (ch : Fin 512) (cls : Nat) (s : State) : State :=
  cx ch (fun x => { x with cls := BitVec.ofNat 2 cls, pc := 0x444, flags := 5, v := r0.v, bind := 0x107 }) (((s.set (TLR_CH_STAT.state ch) 2).set (TLR_CH_CTL.en ch) 1).wr (TLR_CH_PEND ch) 0x2009 |>.wr (TLR_CH_CAUSE_EN ch) 0x7000F)

/-- States at which `Obligations.ChannelControl` has its hypotheses met. -/
@[reducible] def channelControlAt (e : Nat) (b : Bool) (uc : Nat) (pp : Nat) (P : State → Fin 512 → BitVec 16 → Prop) : Prop :=
  let s0 := mem someMem base
  let ch := (0 : Fin 512)
  let st := (0 : Nat)
  let p := (0 : Word)
  let ce := (0 : Word)
  let wk := noTime
  let s := (((s0.set (TLR_CH_STAT.state ch) st).wr (TLR_CH_PEND ch) p).wr (TLR_CH_CAUSE_EN ch) ce).set (TLR_CH_CTL.en ch) e
  let s := cx ch (fun x => { x with wake := wk, v := r0.v }) { (s.set FLT_BOOT.ucode uc).wr64 ASY_PS_PROT (if pp = 1 then 1 else 0) with tb := { s.tb with boundary := b } }
  let s := if wk = 5 ∧ b then { s with asy := { s.asy with otp := Sparse.put zeroByte s.asy.otp 0xE0 1 } } else s
  P s ch 1

theorem witness_ChannelControl_1 : channelControlAt 0 true 1 0 fun s ch p =>
    let st := s.get (TLR_CH_STAT.state ch)
    let en := s.flag (TLR_CH_CTL.en ch)
    s.wf = true ∧ en = false ∧ st = 0 ∧ s.psProtected p = false ∧ s.signReq = false ∧ s.flag FLT_BOOT.ucode = true := by decide +kernel

theorem witness_ChannelControl_2 : channelControlAt 1 false 0 1 fun s ch p =>
    let st := s.get (TLR_CH_STAT.state ch)
    let en := s.flag (TLR_CH_CTL.en ch)
    s.wf = true ∧ en = true ∧ (en = true ∨ st ≠ 0) ∧ (s.psProtected p = true ∨ s.signReq = true) ∧ s.flag FLT_BOOT.ucode = false := by decide +kernel

/-- States at which `Obligations.DispatchAndPreemption` has its hypotheses met. -/
@[reducible] def dispatchAndPreemptionAt (busy : Nat) (prep : (State → State)) (pe : Nat) (e : Fin 17) (pv : Nat) (P : State → Fin 4 → Fin 17 → Fin 512 → Ecc → Routine → Routine → Nat → Prop) : Prop :=
  let s0 := mem someMem base
  let q := (0 : Fin 4)
  let ch := (20 : Fin 512)
  let da := 0
  let b := Ecc.clean
  let s := prep (s0.set TLR_CTRL.preempt_en pe)
  let ec := s.engCycle
  let acc : Access := ⟨0x40, 8, none, [], .reg 3, 1, 0x55, 799000⟩
  let m : Micro := { w := 0xE1234567, u := 0x1805, t := Vector.ofFn (fun i => BitVec.ofNat 64 (i.val * 77 + 3)), lc := 9, vd := 0x123456789ABCDEF0, vdAt := ec - 1, stack := [0x1801, 0x1802], pend := some 0x77 }
  let r (i : Nat) : Routine := { r0 with ch := Fin.ofNat 512 (100 + i), ctx := { Context.reset with cls := BitVec.ofNat 2 (if busy = 3 then 3 else i % 3) }, count := if i = 5 then 900 else if i = 4 then 801 else if i = 3 then 800 else 7, issueAt := if pv = 0 then ec + 8 else ec }
  let s := if busy = 0 then s else forAll 17 (fun i s => if busy = 2 ∧ i.val = 7 then s else en i (fun _ => { l0 := some (r i), l1 := none, busyTo := 0, sel := none })
    s) s
  let s := if pv < 2 then s else en e (fun x => { x with sel := some (if pv = 4 then 21 else ch, if pv = 5 then ec else ec - 5), l0 := x.l0.map fun y => if pv = 2 then { y with acc := some acc } else if pv = 3 then { y with acc := some acc, micro := some m } else if pv = 6 then { y with micro := some m } else y })
    s
  let s := { s with tlr := { s.tlr with dispAt := Vector.replicate 4 (if da = 1 then s.engCycle + 1 else 0) } }
  P s q e ch b ((s.routine e).getD r0) (((s.tlr.eng[e]).l0).getD r0) ((((s.tlr.eng[e]).sel).map (·.2)).getD 0)

theorem witness_DispatchAndPreemption_1 : dispatchAndPreemptionAt 0 (fun s => rdy 20 1 s) 0 0 0 fun s q e ch f r _ _ =>
    let can := s.dispatching = true ∧ s.tlr.dispAt[q] ≠ s.engCycle + 1
    let anyIdle : Bool := (List.finRange 17).any fun f => s.engActive f && s.engIdle f
    let traps := (List.finRange 17).find? s.trapDue
    s.wf = true ∧ can ∧ s.pick = some ch ∧ s.idleEngine q = some e ∧ s.firstReplay = none ∧ traps = none ∧ s.choice = none ∧ (anyIdle ∨ s.dispatching =
        false ∨ s.flag TLR_CTRL.preempt_en = false ∨ s.urgentPick = none ∨ s.victim = none) ∧ (((s.routine e).all fun r => decide (r.count +
        s.engCycle ≤ r.budget + r.issueAt)) = true) := by decide +kernel

theorem witness_DispatchAndPreemption_2 : dispatchAndPreemptionAt 1 (fun s => rdy 20 3 s) 1 15 0 fun s q e ch _ _ _ _ =>
    let can := s.dispatching = true ∧ s.tlr.dispAt[q] ≠ s.engCycle + 1
    let traps := (List.finRange 17).find? s.trapDue
    s.wf = true ∧ (¬ can ∨ s.pick = none ∨ s.idleEngine q = none) ∧ s.choice = some (ch, e) ∧ traps = none ∧ s.victim = some e := by decide +kernel

theorem witness_DispatchAndPreemption_3 : dispatchAndPreemptionAt 1 (fun s => rdy 20 3 s) 0 5 2 fun s _ e ch _ r _ c0 =>
    let traps := (List.finRange 17).find? s.trapDue
    s.wf = true ∧ traps = some e ∧ (s.tlr.eng[e]).sel = some (ch, c0) ∧ (s.dispatching = false ∨ s.flag TLR_CTRL.preempt_en = false ∨ s.urgent ch = false)
        ∧ s.routine e = some r ∧ r.budget + r.issueAt < r.count + s.engCycle := by decide +kernel

theorem witness_DispatchAndPreemption_4 : dispatchAndPreemptionAt 1 (fun s => rdy 20 3 s) 1 0 2 fun s _ e ch _ _ a0 c0 =>
    let traps := (List.finRange 17).find? s.trapDue
    s.wf = true ∧ traps = some e ∧ (s.tlr.eng[e]).sel = some (ch, c0) ∧ (s.tlr.eng[e]).l0 = some a0 ∧ s.dispatching = true ∧ s.flag TLR_CTRL.preempt_en =
        true ∧ s.urgent ch = true := by decide +kernel

/-- States at which `Obligations.CommitsApply` has its hypotheses met. -/
@[reducible] def commitsApplyAt (v : List Effect) (s3 : List Effect) (e : Nat) (x : LineEcc) (gr : Bool) (po : Bool) (P : State → Commit → List Effect → List Commit → Nat → List Byte → Nat → Bool → Bool → Dword → Fin 512 → LineEcc → Prop) : Prop :=
  let s0 := mem someMem base
  let ld := 0
  let again := (0 : BitVec 19)
  let bk := true
  let c : Commit := ⟨20, if bk then none else some (r0, ⟨3, none, none, again⟩), v, s3, 5, again, if again = 0 then [] else [20]⟩
  let s := (rdy 20 1 (rdy 21 2 s0)).set (TLR_CH_CTL.en 20) e
  let s := ((s.set (TLR_CH_STAT.state 20) 5).set ASY_SEC_STAT.loading ld).wr (ASY_MBOX_DATA 1) 80
  let s := if again = 0 then s.wr (TLR_CH_PEND 20) 0 else s
  let cs : List Commit := if x.bad = 4 ∧ e = 1 ∧ v = [] then [] else [c, ⟨21, none, [], [], 6, 0, []⟩]
  let s := psn 8 { s with tlr := { s.tlr with commits := cs }, vlt := { s.vlt with granted := gr } }
  let (a, bs) := match v with | .store a bs :: _ => (a, bs) | _ => (0, [])
  let (w, sw, z) := match v with | .atomic a sw z :: _ => (a / 8, sw, z) | _ => (0, false, 0)
  P s c (v.drop 1) [⟨21, none, [], [], 6, 0, []⟩] a bs w sw po z (if s3.length = 2 then 21 else 20) x

theorem witness_CommitsApply_1 : commitsApplyAt [] [] 0 ⟨0,0⟩ true true fun s c _ rest _ _ _ _ _ _ _ _ =>
    let commits := s.tlr.commits = c :: rest
    s.wf = true ∧ (s.vlt.granted = true ∨ (s.winner [] ≠ some (0, true, 17) ∧ s.winner [] ≠ some (0, false, 17))) ∧ commits ∧ (c.back.isSome = true ∨
        c.vault = []) ∧ c.back = none ∧ c.vault = [] ∧ c.step3 = [] := by decide +kernel

theorem witness_CommitsApply_2 : commitsApplyAt [.store 0x40 [1,2,3]] [] 0 ⟨0,0⟩ false false fun s c more rest a bs _ _ pooled _ _ _ =>
    let commits := s.tlr.commits = c :: rest
    let slot := s.vlt.granted = false ∧ s.winner [] = some (0, pooled, 17)
    s.wf = true ∧ commits ∧ (c.back.isSome = true ∨ c.vault ≠ []) ∧ c.back = none ∧ slot ∧ c.vault = .store a bs :: more ∧ s.guardedAt a bs.length = false := by decide +kernel

theorem witness_CommitsApply_3 : commitsApplyAt [] [.post 20] 0 ⟨0,0⟩ true true fun s c _ rest _ _ _ _ _ _ m _ =>
    let commits := s.tlr.commits = c :: rest
    s.wf = true ∧ commits ∧ c.back = none ∧ c.vault = [] ∧ c.step3 = [.post m] := by decide +kernel

theorem witness_CommitsApply_4 : commitsApplyAt [] [] 1 ⟨0, 4⟩ true true fun s _ _ _ _ _ _ _ _ _ _ _ => s.wf = true ∧ s.tlr.commits = [] := by decide +kernel

theorem witness_CommitsApply_5 : commitsApplyAt [.atomic 0x50 false 9] [] 0 ⟨0,0⟩ false false fun s c more rest _ _ w swap pooled v _ x =>
    let commits := s.tlr.commits = c :: rest
    let slot := s.vlt.granted = false ∧ s.winner [] = some (0, pooled, 17)
    s.wf = true ∧ commits ∧ c.back = none ∧ slot ∧ c.vault = .atomic (8 * w) swap v :: more ∧ s.guardedAt (8 * w) 8 = false ∧ w < vaultSize / 8 ∧
        s.vlt.poisoned w = false ∧ x.bad = 0 := by decide +kernel

/-- States at which `Obligations.EnginesAndCopies` has its hypotheses met. -/
@[reducible] def enginesAndCopiesAt1 (res : Bool) (l0ᵢ : Nat) (ps : Nat) (one : Bool) (P : State → Fin 17 → Fin 4 → GroupError → Routine → Prop) : Prop :=
  let s0 := mem someMem base
  let e := (0 : Fin 17)
  let role := 0
  let l0 := if l0ᵢ = 0 then some r0 else none
  let l1 := none
  let ri := true
  let both := true
  let at' := none
  let s := if res then s0 else s0.set (ENG_STAT.role 16) 2
  let s := if one then forAll 16 (fun i s => s.set (ENG_STAT.role i.castSucc) 2) s else s
  let s := en e (fun _ => { l0 := l0, l1 := l1, busyTo := 0, sel := none }) (s.set (ENG_STAT.role e) role)
  let s := (s.set TLR_PS_STAT.copy_state ps).set TLR_PS_STAT.serve 0xE4
  let s := { s.set (TLR_CH_CTL.en 3) 1 with tlr := { s.tlr with attach := at', reint := if ri then [e] else [] } }
  let c := (0 : Fin 4)
  P s e (s.openQuad.getD c) (if at'.isSome then .corrected else if both then .bothCopies else .oneCopy) ((s.routine e).getD r0)

theorem witness_EnginesAndCopies_1 : enginesAndCopiesAt1 true 0 1 false fun s e c x r =>
    let q := s.engQuad e
    let copy := s.psServe q
    let sib := if copy % 2 = 0 then copy + 1 else copy - 1
    s.wf = true ∧ s.engRole e ≠ 2 ∧ (s.engActive e = false ∨ s.engines ≠ 1 ∨ s.reserve ≠ none) ∧ (s.engRole e ≠ 2 ∨ e ∈ s.tlr.reint) ∧ e ∈ s.tlr.reint ∧
        s.routine e = some r ∧ x ≠ .corrected ∧ (x = .bothCopies ∨ s.psState sib ≠ 0) ∧ s.psState sib = 0 ∧ s.psState c = 1 := by decide +kernel

theorem witness_EnginesAndCopies_2 : enginesAndCopiesAt1 false 1 0x55 true fun s e _ _ _ => s.wf = true ∧ s.engActive e = true ∧ s.engines = 1 ∧
    s.reserve = none := by decide +kernel

/-- States at which `Obligations.EnginesAndCopies` has its hypotheses met. -/
@[reducible] def enginesAndCopiesAt2 (P : State → Fin 17 → Fin 17 → Fin 4 → Nat → Prop) : Prop :=
  let s0 := mem someMem base
  let e := (0 : Fin 17)
  let role := 2
  let res := true
  let l0 := none
  let l1 := none
  let ri := false
  let ps := 0
  let one := (false : Bool)
  let at' := some ((16 : Fin 17), (1 : Fin 4), 5)
  let s := if res then s0 else s0.set (ENG_STAT.role 16) 2
  let s := if one then forAll 16 (fun i s => s.set (ENG_STAT.role i.castSucc) 2) s else s
  let s := en e (fun _ => { l0 := l0, l1 := l1, busyTo := 0, sel := none }) (s.set (ENG_STAT.role e) role)
  let s := (s.set TLR_PS_STAT.copy_state ps).set TLR_PS_STAT.serve 0xE4
  let s := { s.set (TLR_CH_CTL.en 3) 1 with tlr := { s.tlr with attach := at', reint := if ri then [e] else [] } }
  let c := (1 : Fin 4)
  P s e ((s.reserve).getD 16) c (at'.map (·.2.2) |>.getD 0)

theorem witness_EnginesAndCopies_3 : enginesAndCopiesAt2 fun s e k c n => s.wf = true ∧ s.engRole e = 2 ∧ s.tlr.attach = some (k, c, n) ∧ n <
    s.engCycle ∧ e ∉ s.tlr.reint ∧ s.routine e = none ∧ s.psState c ≠ 1 := by decide +kernel

/-! ### Witnesses: control stores and Vault -/

/-- A helper of the states below. -/
def sign (s : State) : State := { s with asy := { s.asy with otp := Sparse.put zeroByte s.asy.otp 0xE0 1 } }

/-- States at which `Obligations.ControlStoreCommands` has its hypotheses met. -/
@[reducible] def controlStoreCommandsAt (na : Nat) (ua : Nat) (sg : Bool) (k : Fin 256) (l0ᵢ : Nat) (l1ᵢ : Nat) (P : State → Fin 17 → Fin 256 → Routine → Prop) : Prop :=
  let s0 := mem someMem base
  let lk := 0
  let hd := 0
  let enc := (false : Bool)
  let v := (0 : Word)
  let s := ((s0.set MNT_NADDR.index na).set MNT_UADDR.index ua).set MNT_CTRL.lock lk |>.set MNT_CTRL.hide hd
  let s := if sg then sign s else s
  let mn : Mint := { s.mnt with nano := [(0x600, 0x123456789ABCDEF0123456789), (0x601, 5), (0x7FF, 0xFFFF)], micro := [(0x1800, 0x777777), (0x1FFF, 0x123456)], nhold := #v[1,2,3], encNano := (if enc then [(0x600, true)] else []), encMicro := (if enc then [(0x1800, true)] else []) }
  let s := { s with mnt := mn }
  let l0 := [none, some r0, some { r0 with acc := some ⟨0x40, 8, none, [], .reg 3, 1, 0x55, 799000⟩ }].getD l0ᵢ (none)
  let l1 := if l1ᵢ = 0 then none else some { r0 with ch := 9 }
  let bt := 0
  let ro := 0
  let s := en 4 (fun _ => { l0 := l0, l1 := l1, busyTo := bt, sel := none }) (s.set (ENG_STAT.role 4) ro)
  P s 4 k (l0.getD r0)

theorem witness_ControlStoreCommands_1 : controlStoreCommandsAt 0 0 false 0 0 0 fun s e k _ =>
    let n := BitVec.ofNat 11 (s.get MNT_NADDR.index)
    let u := BitVec.ofNat 13 (s.get MNT_UADDR.index)
    let shut := s.flag MNT_CTRL.lock = true ∨ s.signReq = true
    let vendorN := n.toNat < 0x600 ∨ shut ∨ Sparse.get (fun _ => false) s.mnt.encNano n.toNat = true
    let vendorU := u.toNat < 0x1800 ∨ shut ∨ Sparse.get (fun _ => false) s.mnt.encMicro u.toNat = true
    s.wf = true ∧ vendorN ∧ vendorU ∧ (k.val < 0xE0 ∨ s.flag MNT_CTRL.lock = true) ∧ (s.tlr.eng[e]).l0 = none := by decide +kernel

theorem witness_ControlStoreCommands_2 : controlStoreCommandsAt 0x600 0x1800 false 0xE0 1 0 fun s e k r =>
    let n := BitVec.ofNat 11 (s.get MNT_NADDR.index)
    let u := BitVec.ofNat 13 (s.get MNT_UADDR.index)
    let shut := s.flag MNT_CTRL.lock = true ∨ s.signReq = true
    let vendorN := n.toNat < 0x600 ∨ shut ∨ Sparse.get (fun _ => false) s.mnt.encNano n.toNat = true
    let vendorU := u.toNat < 0x1800 ∨ shut ∨ Sparse.get (fun _ => false) s.mnt.encMicro u.toNat = true
    s.wf = true ∧ (¬ vendorN) ∧ (¬ vendorU) ∧ 0xE0 ≤ k.val ∧ s.flag MNT_CTRL.lock = false ∧ s.signReq = false ∧ (s.tlr.eng[e]).l0 = some r ∧ s.trapBusy e
        = false ∧ r.acc = none := by decide +kernel

theorem witness_ControlStoreCommands_3 : controlStoreCommandsAt 0 0 true 0xE0 1 1 fun s e k r => s.wf = true ∧ 0xE0 ≤ k.val ∧ s.flag MNT_CTRL.lock =
    false ∧ s.signReq = true ∧ (s.tlr.eng[e]).l0 = some r ∧ s.trapBusy e = true := by decide +kernel

theorem witness_ControlStoreCommands_4 : controlStoreCommandsAt 0 0 false 0 2 0 fun s e _ r => s.wf = true ∧ (s.tlr.eng[e]).l0 = some r ∧ s.trapBusy e
    = false ∧ r.acc.isSome = true := by decide +kernel

/-- States at which `Obligations.Bar2Accesses` has its hypotheses met. -/
@[reducible] def bar2AccessesAt (off : BitVec 25) (len : Nat) (hq : Nat) (P : State → BitVec 25 → Nat → (List (Option Byte)) → List LineEcc → List VaultRequest → Nat → Nat → Nat → Nat → Nat → Bool → (List (Byte × Bool)) → List BusReq → Prop) : Prop :=
  let s0 := mem someMem base
  let sh := 0
  let ld := 0
  let s := psn 9 (psn 2 ((s0.set VLT_ROT.shift sh).set ASY_SEC_STAT.loading ld |>.wr (ASY_MBOX_DATA 1) 40))
  let a := off.toNat % 0x1000000
  let got : List (Byte × Bool) := if hq = 2 then [(1, false), (0xFF, true)] else []
  let bytes := (List.range len).map fun k => if k % 3 = 1 then none else some (BitVec.ofNat 8 (k+200))
  let es : List LineEcc := if hq = 3 then [⟨5, 0⟩, ⟨0,2⟩, ⟨0,0⟩] else []
  let rest : List BusReq := if sh = 1 then [.atomic 4 true 3] else []
  let hl : List BusReq := if hq = 0 then [] else if hq < 4 then .read a (if hq = 1 then 5 else len) (sh % 50) got es 3 .pcie :: rest else .write a bytes
    es :: rest
  let s := { s with vlt := { s.vlt with host := hl, pos := if len = 33 then 8 else 13 } }
  let reqs : List VaultRequest := if ld = 1 then [⟨.host, 3, .read, ⟨1, 2⟩⟩] else []
  let po := true
  P s off len bytes es reqs a (if hq = 1 then 5 else len) (sh % 50) 0 3 po got rest

theorem witness_Bar2Accesses_1 : bar2AccessesAt 0 0 1 fun s off len bytes es reqs a size above k o pooled got rest =>
    let A := if off.toNat < 0x1000000 then off.toNat else off.toNat - 0x1000000 + s.get VLT_ROT.shift
    let n := min len (0x1000000 - A)
    let left := bytes.take (0x1000000 - A)
    let slot := s.vlt.granted = false ∧ s.winner reqs = some (3, pooled, k)
    let e := (nextEcc (eccFor reqs fun w => reqCode w == 3) es).headD ⟨0, 0⟩
    let from' := a + got.length
    let part := min (size - got.length) (32 - from' % 32)
    let one := lineCheck 3 (from' / 32) e (countSlot 3 (takeSlot (3, pooled, k) s))
    let all := got ++ (List.range part).map fun j => if one.vlt.poisoned ((from' + j) / 8) then (0xFF, true) else (s.vlt.byte (from' + j), false)
    s.wf = true ∧ n = 0 ∧ left = [] ∧ slot ∧ s.vlt.host = .read a size above got es o .pcie :: rest ∧ size ≤ all.length := by decide +kernel

theorem witness_Bar2Accesses_2 : bar2AccessesAt 0 1 4 fun s off len bytes es reqs a _ _ k _ pooled _ rest =>
    let A := if off.toNat < 0x1000000 then off.toNat else off.toNat - 0x1000000 + s.get VLT_ROT.shift
    let n := min len (0x1000000 - A)
    let left := bytes.take (0x1000000 - A)
    let slot := s.vlt.granted = false ∧ s.winner reqs = some (3, pooled, k)
    let line := bytes.take (32 - a % 32)
    s.wf = true ∧ 0 < n ∧ left ≠ [] ∧ slot ∧ s.vlt.host = .write a bytes es :: rest ∧ s.guardedAt a line.length = false := by decide +kernel

theorem witness_Bar2Accesses_3 : bar2AccessesAt 31 0 1 fun s _ _ _ es reqs a size above k o pooled got rest =>
    let slot := s.vlt.granted = false ∧ s.winner reqs = some (3, pooled, k)
    let e := (nextEcc (eccFor reqs fun w => reqCode w == 3) es).headD ⟨0, 0⟩
    let from' := a + got.length
    let part := min (size - got.length) (32 - from' % 32)
    let one := lineCheck 3 (from' / 32) e (countSlot 3 (takeSlot (3, pooled, k) s))
    let all := got ++ (List.range part).map fun j => if one.vlt.poisoned ((from' + j) / 8) then (0xFF, true) else (s.vlt.byte (from' + j), false)
    s.wf = true ∧ slot ∧ s.vlt.host = .read a size above got es o .pcie :: rest ∧ all.length < size := by decide +kernel

/-- States at which `Obligations.VaultPort` has its hypotheses met. -/
@[reducible] def vaultPortAt (pos : Nat) (at'ᵢ : Nat) (po : Bool) (fxᵢ : Nat) (hw : Nat) (vc : Nat) (rl : Bool) (P : State → Requester → Fin 524288 → (List (Option Byte)) → Fin 4 → Bool → Bool → Dword → Fin 8 → Nat → Nat → List VaultRequest → List BusReq → Nat → List Nat → Prop) : Prop :=
  let s0 := mem someMem base
  let who := Requester.engine 3
  let line := (0 : Fin 524288)
  let gr := false
  let at' := if at'ᵢ = 0 then none else some true
  let fx := if fxᵢ = 0 then [] else [3, 5]
  let ld := 0
  let swap := true
  let s := { (((s0.set VLT_ATOM_ADDR.addr hw).set ASY_SEC_STAT.loading ld).set FLT_BOOT.vault_clr vc).wr64 VLT_ATOM_OPND 0x1234567890ABCDEF with resetLow := rl, vlt := { s0.vlt with pos := pos, granted := gr, host := (match at' with | none => [] | some true => [.atomic hw swap 0x1234567890ABCDEF, .read 0 8 0 [] [] 0 .pcie] | some false => [.write 64 [some 3] [], .atomic 3 true 5]), asy := if hw = 8 then [.read 0 8 0 [] [] 0 .jtag] else [], fix := fx, scrubLine := if po then 524287 else 77, scrubTally := if vc = 1 then 0 else 100 } }
  let s := (s.set VLT_CTRL.scrub_en (if hw = 2 then 0 else 1)).wr (VLT_USE 0) 0x12345678
  let s := if po then psn 2 (psn 9 s) else s
  let reqs : List VaultRequest := if vc = 1 then [] else [⟨who, line, .read, ⟨1, 2⟩⟩, ⟨.host, 3, .write [some 1, none, some 2], ⟨0,0⟩⟩, ⟨.adc, 3,
    .atomic 1 true 5, ⟨0,0⟩⟩, ⟨.engine 7, 3, .atomic 1 true 5, ⟨0,0⟩⟩]
  let o := slotOwner pos
  P s who line [some 1, none, some 3, some 0] 2 swap (pos % 2 = 0) (if at' = some true then 0x1234567890ABCDEF else 0xFFFFFFFFFFFFFFF0) (Fin.ofNat 8 o) hw 0 reqs (s.vlt.host.drop 1) (fx.headD 0) (fx.drop 1)

theorem witness_VaultPort_1 : vaultPortAt 1 0 false 0 0 0 false fun s who line bytes w swap pooled x o _ k reqs _ _ _ =>
    let q (op : LineOp) : VaultRequest := ⟨who, line, op, ⟨0, 0⟩⟩
    let open' (op : LineOp) : Prop := s.vlt.granted = false ∧ s.flag ASY_SEC_STAT.loading = false ∧ s.counts (q op) = true ∧ s.winner [q op] = some
        (reqCode who, pooled, if reqCode who = 0 then reqNum who else 0)
    let ready (c : Nat) : Prop := s.classReady c = true ∨ (reqs.any fun r => s.counts r = true ∧ reqCode r.who = c) = true
    let busy : Bool := s.atomPending
    let idle := s.vlt.granted = false ∧ s.winner [] = none
    s.wf = true ∧ s.vlt.granted = false ∧ s.winner reqs ≠ none ∧ slotOwner s.vlt.pos = o.val ∧ o.val < 7 ∧ ready o.val ∧ open' .read ∧ (∀ k < 4, s.vlt.poisoned (4 * line + k) = false) ∧ open' (.write bytes) ∧ bytes.length ≤ 32 ∧ open' (.atomic w swap x) ∧ s.vlt.poisoned (4 * line + w) = false ∧ (¬ busy) ∧ (s.vlt.granted = true ∨ ((s.winner []).map (·.1)) ≠ some 3 ∨ (match s.vlt.host.head? with | some (.atomic _ _ _) => false | _ => true) = true) ∧ (s.scrubDue = false ∨ ¬ idle) ∧ (s.vlt.fix = [] ∨ s.flag VLT_CTRL.scrub_en = false ∨ ¬ idle) ∧ s.flag FLT_BOOT.vault_clr = false ∧ s.resetLow = false := by decide +kernel

theorem witness_VaultPort_2 : vaultPortAt 0 0 true 1 0x1FFFFF 1 true fun s _ _ _ _ _ _ _ _ _ _ reqs _ f l =>
    let idle := s.vlt.granted = false ∧ s.winner [] = none
    s.wf = true ∧ (s.vlt.granted = true ∨ s.winner reqs = none) ∧ s.scrubDue = true ∧ idle ∧ s.vlt.fix = f :: l ∧ s.flag VLT_CTRL.scrub_en = true ∧
        (s.flag FLT_BOOT.vault_clr = true ∨ s.resetLow = true) := by decide +kernel

theorem witness_VaultPort_3 : vaultPortAt 14 1 false 0 0 0 false fun s _ _ _ _ swap pooled x o h k reqs rest _ _ =>
    let ready (c : Nat) : Prop := s.classReady c = true ∨ (reqs.any fun r => s.counts r = true ∧ reqCode r.who = c) = true
    let slot := s.vlt.granted = false ∧ s.winner [] = some (3, pooled, k)
    let busy : Bool := s.atomPending
    s.wf = true ∧ slotOwner s.vlt.pos = o.val ∧ 0 < o.val ∧ o.val < 7 ∧ (¬ ready o.val) ∧ ready 0 ∧ busy ∧ slot ∧ s.vlt.host = .atomic h swap x :: rest ∧
        s.flag ASY_SEC_STAT.loading = false ∧ s.vlt.poisoned h = false := by decide +kernel

theorem witness_VaultPort_4 : vaultPortAt 0 1 true 1 2 1 false fun s _ _ _ _ swap pooled x _ h k _ rest _ _ =>
    let slot := s.vlt.granted = false ∧ s.winner [] = some (3, pooled, k)
    s.wf = true ∧ slot ∧ s.vlt.host = .atomic h swap x :: rest ∧ s.vlt.poisoned h = true := by decide +kernel

/-! ### Witnesses: acquisition -/

/-- A helper of the states below. -/
def gm (g : Fin 8) (f : Group → Group) (s : State) : State := { s with adc := { s.adc with grp := vmod s.adc.grp g f } }

/-- A helper of the states below. -/
def cm (c : Fin 24) (f : Converter → Converter) (s : State) : State := { s with adc := { s.adc with conv := vmod s.adc.conv c f } }

/-- A helper of the states below. -/
def rm (c : Fin 24) (r : Fin 4) (f : Reducer → Reducer) (s : State) : State := cm c (fun x => { x with red := vmod x.red r f }) s

/-- A helper of the states below. -/
def tg (k : Fin 5) (t : Nat) : Trig := ⟨k, BitVec.ofNat 64 t, false, 3, 5⟩

/-- States at which `Obligations.GroupTriggers` has its hypotheses met. -/
@[reducible] def groupTriggersAt1 (en : Nat) (ps : Option Pass) (gt : Nat) (tgs : List (Time × Nat)) (ev : Option Time) (ch : Option Trig) (v : Word) (P : State → Fin 8 → Word → Time → Pass → Nat → (List (Time × Nat)) → Fin 24 → Prop) : Prop :=
  let s0 := mem someMem (base.set ADC_CTRL.en 1)
  let g := (0 : Fin 8)
  let ta := (true : Bool)
  let per := 0
  let on := 1
  let s := ((((s0.set (ADC_GCFG.en g) en).set (ADC_GCFG.time_en g) 1).wr64 (ADC_GTIME g) (BitVec.ofNat 64 gt)).set (ADC_GPER.period g) per).set
    ADC_CTRL.en on
  let s := ((s.set (ADC_GCFG.len g) 3).set (ADC_GCFG.spacing g) 900).set (ADC_GCFG.repeat' g) (per % 2)
  let s := ((s.set (ADC_CCFG.group 2) g).set (ADC_CCFG.member 2) 1).set (ADC_GSTAT.chan_drops g) (if per = 5 then 255 else 3)
  let s := cm 2 (fun x => { x with last := if per = 77 then some 799000 else if per = 5 then some 700000 else none, run := if gt = 0 then some ⟨798123, 1, 0, false, 4194304, 0, #v[1,2,3,4], .cal⟩ else none })
    s
  let s := gm g (fun _ => ⟨ps, ta, tgs, ev, ch, [tg 4 800124], [99]⟩) s
  let t : Time := if tgs = [] then ev.getD 800125 else (tgs.headD (0,0)).1
  P s g v t (ps.getD ⟨tg 0 0, 0, 0, 0, [], false, 0, 0⟩) ((tgs.headD (0,0)).2) (tgs.drop 1) 2

theorem witness_GroupTriggers_1 : groupTriggersAt1 0 none 0 [] none none 0 fun s g _ _ _ _ _ _ =>
    let x := s.adc.grp[g]
    let en := s.flag (ADC_GCFG.en g)
    s.wf = true ∧ en = false ∧ s.timeDue g = false ∧ ((x.targets.head?.all fun q => s.nextNow.toNat ≤ q.1.toNat) = true) ∧ ((x.evt.all fun q =>
        s.nextNow.toNat ≤ q.toNat) = true) ∧ s.slotDue g = false := by decide +kernel

theorem witness_GroupTriggers_2 : groupTriggersAt1 1 none 0 [(800123, 5)] (some 800123) none 0 fun s g v t _ a l _ =>
    let x := s.adc.grp[g]
    let en := s.flag (ADC_GCFG.en g)
    let on := v.getLsbD 31
    let free := x.pass = none ∧ s.adcOn = true
    let gtime := s.rd64 (ADC_GTIME g)
    s.wf = true ∧ en = true ∧ x.chan = none ∧ s.now.toNat ≤ t.toNat ∧ t.toNat < s.nextNow.toNat ∧ free ∧ on = false ∧ s.timeDue g = true ∧ gtime.toNat <
        s.now.toNat ∧ x.targets = (t, a) :: l ∧ x.evt = some t := by decide +kernel

theorem witness_GroupTriggers_3 : groupTriggersAt1 1 (some ⟨tg 0 800000, 100000, 4, 800, [2, 5], false, 0, 0⟩) 0 [] (some 800123) (some (tg 3 800125))
    0x92345678 fun s g v t p _ _ mc =>
    let x := s.adc.grp[g]
    let en := s.flag (ADC_GCFG.en g)
    let on := v.getLsbD 31
    s.wf = true ∧ en = true ∧ x.chan.isSome = true ∧ on = true ∧ x.evt = some t ∧ s.now.toNat ≤ t.toNat ∧ t.toNat < s.nextNow.toNat ∧ x.pass = some p ∧
        p.cyc ≠ s.tb.cyc ∧ s.adcOn = true ∧ s.slotDue g = true ∧ mc ∈ p.members ∧ s.canSample mc p.instant = false := by decide +kernel

theorem witness_GroupTriggers_4 : groupTriggersAt1 0 (some ⟨tg 0 800000, 100000, 4, 800, [2, 5], false, 0, 0⟩) 800123 [] none none 0 fun s g _ _ p _ _
    _ =>
    let x := s.adc.grp[g]
    s.wf = true ∧ s.slotDue g = true ∧ x.pass = some p ∧ p.members ≠ [] ∧ s.adcOn = true ∧ ((p.members.all fun c => s.canSample c p.instant) = true) := by decide +kernel

/-- States at which `Obligations.GroupTriggers` has its hypotheses met. -/
@[reducible] def groupTriggersAt2 (P : State → Fin 8 → Time → Prop) : Prop :=
  let s0 := mem someMem (base.set ADC_CTRL.en 1)
  let g := (0 : Fin 8)
  let en := 1
  let ps := (none : Option Pass)
  let gt := 800123
  let ta := (true : Bool)
  let per := 0
  let tgs := ([(800123, 5)] : List (Time × Nat))
  let ev := (none : Option Time)
  let ch := (none : Option Trig)
  let v := (0 : Word)
  let on := 1
  let s := ((((s0.set (ADC_GCFG.en g) en).set (ADC_GCFG.time_en g) 1).wr64 (ADC_GTIME g) (BitVec.ofNat 64 gt)).set (ADC_GPER.period g) per).set
    ADC_CTRL.en on
  let s := ((s.set (ADC_GCFG.len g) 3).set (ADC_GCFG.spacing g) 900).set (ADC_GCFG.repeat' g) (per % 2)
  let s := ((s.set (ADC_CCFG.group 2) g).set (ADC_CCFG.member 2) 1).set (ADC_GSTAT.chan_drops g) (if per = 5 then 255 else 3)
  let s := cm 2 (fun x => { x with last := if per = 77 then some 799000 else if per = 5 then some 700000 else none, run := if gt = 0 then some ⟨798123, 1, 0, false, 4194304, 0, #v[1,2,3,4], .cal⟩ else none })
    s
  let s := gm g (fun _ => ⟨ps, ta, tgs, ev, ch, [tg 4 800124], [99]⟩) s
  P s g (ev.getD noTime)

theorem witness_GroupTriggers_5 : groupTriggersAt2 fun s g t =>
    let x := s.adc.grp[g]
    let en := s.flag (ADC_GCFG.en g)
    let free := x.pass = none ∧ s.adcOn = true
    let gtime := s.rd64 (ADC_GTIME g)
    s.wf = true ∧ en = true ∧ x.chan = none ∧ (t.toNat < s.now.toNat ∨ s.nextNow.toNat ≤ t.toNat) ∧ s.timeDue g = true ∧ free ∧ s.now.toNat ≤ gtime.toNat := by decide +kernel

/-- States at which `Obligations.ConversionsAndReducers` has its hypotheses met. -/
@[reducible] def conversionsAndReducersAt (run : Option Conversion) (urg : List UrgentReq) (en : Nat) (kind : Nat) (act : Bool) (cl : Option (Time × Bool)) (on : Nat) (stop : Nat) (o : Bool) (v : Word) (P : State → Fin 24 → Fin 4 → BitVec 24 → Fin 512 → Fin 8 → Nat → Word → Conversion → Time → Bool → UrgentReq → List UrgentReq → Prop) : Prop :=
  let s0 := mem someMem (base.set ADC_CTRL.en 1)
  let c := (0 : Fin 24)
  let r := (0 : Fin 4)
  let nx := (none : Option (Dword × Dword))
  let raw := (0 : Int)
  let s := (((s0.set (ADC_RCFG.en c r) en).set (ADC_RCFG.kind c r) kind).set (ADC_RCFG.mode c r) (stop % 2)).set (ADC_RCFG.notify c r) 1 |>.set
    (ADC_RCFG.channel c r) 20
  let s := ((s.wr64 (ADC_RSTART c r) 800000).wr64 (ADC_REND c r) 810000).set ADC_CTRL.en on
  let s := cm c (fun x => { x with run := run, urgent := urg, last := if kind = 1 then some 798600 else some 798523, ended := if raw = 333 then 100016 else 100015 })
    (rm c r (fun x => { x with active := act, start := 799000, stop := BitVec.ofNat 64 stop, lost := on = 0, closed := cl, next := nx, seq := if en = 0 then 0xFFFFFFFF else 4, acc := { RedAcc.reset with count := 3, sum := -77, sumsq := 9999, min := some (-50, 5), max := some (10, 8) } })
    s)
  let s := { s with adc := { s.adc with recs := [⟨798500, 9, 3, false, [], [(c, none), (5, some 3)]⟩, ⟨798500, 9, 3, true, [], [(c, none)]⟩, ⟨798610, 999999, 3, false, [], [(c, none), (c, some 3)]⟩], cal := some ⟨5, 1, true, 3, 2, 100, 800123⟩ } }
  let s := (s.set (TLR_CH_CTL.en 20) 1).set (TLR_CH_STAT.state 20) 1
  let x := run.getD ⟨0,0,0,false,0,0,#v[0,0,0,0],.cal⟩
  P s c r 0x40 20 3 (if o then 0 else 2000000000) v x ((cl.getD (0, false)).1) ((cl.getD (0, false)).2) (urg.headD ⟨0,0,0,0⟩) (urg.drop 1)

theorem witness_ConversionsAndReducers_1 : conversionsAndReducersAt none [⟨2, 0x80, 21, 100014⟩] 0 0 false none 1 800123 true 0 fun s c r _ _ _ _ v x
    _ _ q l =>
    let conv := s.adc.conv[c]
    let red (u : State) : Reducer := (u.adc.conv[c]).red[r]
    let me := red s
    let en := s.flag (ADC_RCFG.en c r)
    let on := v.getLsbD 31
    s.wf = true ∧ s.adcOn = true ∧ conv.urgent.length < 4 ∧ conv.urgent = q :: l ∧ q.cyc < s.tb.cyc ∧ conv.ended ≤ s.tb.cyc ∧ s.canSample c s.now = true ∧
        (conv.run = none ∨ (conv.run = some x ∧ s.nextNow.toNat ≤ x.at'.toNat + 1520)) ∧ en = false ∧ s.closeDue c r = none ∧ me.closed = none ∧ on =
        false := by decide +kernel

theorem witness_ConversionsAndReducers_2 : conversionsAndReducersAt (some ⟨798124, 1, 0, false, 4194304, 0, #v[1,2,3,4], .cal⟩) (List.replicate 4 ⟨2,
    0x80, 21, 100015⟩) 1 0 true none 1 800123 true 0 fun s c r _ _ _ _ v x _ _ _ _ =>
    let conv := s.adc.conv[c]
    let red (u : State) : Reducer := (u.adc.conv[c]).red[r]
    let me := red s
    let ends := conv.run = some x ∧ x.at'.toNat + 1520 < s.nextNow.toNat
    let en := s.flag (ADC_RCFG.en c r)
    let on := v.getLsbD 31
    s.wf = true ∧ (s.adcOn = false ∨ 4 ≤ conv.urgent.length) ∧ s.adcOn = true ∧ (conv.run.isSome = true ∨ s.canSample c s.now = false) ∧ ends ∧ en = true
        ∧ me.active = true ∧ me.closed = none ∧ s.flag (ADC_RCFG.kind c r) = false ∧ me.stop.toNat ≤ s.now.toNat ∧ on = false := by decide +kernel

theorem witness_ConversionsAndReducers_3 : conversionsAndReducersAt none [⟨2, 0x80, 21, 100014⟩] 1 0 false (some (800100, false)) 0 800124 true
    0x80000000 fun s c r _ _ _ _ v _ tc loss q l =>
    let conv := s.adc.conv[c]
    let red (u : State) : Reducer := (u.adc.conv[c]).red[r]
    let me := red s
    let en := s.flag (ADC_RCFG.en c r)
    let on := v.getLsbD 31
    s.wf = true ∧ conv.urgent = q :: l ∧ s.adcOn = false ∧ en = true ∧ me.active = false ∧ me.closed = some (tc, loss) ∧ conv.run = none ∧ s.parkHold =
        false ∧ on = true := by decide +kernel

theorem witness_ConversionsAndReducers_4 : conversionsAndReducersAt (some ⟨798124, 1, 0, false, 4194304, 0, #v[1,2,3,4], .cal⟩) [] 0 0 false none 1
    800123 true 0x80000000 fun s c r _ _ _ vext v x _ _ _ _ =>
    let conv := s.adc.conv[c]
    let vref : Nat := if x.ext then vext else 1500000000
    let ends := conv.run = some x ∧ x.at'.toNat + 1520 < s.nextNow.toNat
    let plain := ends ∧ vref ≠ 0 ∧ ∀ k < 4, s.flag (ADC_RCFG.en c k) = false
    let en := s.flag (ADC_RCFG.en c r)
    let on := v.getLsbD 31
    s.wf = true ∧ plain ∧ x.use = .cal ∧ en = false ∧ on = true := by decide +kernel

theorem witness_ConversionsAndReducers_5 : conversionsAndReducersAt (some ⟨798610, 2, 2, false, 4200000, -700, #v[1,2,3,0x123456], .slot 3⟩) [] 0 0
    false none 1 800123 true 0 fun s c _ _ _ g vext _ x _ _ _ _ =>
    let conv := s.adc.conv[c]
    let vref : Nat := if x.ext then vext else 1500000000
    let ends := conv.run = some x ∧ x.at'.toNat + 1520 < s.nextNow.toNat
    let plain := ends ∧ vref ≠ 0 ∧ ∀ k < 4, s.flag (ADC_RCFG.en c k) = false
    s.wf = true ∧ plain ∧ x.use = .slot g := by decide +kernel

theorem witness_ConversionsAndReducers_6 : conversionsAndReducersAt none [] 1 1 true none 0 800124 true 0 fun s c r _ _ _ _ _ _ _ _ _ _ =>
    let red (u : State) : Reducer := (u.adc.conv[c]).red[r]
    let me := red s
    let en := s.flag (ADC_RCFG.en c r)
    s.wf = true ∧ en = true ∧ me.active = true ∧ me.closed = none ∧ s.flag (ADC_RCFG.kind c r) = true ∧ me.lost = true := by decide +kernel

theorem witness_ConversionsAndReducers_7 : conversionsAndReducersAt (some ⟨700000, 2, 2, true, 4200000, -700, #v[1,2,3,0x123456], .urgent 0x40 20⟩) []
    0 0 false none 1 800123 false 0 fun s c _ addr ch _ vext _ x _ _ _ _ =>
    let conv := s.adc.conv[c]
    let vref : Nat := if x.ext then vext else 1500000000
    let ends := conv.run = some x ∧ x.at'.toNat + 1520 < s.nextNow.toNat
    let plain := ends ∧ vref ≠ 0 ∧ ∀ k < 4, s.flag (ADC_RCFG.en c k) = false
    s.wf = true ∧ plain ∧ x.use = .urgent addr ch := by decide +kernel

/-- States at which `Obligations.RingAndCalibration` has its hypotheses met. -/
@[reducible] def ringAndCalibrationAt1 (q : List WriterItem) (fr : Option Frame) (cal : Option CalPoint) (v : Word) (mb : Nat) (po : Bool) (now : Nat) (P : State → Word → Nat → (List (Option Byte)) → List Byte → Fin 512 → Time → List WriterItem → Frame → CalPoint → Bool → Nat → Prop) : Prop :=
  let s0 := mem someMem (base.set ADC_CTRL.en 1)
  let en := 1
  let sf := 0
  let wr := 0
  let ln := 4
  let zero := (none : Option (Nat × Nat × Int))
  let s := (((s0.set ADC_RING_CTRL.en en).set ADC_RING_CTRL.stop_full sf).set ADC_RING_WR.offset wr).set ADC_RING_SIZE.lines ln
  let s := forAll 24 (fun c s => (s.set (ADC_CCFG.member c) mb).set (ADC_CCFG.group c) 2) s
  let s := s.set (ADC_GCFG.en 2) 1
  let s := if po then psn 9 s else s
  let s := { s with vlt := { s.vlt with pos := if v = 1 then 19 else if v = 5 then 0 else 1000, granted := v = 0x80000005 }, tb := { s.tb with gtb := now }, adc := { s.adc with queue := q, frame := fr, cal := cal, zero := zero, hold := [1,2], holdAt := 3, after := [.frameDone 3] } }
  let (a, b, bs, ch, due) := match q with | .bytes a b d :: _ => (a, b, [], (0 : Fin 512), d) | .count a d :: _ => (a, [], [], 0, d) | .urgent a bs ch d :: _ => (a, [], bs, ch, d) | _ => (0, [], [], 0, 0)
  P s v a b bs ch due (q.drop 1) (fr.getD ⟨0,0,0,Vector.replicate 8 0⟩) (cal.getD ⟨0,0,false,0,0,0,0⟩) true 0

theorem witness_RingAndCalibration_1 : ringAndCalibrationAt1 [] none none 0 0 false 800123 fun s v _ _ _ _ _ _ _ _ _ _ =>
    let t := s.plainWrite ADC_RING_CTRL v
    s.wf = true ∧ (s.vlt.granted = true ∨ ((s.winner []).map (·.1)) ≠ some 1) ∧ s.adc.queue = [] ∧ (s.adc.frame = none ∨ s.frameDue = false) ∧ t.flag
        ADC_RING_CTRL.en = false ∧ (v.getLsbD 31 = false ∨ s.adc.cal.isSome = true) ∧ ((s.adc.cal.all fun q => decide (q.taken < 2 ^ q.e)) = true) := by decide +kernel

theorem witness_RingAndCalibration_2 : ringAndCalibrationAt1 [.bytes 0x40 [some 1, none, some 2] 800122, .frameDone 1] (some ⟨99, 0, 3,
    Vector.replicate 8 2⟩) none 0xFFFFFFFF 0 false 801680 fun s v a b _ _ due l f _ pooled k =>
    let slot := s.vlt.granted = false ∧ s.winner [] = some (1, pooled, k)
    let t := s.plainWrite ADC_RING_CTRL v
    let w := s.plainWrite ADC_CAL_CTRL v
    let c : Fin 24 := Fin.ofNat 24 (w.get ADC_CAL_CTRL.input / 4)
    let open' := (s.flag (ADC_CCFG.member c) && s.flag (ADC_GCFG.en (s.get (ADC_CCFG.group c)))) = false
    s.wf = true ∧ slot ∧ s.adc.queue = .bytes a b due :: l ∧ a < 0x1000000 ∧ s.adc.frame = some f ∧ s.frameDue = true ∧ t.flag ADC_RING_CTRL.en = true ∧
        v.getLsbD 31 = true ∧ s.adc.cal = none ∧ open' := by decide +kernel

theorem witness_RingAndCalibration_3 : ringAndCalibrationAt1 [.count 0x48 800000, .count 0x50 0] none (some ⟨5, 1, true, 3, 8, 1001, 800123⟩) 0 0
    false 800123 fun s _ a _ _ _ due l _ p pooled k =>
    let slot := s.vlt.granted = false ∧ s.winner [] = some (1, pooled, k)
    s.wf = true ∧ slot ∧ s.adc.queue = .count a due :: l ∧ a % 8 = 0 ∧ s.vlt.poisoned (a / 8) = false ∧ s.adc.cal = some p ∧ 2 ^ p.e ≤ p.taken ∧ p.full =
        true ∧ s.adc.zero = none := by decide +kernel

theorem witness_RingAndCalibration_4 : ringAndCalibrationAt1 [.urgent 0x60 [1,2,3,4] 20 800000] none none 0x80000000 1 true 800123 fun s v a _ bs ch
    due l _ _ pooled k =>
    let slot := s.vlt.granted = false ∧ s.winner [] = some (1, pooled, k)
    let w := s.plainWrite ADC_CAL_CTRL v
    let c : Fin 24 := Fin.ofNat 24 (w.get ADC_CAL_CTRL.input / 4)
    let open' := (s.flag (ADC_CCFG.member c) && s.flag (ADC_GCFG.en (s.get (ADC_CCFG.group c)))) = false
    s.wf = true ∧ slot ∧ s.adc.queue = .urgent a bs ch due :: l ∧ v.getLsbD 31 = true ∧ s.adc.cal = none ∧ (¬ open') := by decide +kernel

theorem witness_RingAndCalibration_5 : ringAndCalibrationAt1 [] none (some ⟨5, 1, false, 3, 8, 1001, 800123⟩) 0 0 false 800123 fun s _ _ _ _ _ _ _ _ p
    _ _ => s.wf = true ∧ s.adc.cal = some p ∧ 2 ^ p.e ≤ p.taken ∧ p.full = false := by decide +kernel

/-- States at which `Obligations.RingAndCalibration` has its hypotheses met. -/
@[reducible] def ringAndCalibrationAt2 (P : State → CalPoint → Int → Prop) : Prop :=
  let s0 := mem someMem (base.set ADC_CTRL.en 1)
  let q := ([] : List WriterItem)
  let fr := (none : Option Frame)
  let en := 1
  let sf := 0
  let wr := 0
  let ln := 4
  let cal := (some ⟨5, 1, true, 3, 8, 1001, 800123⟩ : Option CalPoint)
  let zero := (none : Option (Nat × Nat × Int))
  let v := (0 : Word)
  let mb := 0
  let po := (false : Bool)
  let now := 800123
  let s := (((s0.set ADC_RING_CTRL.en en).set ADC_RING_CTRL.stop_full sf).set ADC_RING_WR.offset wr).set ADC_RING_SIZE.lines ln
  let s := forAll 24 (fun c s => (s.set (ADC_CCFG.member c) mb).set (ADC_CCFG.group c) 2) s
  let s := s.set (ADC_GCFG.en 2) 1
  let s := if po then psn 9 s else s
  let s := { s with vlt := { s.vlt with pos := if v = 1 then 19 else if v = 5 then 0 else 1000, granted := v = 0x80000005 }, tb := { s.tb with gtb := now }, adc := { s.adc with queue := q, frame := fr, cal := cal, zero := zero, hold := [1,2], holdAt := 3, after := [.frameDone 3] } }
  let s := ((s.set ADC_CAL_TGT.t0 0).set ADC_CAL_TGT.t1 (if mb = 0 then 20000 else 45536))
  let s := { s with adc := { s.adc with zero := some (5, 1, -300000), cal := cal.map fun p => { p with sum := if mb = 0 then 148000 else -170000 } } }
  P s (s.adc.cal.getD ⟨0,0,false,0,0,0,0⟩) (-300000)

theorem witness_RingAndCalibration_6 : ringAndCalibrationAt2 fun s p z => s.wf = true ∧ s.adc.cal = some p ∧ 2 ^ p.e ≤ p.taken ∧ p.full = true ∧
    s.adc.zero = some (p.input, p.range, z) := by decide +kernel

/-! ### Witnesses: DMA, Daybook, Ethernet -/

/-- A helper of the states below. -/
def nx (r : Result) (s : State) : State := match r with | .next t => t | _ => s

/-- A helper of the states below. -/
def setup (n : Fin 32) (src dst len cfg frm plane : Nat) (s : State) : State :=
  let s := ((s.wr64 (DMA_SH_SRC n) (BitVec.ofNat 64 src)).wr64 (DMA_SH_DST n) (BitVec.ofNat 64 dst)).wr (DMA_SH_LEN n) (BitVec.ofNat 32 len)
  let s := ((s.wr (DMA_SH_CFG n) (BitVec.ofNat 32 cfg)).wr (DMA_SH_FRM n) (BitVec.ofNat 32 frm)).wr (DMA_SH_PLANE n) (BitVec.ofNat 32 plane)
  s

/-- A helper of the states below. -/
def cyc1 (s : State) : State :=
  let s := { s with tb := { s.tb with cyc := s.tb.cyc + 1, gtb := s.tb.gtb + 8 }, vlt := { s.vlt with granted := false } }
  dmaCycle s

/-- A helper of the states below. -/
def xz : DmaXfer := ⟨0,0,0,0,0,0,0,[],[],0,[],[],none,none⟩

/-- A helper of the states below. -/
def dmaAt (n : Fin 32) (pause : Nat) (w : Nat) (s : State) : State :=
  let s1 := cyc1 (nx (execDmaArm n s) s)
  let s2 := nx (execTransferLoad n ((s1.shadowSet n).fld DMA_SH_CFG.trig_en == 1) s1) s1
  let s2' := { s2 with dma := { s2.dma with serial := if pause = 1 then none else s2.dma.serial } }
  let s2' := (s2'.set (DMA_STAT.state n) 1).set (DMA_STAT.credit n) 5
  let s3 := cyc1 (nx (execBurstStart s2') s2')
  let s4 := cyc1 (nx (execDmaReadReturn n ⟨⟨0, 0⟩, [], none⟩ s3) s3)
  match w with
  | 0 => s
  | 1 => s1
  | 2 => s2
  | 3 => s2'
  | 4 => s3
  | 5 => psn 1 s3
  | 6 => nx (execDmaPause n true s3) s3
  | 7 => s3.set DMA_GSTAT.halted 1
  | 8 => s4
  | 9 => (s4.set ASY_SEC_STAT.loading 1).wr (ASY_MBOX_DATA 1) 300
  | 10 => nx (execDmaDisarm n s1) s1
  | 11 => nx (execDmaArm n (nx (execDmaDisarm n s1) s1)) s1
  | w => (List.range (w - 11)).foldl (fun u _ => let u := cyc1 (nx (execDmaReadReturn n ⟨⟨0, 0⟩, [], none⟩ u) u); let u := cyc1 (nx (execDmaWriteIssue n ⟨0,0⟩ u) u); nx (execBurstStart u) u) s4

/-- A helper of the states below. -/
def dmaOn (n : Fin 32) (w : Nat) (s : State) : State :=
  let s2 := nx (execTransferLoad n ((s.shadowSet n).fld DMA_SH_CFG.trig_en == 1) s) s
  let fin := fun st was => { s2.set (DMA_STAT.state n) st with dma := { s2.dma with chan := vmod s2.dma.chan n fun c => { c with was := was, xfer := c.xfer.map fun x => { x with next := x.total, moved := x.total } } } }
  match w with
  | 0 => s
  | 1 => s.set (DMA_STAT.sh_ready n) 0
  | 2 => s2.set (DMA_STAT.credit n) 0
  | 3 => s2.set (DMA_STAT.credit n) 14
  | 4 => s2.set (DMA_STAT.credit n) 15
  | 5 => fin 0 false
  | 6 => fin 1 false
  | 7 => fin 2 false
  | 8 => fin 3 false
  | 9 => fin 1 true
  | 10 => fin 2 true
  | 11 => (fin 1 true).set (DMA_SH_CFG.trig_en n) 0
  | w => nx (execDmaPause n true (fin (w - 12) true)) (fin (w - 12) true)

/-- A helper of the states below. -/
def slotAt (v : Nat) (s : State) : State :=
  match v with
  | 0 => s
  | 1 => { s with vlt := { s.vlt with pos := 3 } }
  | _ => { s with vlt := { s.vlt with granted := true } }

/-- States at which `Obligations.DmaControl` has its hypotheses met. -/
@[reducible] def dmaControlAt1 (src : Nat) (dst : Nat) (len : Nat) (cfg : Nat) (plane : Nat) (k : Nat) (w : Nat) (p : Bool) (P : State → Fin 32 → Bool → DmaXfer → Prop) : Prop :=
  let s0 := mem someMem base
  let s0 := { s0 with asyEdges := [] }
  let s0 := { s0 with dbk := { s0.dbk with mem := [(3, 7), (40, 9), (0x3000003, 8)] } }
  let s0 := (s0.set GBL_STRAP.hostsel 0).set GBL_HOST.dl_up 1
  let s0 := { s0 with host := { s0.host with pcie := { s0.host.pcie with master := true } } }
  let n := (0 : Fin 32)
  let frm := 0
  let cfg := if k = 0 then cfg else if k < 17 then cfg ||| (1 <<< (2 * k - 2)) else cfg
  let pause := 0
  let trm := 0
  let cr := 0
  let sr := none
  let arb := 0
  let s := setup n src dst len cfg frm plane s0
  let s := (((s.set (DMA_CTL.pause n) pause).set (DMA_CNT.trig_miss n) trm).set (DMA_STAT.credit n) cr).set DMA_GCTRL.arb arb
  let s := { s with dma := { s.dma with serial := sr } }
  let z := dmaAt n pause w s
  let x : DmaXfer := (z.dma.chan[n]).xfer.getD xz
  P z n p x

theorem witness_DmaControl_1 : dmaControlAt1 0 64 40 0 0 0 2 true fun s n pulsed x =>
    let c := s.dma.chan[n]
    let st := s.get (DMA_STAT.state n)
    let ready := s.flag (DMA_STAT.sh_ready n)
    let copier := (s.copierOf n).isSome
    let src := (s.rd64 (DMA_SH_SRC n)).toNat
    let dst := (s.rd64 (DMA_SH_DST n)).toNat
    let len := (s.rd (DMA_SH_LEN n)).toNat
    let plane := (s.rd (DMA_SH_PLANE n)).toNat
    let shuffle := s.get (DMA_SH_CFG.shuffle n)
    let swap := s.get (DMA_SH_CFG.swap n)
    let unit : Nat := if swap = 1 then 2 else if swap = 2 ∨ swap = 3 then 4 else if swap = 4 then 8 else 1
    let e : Nat := 2 ^ (s.get (DMA_SH_FRM.esize n) + 1)
    let valid : Prop := len ≠ 0 ∧ (shuffle ≠ 0 → n.val < 8 ∧ swap = 0 ∧ src % e = 0 ∧ dst % e = 0 ∧ plane % e = 0 ∧ len * e ≤ plane) ∧ (swap ≠ 0 → 24 ≤
        n.val ∧ src % unit = 0 ∧ dst % unit = 0 ∧ len % unit = 0) ∧ (s.get (DMA_SH_CFG.atomic n) ≠ 0 → shuffle = 0 ∧ swap = 0 ∧ len = 8 ∧ dst % 8 = 0
        ∧ dst < 2 ^ 24 ∧ (plane = 2 ^ 32 - 1 ∨ plane % 8 = 0 ∧ plane < 2 ^ 24))
    let y := s.shadowSet n
    let trig : Bool := fieldOf y.cfg (DMA_SH_CFG.trig_en 0) == 1
    let halted := s.flag DMA_GSTAT.halted
    let free := halted = false ∧ st = 0 ∧ s.parking = false ∧ c.was = true
    s.wf = true ∧ ready = false ∧ copier = false ∧ valid ∧ (ready = false ∨ copier = true) ∧ (trig ≠ pulsed ∨ (pulsed = false ∧ ¬ free)) ∧ c.xfer = some x
        ∧ fieldOf x.cfg (DMA_SH_CFG.pace_en 0) = 0 ∧ st = 1 ∧ (x.atomic = 0 ∨ x.old ≠ none) ∧ halted = false := by decide +kernel

theorem witness_DmaControl_2 : dmaControlAt1 0 64 40 0 0 8 6 true fun s n _ x =>
    let c := s.dma.chan[n]
    let st := s.get (DMA_STAT.state n)
    s.wf = true ∧ c.xfer = some x ∧ fieldOf x.cfg (DMA_SH_CFG.pace_en 0) ≠ 0 ∧ s.get (DMA_STAT.credit n) < 15 ∧ (st = 2 ∨ st = 3) := by decide +kernel

theorem witness_DmaControl_3 : dmaControlAt1 0 64 40 0 0 0 1 false fun s n pulsed _ =>
    let c := s.dma.chan[n]
    let st := s.get (DMA_STAT.state n)
    let y := s.shadowSet n
    let trig : Bool := fieldOf y.cfg (DMA_SH_CFG.trig_en 0) == 1
    let halted := s.flag DMA_GSTAT.halted
    let free := halted = false ∧ st = 0 ∧ s.parking = false ∧ c.was = true
    s.wf = true ∧ trig = pulsed ∧ free := by decide +kernel

theorem witness_DmaControl_4 : dmaControlAt1 0x20 0x100 8 4 0xFFFFFFFF 0 2 true fun s n _ x =>
    let c := s.dma.chan[n]
    let st := s.get (DMA_STAT.state n)
    s.wf = true ∧ c.xfer = some x ∧ st = 1 ∧ x.atomic ≠ 0 ∧ x.old = none := by decide +kernel

theorem witness_DmaControl_5 : dmaControlAt1 0 64 0 0 0 0 0 true fun s n _ _ =>
    let ready := s.flag (DMA_STAT.sh_ready n)
    let copier := (s.copierOf n).isSome
    let src := (s.rd64 (DMA_SH_SRC n)).toNat
    let dst := (s.rd64 (DMA_SH_DST n)).toNat
    let len := (s.rd (DMA_SH_LEN n)).toNat
    let plane := (s.rd (DMA_SH_PLANE n)).toNat
    let shuffle := s.get (DMA_SH_CFG.shuffle n)
    let swap := s.get (DMA_SH_CFG.swap n)
    let unit : Nat := if swap = 1 then 2 else if swap = 2 ∨ swap = 3 then 4 else if swap = 4 then 8 else 1
    let e : Nat := 2 ^ (s.get (DMA_SH_FRM.esize n) + 1)
    let valid : Prop := len ≠ 0 ∧ (shuffle ≠ 0 → n.val < 8 ∧ swap = 0 ∧ src % e = 0 ∧ dst % e = 0 ∧ plane % e = 0 ∧ len * e ≤ plane) ∧ (swap ≠ 0 → 24 ≤
        n.val ∧ src % unit = 0 ∧ dst % unit = 0 ∧ len % unit = 0) ∧ (s.get (DMA_SH_CFG.atomic n) ≠ 0 → shuffle = 0 ∧ swap = 0 ∧ len = 8 ∧ dst % 8 = 0
        ∧ dst < 2 ^ 24 ∧ (plane = 2 ^ 32 - 1 ∨ plane % 8 = 0 ∧ plane < 2 ^ 24))
    s.wf = true ∧ ready = false ∧ copier = false ∧ (¬ valid) := by decide +kernel

/-- States at which `Obligations.DmaControl` has its hypotheses met. -/
@[reducible] def dmaControlAt2 (cfg : Nat) (h : Nat) (w : Nat) (P : State → Fin 32 → Bool → DmaXfer → Prop) : Prop :=
  let s0 := mem someMem base
  let s0 := { s0 with asyEdges := [] }
  let s0 := { s0 with dbk := { s0.dbk with mem := [(3, 7), (40, 9), (0x3000003, 8)] } }
  let s0 := (s0.set GBL_STRAP.hostsel 0).set GBL_HOST.dl_up 1
  let s0 := { s0 with host := { s0.host with pcie := { s0.host.pcie with master := true } } }
  let n := (0 : Fin 32)
  let ps := 0
  let s := setup n 0 64 40 cfg 0 0 s0
  let s1 := cyc1 (nx (execDmaArm n s) s)
  let s1 := (s1.set DMA_GSTAT.halted h).set PWR_STAT.state ps
  let z := dmaOn n w s1
  let x : DmaXfer := (z.dma.chan[n]).xfer.getD xz
  let p := true
  P z n p x

theorem witness_DmaControl_6 : dmaControlAt2 0x8000 1 0 fun s n pulsed _ =>
    let c := s.dma.chan[n]
    let st := s.get (DMA_STAT.state n)
    let ready := s.flag (DMA_STAT.sh_ready n)
    let copier := (s.copierOf n).isSome
    let y := s.shadowSet n
    let trig : Bool := fieldOf y.cfg (DMA_SH_CFG.trig_en 0) == 1
    let halted := s.flag DMA_GSTAT.halted
    let free := halted = false ∧ st = 0 ∧ s.parking = false ∧ c.was = true
    s.wf = true ∧ (ready = true ∨ copier = true) ∧ ready = true ∧ copier = false ∧ trig = true ∧ pulsed = true ∧ (¬ free) ∧ c.xfer = none ∧ st = 0 ∧
        halted = true := by decide +kernel

theorem witness_DmaControl_7 : dmaControlAt2 0xC000 0 4 fun s n _ x =>
    let c := s.dma.chan[n]
    s.wf = true ∧ c.xfer = some x ∧ fieldOf x.cfg (DMA_SH_CFG.pace_en 0) ≠ 0 ∧ s.get (DMA_STAT.credit n) = 15 := by decide +kernel

/-- States at which `Obligations.DmaMoves` has its hypotheses met. -/
@[reducible] def dmaMovesAt1 (src : Nat) (dst : Nat) (len : Nat) (cfg : Nat) (plane : Nat) (w : Nat) (P : State → Fin 32 → DmaXfer → Nat → List Nat → DmaLine → DmaReply → LineEcc → Bool → Prop) : Prop :=
  let s0 := mem someMem base
  let s0 := { s0 with asyEdges := [] }
  let s0 := { s0 with dbk := { s0.dbk with mem := [(3, 7), (40, 9), (0x3000003, 8)] } }
  let s0 := (s0.set GBL_STRAP.hostsel 0).set GBL_HOST.dl_up 1
  let s0 := { s0 with host := { s0.host with pcie := { s0.host.pcie with master := true } } }
  let n := (0 : Fin 32)
  let frm := 0
  let k := 0
  let cfg := if k = 0 then cfg else if k < 17 then cfg ||| (1 <<< (2 * k - 2)) else cfg
  let pause := 0
  let trm := 0
  let cr := 0
  let sr := none
  let arb := 0
  let s := setup n src dst len cfg frm plane s0
  let s := (((s.set (DMA_CTL.pause n) pause).set (DMA_CNT.trig_miss n) trm).set (DMA_STAT.credit n) cr).set DMA_GCTRL.arb arb
  let s := { s with dma := { s.dma with serial := sr } }
  let z := dmaAt n pause w s
  let x : DmaXfer := (z.dma.chan[n]).xfer.getD xz
  let sv := 0
  let y := slotAt sv z
  let fromBuf := true
  let line : DmaLine := if fromBuf then (x.buf.find? x.complete).getD ⟨0, 0, []⟩ else (y.writeLineOf false n).getD ⟨0, 0, []⟩
  let r := (⟨⟨0, 0⟩, [], none⟩ : DmaReply)
  P y n x (x.issued.headD 0) (x.issued.drop 1) line r r.ecc (sv != 1)

theorem witness_DmaMoves_1 : dmaMovesAt1 0 64 40 0 0 0 fun s n _ _ _ _ _ _ _ =>
    let chan := s.dma.chan[n]
    let writes : Bool := decide <| s.flag DMA_GSTAT.halted = false ∧ (s.get (DMA_STAT.state n) = 1 ∨ s.get (DMA_STAT.state n) = 2)
    s.wf = true ∧ (s.flag DMA_GSTAT.halted = true ∨ s.arbitrate = none ∨ (s.dma.queue.any fun q => !q.2) = true) ∧ chan.xfer = none ∧ (¬ writes) := by decide +kernel

theorem witness_DmaMoves_2 : dmaMovesAt1 0 64 40 0 0 8 fun s n x _ _ line _ _ pooled =>
    let chan := s.dma.chan[n]
    let holds : Bool := decide <| chan.xfer = some x
    let writes : Bool := decide <| s.flag DMA_GSTAT.halted = false ∧ (s.get (DMA_STAT.state n) = 1 ∨ s.get (DMA_STAT.state n) = 2)
    let slot : Bool := decide <| s.vlt.granted = false ∧ s.winner [] = some (2, pooled, 0)
    let onlyVault : Bool := x.buf.all fun b => b.addr < 2 ^ 24
    s.wf = true ∧ s.flag DMA_GSTAT.halted = false ∧ s.arbitrate = some n ∧ holds ∧ x.issued = [] ∧ writes ∧ x.buf.find? x.complete = some line ∧ onlyVault
        ∧ slot ∧ s.dmaHead = some (n, true) ∧ x.atomic = 0 ∧ s.flag ASY_SEC_STAT.loading = false := by decide +kernel

theorem witness_DmaMoves_3 : dmaMovesAt1 0 64 40 0 0 4 fun s n x l rest _ r _ pooled =>
    let chan := s.dma.chan[n]
    let holds : Bool := decide <| chan.xfer = some x
    let slot : Bool := decide <| s.vlt.granted = false ∧ s.winner [] = some (2, pooled, 0)
    let reads : Bool := decide <| holds ∧ x.issued = l :: rest ∧ x.moved < x.total ∧ x.drainTo = none
    s.wf = true ∧ reads ∧ slot ∧ s.dmaHead = some (n, false) ∧ ((x.issued.all fun k => 32 * k < 2 ^ 24) = true) ∧ r.ecc = ⟨0, 0⟩ ∧ (((List.range 4).all
        fun k => s.vlt.poisoned (4 * l + k) = false) = true) := by decide +kernel

theorem witness_DmaMoves_4 : dmaMovesAt1 0 64 40 0 0 5 fun s n x l rest _ r _ pooled =>
    let chan := s.dma.chan[n]
    let holds : Bool := decide <| chan.xfer = some x
    let slot : Bool := decide <| s.vlt.granted = false ∧ s.winner [] = some (2, pooled, 0)
    let reads : Bool := decide <| holds ∧ x.issued = l :: rest ∧ x.moved < x.total ∧ x.drainTo = none
    s.wf = true ∧ reads ∧ slot ∧ s.dmaHead = some (n, false) ∧ ((x.issued.all fun k => 32 * k < 2 ^ 24) = true) ∧ r.ecc = ⟨0, 0⟩ ∧ (((List.range 4).any
        fun k => s.vlt.poisoned (4 * l + k) = true) = true) := by decide +kernel

theorem witness_DmaMoves_5 : dmaMovesAt1 0x40000000 0x80 64 0 0 4 fun s n x l rest _ r _ _ =>
    let chan := s.dma.chan[n]
    let holds : Bool := decide <| chan.xfer = some x
    let reads : Bool := decide <| holds ∧ x.issued = l :: rest ∧ x.moved < x.total ∧ x.drainTo = none
    s.wf = true ∧ reads ∧ 0x40000000 ≤ 32 * l ∧ 32 * l < 0x78000000 ∧ r.ecc = ⟨0, 0⟩ := by decide +kernel

theorem witness_DmaMoves_6 : dmaMovesAt1 0x2000000 0x80 64 0 0 4 fun s n x l rest _ _ _ _ =>
    let chan := s.dma.chan[n]
    let holds : Bool := decide <| chan.xfer = some x
    s.wf = true ∧ holds ∧ x.issued = l :: rest ∧ s.flag DMA_GSTAT.halted = false ∧ spaceOf (32 * l % 2 ^ 64) = .nothing := by decide +kernel

theorem witness_DmaMoves_7 : dmaMovesAt1 0x20 0x100 8 4 0xFFFFFFFF 8 fun s n x _ _ line _ e pooled =>
    let chan := s.dma.chan[n]
    let holds : Bool := decide <| chan.xfer = some x
    let writes : Bool := decide <| s.flag DMA_GSTAT.halted = false ∧ (s.get (DMA_STAT.state n) = 1 ∨ s.get (DMA_STAT.state n) = 2)
    let slot : Bool := decide <| s.vlt.granted = false ∧ s.winner [] = some (2, pooled, 0)
    let onlyVault : Bool := x.buf.all fun b => b.addr < 2 ^ 24
    s.wf = true ∧ holds ∧ writes ∧ x.buf.find? x.complete = some line ∧ onlyVault ∧ slot ∧ s.dmaHead = some (n, true) ∧ x.atomic ≠ 0 ∧ x.old = none ∧
        s.flag ASY_SEC_STAT.loading = false ∧ e = ⟨0, 0⟩ ∧ x.dst % 8 = 0 ∧ s.vlt.poisoned (x.dst / 8) = false := by decide +kernel

theorem witness_DmaMoves_8 : dmaMovesAt1 0x8000000000000040 0x40000010 64 0 0 4 fun s n x l rest _ r _ _ =>
    let chan := s.dma.chan[n]
    let holds : Bool := decide <| chan.xfer = some x
    let reads : Bool := decide <| holds ∧ x.issued = l :: rest ∧ x.moved < x.total ∧ x.drainTo = none
    s.wf = true ∧ reads ∧ 2 ^ 63 ≤ 32 * l ∧ 32 * l < 2 ^ 64 ∧ s.hostShut = none ∧ r.err = none := by decide +kernel

theorem witness_DmaMoves_9 : dmaMovesAt1 0x20 0x40000000 32 0 0 8 fun s n x _ _ line _ _ _ =>
    let chan := s.dma.chan[n]
    let holds : Bool := decide <| chan.xfer = some x
    let writes : Bool := decide <| s.flag DMA_GSTAT.halted = false ∧ (s.get (DMA_STAT.state n) = 1 ∨ s.get (DMA_STAT.state n) = 2)
    s.wf = true ∧ holds ∧ writes ∧ s.mayIssue n = true ∧ s.writeLineOf false n = some line ∧ x.atomic = 0 ∧ 0x40000000 ≤ line.addr ∧ line.addr +
        line.bytes.length ≤ 0x78000000 ∧ line.bytes ≠ [] := by decide +kernel

theorem witness_DmaMoves_10 : dmaMovesAt1 0 0x8000000000000000 64 0 0 8 fun s n x _ _ line _ _ _ =>
    let chan := s.dma.chan[n]
    let holds : Bool := decide <| chan.xfer = some x
    let writes : Bool := decide <| s.flag DMA_GSTAT.halted = false ∧ (s.get (DMA_STAT.state n) = 1 ∨ s.get (DMA_STAT.state n) = 2)
    s.wf = true ∧ holds ∧ writes ∧ s.mayIssue n = true ∧ s.writeLineOf false n = some line ∧ x.atomic = 0 ∧ 2 ^ 63 ≤ line.addr ∧ line.addr < 2 ^ 64 ∧
        s.hostShut = none := by decide +kernel

/-- States at which `Obligations.DmaMoves` has its hypotheses met. -/
@[reducible] def dmaMovesAt2 (w : Nat) (P : State → Fin 32 → DmaXfer → Prop) : Prop :=
  let s0 := mem someMem base
  let s0 := { s0 with asyEdges := [] }
  let s0 := { s0 with dbk := { s0.dbk with mem := [(3, 7), (40, 9), (0x3000003, 8)] } }
  let s0 := (s0.set GBL_STRAP.hostsel 0).set GBL_HOST.dl_up 1
  let s0 := { s0 with host := { s0.host with pcie := { s0.host.pcie with master := true } } }
  let n := (0 : Fin 32)
  let cfg := 0x8000
  let h := 0
  let ps := 0
  let s := setup n 0 64 40 cfg 0 0 s0
  let s1 := cyc1 (nx (execDmaArm n s) s)
  let s1 := (s1.set DMA_GSTAT.halted h).set PWR_STAT.state ps
  let z := dmaOn n w s1
  let x : DmaXfer := (z.dma.chan[n]).xfer.getD xz
  let sv := 0
  let y := slotAt sv z
  P y n x

theorem witness_DmaMoves_11 : dmaMovesAt2 6 fun s n x =>
    let chan := s.dma.chan[n]
    let holds : Bool := decide <| chan.xfer = some x
    let writes : Bool := decide <| s.flag DMA_GSTAT.halted = false ∧ (s.get (DMA_STAT.state n) = 1 ∨ s.get (DMA_STAT.state n) = 2)
    s.wf = true ∧ holds ∧ writes ∧ s.mayIssue n = true ∧ x.buf = [] ∧ x.issued = [] ∧ x.total ≤ x.moved ∧ chan.was = false ∧ s.copierOf n = none := by decide +kernel

theorem witness_DmaMoves_12 : dmaMovesAt2 11 fun s n x =>
    let chan := s.dma.chan[n]
    let holds : Bool := decide <| chan.xfer = some x
    let writes : Bool := decide <| s.flag DMA_GSTAT.halted = false ∧ (s.get (DMA_STAT.state n) = 1 ∨ s.get (DMA_STAT.state n) = 2)
    s.wf = true ∧ holds ∧ writes ∧ s.mayIssue n = true ∧ x.buf = [] ∧ x.issued = [] ∧ x.total ≤ x.moved ∧ chan.was = true ∧ s.parking = false ∧ s.copierOf
        n = none ∧ fieldOf (s.shadowSet n).cfg (DMA_SH_CFG.trig_en 0) = 0 := by decide +kernel

/-- States at which `Obligations.DaybookCommands` has its hypotheses met. -/
@[reducible] def daybookCommandsAt1 (en : Nat) (st : Nat) (ac : Option Seal) (used : Nat) (lns : List (Nat × List Byte)) (evt : Nat) (thr : Nat) (wb : Nat) (P : State → Fin 16 → Word → Nat → List Byte → (List (Nat × List Byte)) → Seal → BitVec 28 → Nat → Bool → Nat → Nat → Nat → Prop) : Prop :=
  let s0 := mem someMem base
  let s0 := { s0 with asyEdges := [] }
  let s0 := { s0 with dbk := { s0.dbk with mem := [(3, 7), (40, 9), (0x3000003, 8)] } }
  let s0 := (s0.set GBL_STRAP.hostsel 0).set GBL_HOST.dl_up 1
  let s0 := { s0 with host := { s0.host with pcie := { s0.host.pcie with master := true } } }
  let m := (0 : Fin 16)
  let kd := 0
  let op := (none : Option Block)
  let v := (0 : Word)
  let s := (((((s0.set (DBK_CFG.en m) en).set (DBK_CFG.kind m) kd).set (DBK_STAT.state m) st).set (DBK_CFG.seal_evt_en m) evt).set (DBK_CFG.dma m)
    9).set DBK_GSTAT.throttle thr
  let s := ((s.set DBK_WIN.base wb).set (DBK_RING.size m) 3).set (DBK_STG.size m) 4 |>.set (DBK_SPAN.pre m) 3
  let s := { s with tb := { s.tb with boundary := thr = 0 }, vlt := { s.vlt with pos := if thr = 2 then 13 else 0 } }
  let s := { s with dbk := { s.dbk with stream := vmod s.dbk.stream m fun x => { x with accepted := ac, used := used, lines := lns, open' := op, ring := (if thr = 0 then [] else [⟨20, 16, [(2, 16)], 100⟩, ⟨97, 16, [(2, 16)], 200000⟩]), passed := (if thr = 1 then some 98 else none), closed := (if used = 0 then [] else [⟨98, 16, [(2, 16)], 0⟩]) }, mem := [(3, 7), (40, 9)] } }
  let s := s.wr64 (DBK_SEAL_TIME m) 12345678
  let c := (s.nextCopy m).getD (0, 0, 0)
  let (a, bs) := match lns with | (a, bs) :: _ => (a, bs) | _ => (0, [])
  P s m v a bs (lns.drop 1) (ac.getD ⟨0,0,0,0⟩) (if v = 0 then 37 else 64) (if v = 0 then 5 else 40) (thr ≠ 2) c.1 c.2.1 c.2.2

theorem witness_DaybookCommands_1 : daybookCommandsAt1 0 0 none 0 [] 0 0 0 fun s m v _ _ _ _ off len _ _ _ _ =>
    let x := s.dbk.stream[m]
    let en := s.flag (DBK_CFG.en m)
    let st := s.get (DBK_STAT.state m)
    let byEvent := s.flag (DBK_CFG.seal_evt_en m)
    let A := s.get DBK_WIN.base * 2 ^ 20 + off.toNat
    s.wf = true ∧ x.lines = [] ∧ s.nextCopy m = none ∧ en = false ∧ byEvent = false ∧ s.freezeDue m = false ∧ st ≠ 2 ∧ v.getLsbD 31 = false ∧ 0 < len ∧
        len ≤ 64 ∧ off.toNat % 64 + len ≤ 64 ∧ A + len ≤ 0x38000000 := by decide +kernel

theorem witness_DaybookCommands_2 : daybookCommandsAt1 1 0 none 16 [(0x60, [1,2,3]), (0x80, [4])] 1 2 1 fun s m v a bs l _ _ _ pooled src dst k =>
    let x := s.dbk.stream[m]
    let en := s.flag (DBK_CFG.en m)
    let st := s.get (DBK_STAT.state m)
    let byEvent := s.flag (DBK_CFG.seal_evt_en m)
    s.wf = true ∧ x.lines = (a, bs) :: l ∧ a < 0x1000000 ∧ s.vlt.granted = false ∧ s.winner [] = some (5, pooled, 0) ∧ (((List.finRange 16).all fun j =>
        decide (j < m → (s.dbk.stream[j]).lines = [])) = true) ∧ s.nextCopy m = some (src, dst, k) ∧ en = true ∧ st = 0 ∧ byEvent = true ∧ v.getLsbD
        31 = false := by decide +kernel

theorem witness_DaybookCommands_3 : daybookCommandsAt1 1 1 (some ⟨99, 100, 100015, 0⟩) 0 [] 0 0 0 fun s m _ _ _ _ q _ _ _ _ _ _ =>
    let x := s.dbk.stream[m]
    let en := s.flag (DBK_CFG.en m)
    let st := s.get (DBK_STAT.state m)
    s.wf = true ∧ en = true ∧ st = 1 ∧ x.accepted = some q ∧ q.cyc = s.tb.cyc ∧ q.source ≤ 2 := by decide +kernel

/-- States at which `Obligations.DaybookCommands` has its hypotheses met. -/
@[reducible] def daybookCommandsAt2 (kd : Nat) (en : Nat) (st : Nat) (used : Nat) (P : State → Fin 16 → Word → Seal → Prop) : Prop :=
  let s0 := mem someMem base
  let s0 := { s0 with asyEdges := [] }
  let s0 := { s0 with dbk := { s0.dbk with mem := [(3, 7), (40, 9), (0x3000003, 8)] } }
  let s0 := (s0.set GBL_STRAP.hostsel 0).set GBL_HOST.dl_up 1
  let s0 := { s0 with host := { s0.host with pcie := { s0.host.pcie with master := true } } }
  let m := (0 : Fin 16)
  let s := ((((s0.set (DBK_CFG.en m) en).set (DBK_CFG.kind m) kd).set (DBK_CFG.dma m) 9).set (DBK_RING.size m) 3).set (DBK_STG.size m) 4 |>.set
    (DBK_STG.base m) 1
  let s := ((s.set ADC_RING_BASE.base 8).set ADC_RING_SIZE.lines 8).set (DBK_STAT.state m) st
  let s := if st = 1 then ((s.set (DBK_CFG.en 3) 1).set (DBK_CFG.dma 3) 9).set (DBK_RING.size 3) 2 else s
  let off := 0
  let s := { s.set (DBK_WR.offset m) off with dbk := { s.dbk with stream := vmod s.dbk.stream m fun x => { x with used := used, rd := 16, closed := [⟨98, 48, [(1, 48)], 0⟩], open' := some ⟨99, 32, [(1, 32)], 0⟩, accepted := some ⟨99, 100, 5, 1⟩ } } }
  let v := (0x80000000 : Word)
  P s m v ⟨99, 100, 5, 1⟩

theorem witness_DaybookCommands_4 : daybookCommandsAt2 1 1 1 40 fun s m v q =>
    let x := s.dbk.stream[m]
    let en := s.flag (DBK_CFG.en m)
    let adc := s.flag (DBK_CFG.kind m)
    let st := s.get (DBK_STAT.state m)
    s.wf = true ∧ en = true ∧ st ≠ 0 ∧ x.accepted = some q ∧ (q.cyc ≠ s.tb.cyc ∨ st ≠ 1) ∧ s.freezeDue m = true ∧ adc = true ∧ x.used ≠ 0 ∧ v.getLsbD 31 =
        true := by decide +kernel

theorem witness_DaybookCommands_5 : daybookCommandsAt2 0 0 2 0 fun s m v _ =>
    let en := s.flag (DBK_CFG.en m)
    let st := s.get (DBK_STAT.state m)
    let off' := (s.plainWrite (DBK_CFG m) v).set (DBK_CFG.en m) 0
    s.wf = true ∧ st = 2 ∧ en = false ∧ v.getLsbD 31 = true ∧ off'.streamRefused m = false := by decide +kernel

theorem witness_DaybookCommands_6 : daybookCommandsAt2 1 0 1 0 fun s m v q =>
    let x := s.dbk.stream[m]
    let en := s.flag (DBK_CFG.en m)
    let adc := s.flag (DBK_CFG.kind m)
    let off' := (s.plainWrite (DBK_CFG m) v).set (DBK_CFG.en m) 0
    s.wf = true ∧ s.freezeDue m = true ∧ adc = true ∧ x.used = 0 ∧ x.accepted = some q ∧ en = false ∧ v.getLsbD 31 = true ∧ off'.streamRefused m = true := by decide +kernel

/-- States at which `Obligations.EthernetCommands` has its hypotheses met. -/
@[reducible] def ethernetCommandsAt (lk : Nat) (bytesᵢ : Nat) (v : Word) (rx : Nat) (good : Bool) (airᵢ : Nat) (txᵢ : Nat) (sl : Nat) (ten : Nat) (full : Bool) (P : State → Fin 2 → Word → List Byte → List Byte → Time → Bool → Bool → Fin 8 → Time → Fin 2 → BitVec 16 → (List (Time × Fin 2 × BitVec 16)) → Prop) : Prop :=
  let s0 := mem someMem base
  let s0 := { s0 with asyEdges := [] }
  let s0 := { s0 with dbk := { s0.dbk with mem := [(3, 7), (40, 9), (0x3000003, 8)] } }
  let s0 := (s0.set GBL_STRAP.hostsel 0).set GBL_HOST.dl_up 1
  let s0 := { s0 with host := { s0.host with pcie := { s0.host.pcie with master := true } } }
  let fr (d : List Byte) (n : Nat) : List Byte := d ++ (List.range n).map fun k => BitVec.ofNat 8 (k + 1)
  let ptp : List Byte := [0x01,0x1B,0x19,0,0,0,1,2,3,4,5,6,0x88,0xF7] ++ (List.range 40).map fun k => BitVec.ofNat 8 k
  let psf : List Byte := [0x01,0x80,0xC2,0,0,1,1,2,3,4,5,6,0x88,0x08,0,1,0x12,0x34] ++ (List.range 42).map fun _ => 0
  let m := (0 : Fin 2)
  let on := 1
  let busy := 0
  let bytes := [(ptp : List Byte), (psf : List Byte), (fr [1,2,3,4,5,7] 60 : List Byte)].getD bytesᵢ ((ptp : List Byte))
  let up := (true : Bool)
  let air := [(some ([1,2,3,4], 9, true) : Option (List Byte × Time × Bool)), (none : Option (List Byte × Time × Bool)), (some ([1,2], 7, false) :
    Option (List Byte × Time × Bool))].getD airᵢ ((some ([1,2,3,4], 9, true) : Option (List Byte × Time × Bool)))
  let pse := 0
  let tx := if txᵢ = 0 then ([] : List (Time × Fin 2 × BitVec 16)) else ([(0x123456789, 1, 0xABCD), (5, 0, 3)] : List (Time × Fin 2 × BitVec 16))
  let s := (((s0.set (ETH_CTRL.en m) on).set (ETH_STAT.link_up m) lk).set (ETH_TXCTL.busy m) busy).wr64 (ETH_ADDR m) 0x010203040506
  let s := (((s.set TB_CTRL.slew_src sl).wr ETH_PTP_GAIN 0x12345678).set (ETH_TLM_CFG.en 3) ten).set (ETH_TLM_CFG.mac 3) m |>.set (ETH_TXCTL.len m) (if
    sl = 0 then 14 else 77)
  let s := (List.range 30).foldl (fun s k => s.wr (ETH_TXBUF m k) (BitVec.ofNat 32 (k * 0x1234567))) s
  let s := { s with eth := { s.eth with mac := vmod s.eth.mac m (fun y => { y with air := air, wait := if sl = 3 then some [7] else none, pause := pse }), rx := vmod s.eth.rx m (fun _ => List.replicate rx ⟨[1], none⟩), txts := tx, integ := 0x123456789, tlm := vmod s.eth.tlm 3 fun t => { t with full := full, payload := [1,2,3,4], count := 1 } } }
  let q := tx.headD (0, 0, 0)
  let f := match air with | some (f, _, _) => f | none => []
  let at' := match air with | some (_, t, _) => t | none => 0
  P s m v bytes f at' up good 3 q.1 q.2.1 q.2.2 (tx.drop 1)

theorem witness_EthernetCommands_1 : ethernetCommandsAt 1 0 0 0 false 0 0 0 0 false fun s m v bytes f at' up good k a _ _ l =>
    let mac := s.eth.mac[m]
    let be (l : List Byte) : Nat := l.foldl (fun a b => 256 * a + b.toNat) 0
    let dest : Nat := be (bytes.take 6)
    let own := (s.rd64 (ETH_ADDR m)).toNat % 2 ^ 48
    let pause : Bool := decide <| (dest = 0x0180C2000001 ∨ dest = own) ∧ be ((bytes.drop 12).take 2) = 0x8808 ∧ be ((bytes.drop 14).take 2) = 1
    let takes : Bool := decide <| s.macUp m = true ∧ bytes.length ≤ 1518 ∧ ¬ pause ∧ (dest = own ∨ dest ∈ knownGroups)
    s.wf = true ∧ v.getLsbD 31 = false ∧ mac.air = some (f, at', true) ∧ s.macUp m = true ∧ (good = false ∨ 1518 < bytes.length) ∧ takes ∧
        (s.eth.rx[m]).length < 4 ∧ (s.flag (ETH_STAT.link_up m) = up ∨ (up = true ∧ s.macOn m = false)) ∧ s.eth.txts = [] ∧ s.get TB_CTRL.slew_src ≠ 1
        ∧ s.flag (ETH_TLM_CFG.en k) = false := by decide +kernel

theorem witness_EthernetCommands_2 : ethernetCommandsAt 0 0 0x80000000 0 true 1 1 1 1 true fun s m v _ f at' up _ k a i q l =>
    let t := s.plainWrite (ETH_TXCTL m) v
    let len := t.get (ETH_TXCTL.len m)
    let busy := s.flag (ETH_TXCTL.busy m)
    let can := busy = false ∧ 14 ≤ len ∧ len ≤ 1518 ∧ s.macUp m = true
    let mac := s.eth.mac[m]
    let tlm := s.eth.tlm[k]
    let j : Fin 2 := Fin.ofNat 2 (s.get (ETH_TLM_CFG.mac k))
    let ready : Bool := decide <| s.flag (ETH_TLM_CFG.en k) = true ∧ tlm.full = true ∧ 0 < tlm.count ∧ (s.dbk.stream[(Fin.ofNat 16 (s.get
        (ETH_TLM_CFG.stream k)) : Fin 16)]).gone ≤ tlm.blk
    s.wf = true ∧ v.getLsbD 31 = true ∧ (¬ can) ∧ (mac.air = none ∨ mac.air = some (f, at', false)) ∧ s.macUp m = false ∧ s.flag (ETH_STAT.link_up m) ≠ up
        ∧ (up = true → s.macOn m = true) ∧ s.eth.txts = (a, i, q) :: l ∧ s.get TB_CTRL.slew_src = 1 ∧ ready ∧ (s.macUp j = false ∨ (s.macFree j = true
        ∧ (s.eth.mac[j]).wait = none)) := by decide +kernel

theorem witness_EthernetCommands_3 : ethernetCommandsAt 1 0 0x8000000E 4 true 2 0 1 1 true fun s m v bytes _ _ _ _ k a _ _ l =>
    let t := s.plainWrite (ETH_TXCTL m) v
    let len := t.get (ETH_TXCTL.len m)
    let busy := s.flag (ETH_TXCTL.busy m)
    let can := busy = false ∧ 14 ≤ len ∧ len ≤ 1518 ∧ s.macUp m = true
    let mac := s.eth.mac[m]
    let free := mac.air = none ∧ mac.pause.toNat ≤ s.now.toNat
    let be (l : List Byte) : Nat := l.foldl (fun a b => 256 * a + b.toNat) 0
    let dest : Nat := be (bytes.take 6)
    let own := (s.rd64 (ETH_ADDR m)).toNat % 2 ^ 48
    let pause : Bool := decide <| (dest = 0x0180C2000001 ∨ dest = own) ∧ be ((bytes.drop 12).take 2) = 0x8808 ∧ be ((bytes.drop 14).take 2) = 1
    let takes : Bool := decide <| s.macUp m = true ∧ bytes.length ≤ 1518 ∧ ¬ pause ∧ (dest = own ∨ dest ∈ knownGroups)
    let tlm := s.eth.tlm[k]
    let j : Fin 2 := Fin.ofNat 2 (s.get (ETH_TLM_CFG.mac k))
    let ready : Bool := decide <| s.flag (ETH_TLM_CFG.en k) = true ∧ tlm.full = true ∧ 0 < tlm.count ∧ (s.dbk.stream[(Fin.ofNat 16 (s.get
        (ETH_TLM_CFG.stream k)) : Fin 16)]).gone ≤ tlm.blk
    s.wf = true ∧ v.getLsbD 31 = true ∧ can ∧ (¬ free) ∧ takes ∧ 4 ≤ (s.eth.rx[m]).length ∧ ready ∧ s.macUp j = true ∧ (s.macFree j = false ∨
        (s.eth.mac[j]).wait ≠ none) := by decide +kernel

theorem witness_EthernetCommands_4 : ethernetCommandsAt 1 1 0x8000000E 0 true 1 0 0 0 false fun s m v bytes _ _ _ _ _ a _ _ l =>
    let t := s.plainWrite (ETH_TXCTL m) v
    let len := t.get (ETH_TXCTL.len m)
    let busy := s.flag (ETH_TXCTL.busy m)
    let can := busy = false ∧ 14 ≤ len ∧ len ≤ 1518 ∧ s.macUp m = true
    let mac := s.eth.mac[m]
    let free := mac.air = none ∧ mac.pause.toNat ≤ s.now.toNat
    let be (l : List Byte) : Nat := l.foldl (fun a b => 256 * a + b.toNat) 0
    let dest : Nat := be (bytes.take 6)
    let own := (s.rd64 (ETH_ADDR m)).toNat % 2 ^ 48
    let pause : Bool := decide <| (dest = 0x0180C2000001 ∨ dest = own) ∧ be ((bytes.drop 12).take 2) = 0x8808 ∧ be ((bytes.drop 14).take 2) = 1
    s.wf = true ∧ v.getLsbD 31 = true ∧ can ∧ free ∧ s.macUp m = true ∧ bytes.length ≤ 1518 ∧ pause := by decide +kernel

theorem witness_EthernetCommands_5 : ethernetCommandsAt 1 2 0 0 true 1 0 0 0 false fun s m _ bytes _ _ _ _ _ a _ _ l =>
    let be (l : List Byte) : Nat := l.foldl (fun a b => 256 * a + b.toNat) 0
    let dest : Nat := be (bytes.take 6)
    let own := (s.rd64 (ETH_ADDR m)).toNat % 2 ^ 48
    let pause : Bool := decide <| (dest = 0x0180C2000001 ∨ dest = own) ∧ be ((bytes.drop 12).take 2) = 0x8808 ∧ be ((bytes.drop 14).take 2) = 1
    s.wf = true ∧ s.macUp m = true ∧ bytes.length ≤ 1518 ∧ (¬ pause) ∧ dest ≠ own ∧ dest ∉ knownGroups := by decide +kernel

/-! ### Witnesses: interrupts, power, Sloulo -/

/-- A helper of the states below. -/
def pm (p : Fin 4) (f : SloPort → SloPort) (s : State) : State := { s with slo := { s.slo with port := vmod s.slo.port p f } }

/-- A helper of the states below. -/
def body (k : Nat) : CellBody := match k % 9 with
  | 0 => .rpost 3 4 5 | 1 => .revt 7 | 2 => .bulk [1,2,3] (some 5) | 3 => .reserved 9 | 4 => .hello 5 | 5 => .discover 77 true | 6 => .goat false 500 | 7 => .notice 5 .late | _ => .sub .subscribe 1 2

/-- A helper of the states below. -/
def cl (k : Nat) : Cell := ⟨k % 2 = 1, 0, 9, body k⟩

/-- A helper of the states below. -/
def lc (k : Nat) : LinkCell := { ack := BitVec.ofNat 7 k, credits := #v[1,2,3,BitVec.ofNat 8 k], nak := k % 2 = 1, degraded := k % 3 = 1, down := k % 5 = 1, uid := if k % 4 = 0 then some 1234 else none, time := match k % 3 with | 0 => .none | 1 => .request | _ => .reply 800000 800010 }

/-- States at which `Obligations.InterruptCommands` has its hypotheses met. -/
@[reducible] def interruptCommandsAt1 (st : Nat) (tgt : Nat) (nt : Nat) (P : State → Fin 1024 → Fin 35 → Word → BitVec 6 → (List (Fin 1024)) → Prop) : Prop :=
  let s0 := mem someMem base
  let s0 := { s0 with asyEdges := [] }
  let n := (0 : Fin 1024)
  let e := 1
  let inp := 1
  let frz := 0
  let mx := (true : Bool)
  let d3 := (false : Bool)
  let v := (0 : Word)
  let s := (((s0.set (IC_SRC.en n) e).set (IC_SRC.input n) inp).set (IC_SRC.state n) st).set (IC_SRC.target n) tgt
  let s := ((s.set PWR_STAT.state frz).set IC_CTRL.en 1).set IC_CTRL.storm_lim (if mx then 1 else 0)
  let s := ((s.raise (BZL_FLAGS 0 |> fun o => bitFld o 8)).raise (bitFld FLT_STAT 0)).raise DMA_GSTAT.bus_err
  let s := { s with inflight := (if tgt = 31 then [(s.tb.cyc + 1, .retarget n 4), (s.tb.cyc + 1, .rpostDelivery 3)] else if tgt = 34 then [(s.tb.cyc, .retarget n 4)] else []) }
  let s := { s with ic := { s.ic with queue := if st = 1 then [n, 3] else [3, 900], fresh := (if tgt = 0 then [] else [900]), storm := [(600, 5)], done := if st = 2 then [5, n] else [5] }, host := { s.host with pcie := { s.host.pcie with pmeEn := true, msixEn := mx, d3 := d3, master := true, msiEn := !mx, msiAddr := 0x1234, msiData := 7, table := Vector.replicate 32 ⟨0x5000, 99, 0⟩ } } }
  let s := (s.set GBL_HOST.dl_up 1)
  let q : Fin 35 := Fin.ofNat 35 tgt
  let a := (s.targetQueue q).headD n
  P s a q v (BitVec.ofNat 6 nt) ((s.targetQueue q).drop 1)

theorem witness_InterruptCommands_1 : interruptCommandsAt1 0 0 0 fun s n q v t l =>
    let st := s.get (IC_SRC.state n)
    let p := s.host.pcie
    s.wf = true ∧ s.pendDue n = false ∧ s.deliveryDue q = true ∧ s.targetQueue q = n :: l ∧ st ≠ 2 ∧ (512 ≤ n.val ∨ st ≠ 1) ∧ srcExists n = true ∧
        (v.getLsbD 31 = true ∨ st ≠ 1) ∧ t.toNat < 35 ∧ p.d3 = false := by decide +kernel

theorem witness_InterruptCommands_2 : interruptCommandsAt1 1 34 63 fun s n q v t _ =>
    let st := s.get (IC_SRC.state n)
    s.wf = true ∧ s.deliveryDue q = false ∧ n.val < 512 ∧ st = 1 ∧ srcExists n = true ∧ v.getLsbD 31 = false ∧ (srcExists n = false ∨ 35 ≤ t.toNat) := by decide +kernel

/-- States at which `Obligations.InterruptCommands` has its hypotheses met. -/
@[reducible] def interruptCommandsAt2 (n : Fin 1024) (st : Nat) (P : State → Fin 1024 → Prop) : Prop :=
  let s0 := mem someMem base
  let s0 := { s0 with asyEdges := [] }
  let e := 1
  let inp := 1
  let frz := 0
  let tgt := 0
  let mx := (true : Bool)
  let d3 := (false : Bool)
  let s := (((s0.set (IC_SRC.en n) e).set (IC_SRC.input n) inp).set (IC_SRC.state n) st).set (IC_SRC.target n) tgt
  let s := ((s.set PWR_STAT.state frz).set IC_CTRL.en 1).set IC_CTRL.storm_lim (if mx then 1 else 0)
  let s := ((s.raise (BZL_FLAGS 0 |> fun o => bitFld o 8)).raise (bitFld FLT_STAT 0)).raise DMA_GSTAT.bus_err
  let s := { s with inflight := (if tgt = 31 then [(s.tb.cyc + 1, .retarget n 4), (s.tb.cyc + 1, .rpostDelivery 3)] else if tgt = 34 then [(s.tb.cyc, .retarget n 4)] else []) }
  let s := { s with ic := { s.ic with queue := if st = 1 then [n, 3] else [3, 900], fresh := (if tgt = 0 then [] else [900]), storm := [(600, 5)], done := if st = 2 then [5, n] else [5] }, host := { s.host with pcie := { s.host.pcie with pmeEn := true, msixEn := mx, d3 := d3, master := true, msiEn := !mx, msiAddr := 0x1234, msiData := 7, table := Vector.replicate 32 ⟨0x5000, 99, 0⟩ } } }
  let s := (s.set GBL_HOST.dl_up 1)
  P s n

theorem witness_InterruptCommands_3 : interruptCommandsAt2 515 2 fun s n =>
    let st := s.get (IC_SRC.state n)
    s.wf = true ∧ st = 2 ∧ srcExists n = false := by decide +kernel

theorem witness_InterruptCommands_4 : interruptCommandsAt2 0 0 fun s n => s.wf = true ∧ s.pendDue n = true := by decide +kernel

/-- States at which `Obligations.PowerCommands` has its hypotheses met. -/
@[reducible] def powerCommandsAt (st : Nat) (tg : Nat) (lock : Nat) (dp : Nat) (pe : Nat) (pp : Nat) (wp : Bool) (ae : Nat) (al : Nat) (he : Bool) (hb : Bool) (hd : Bool) (P : State → Bool → Nat → Prop) : Prop :=
  let s0 := mem someMem base
  let s0 := { s0 with asyEdges := [] }
  let s := (((((s0.set PWR_STAT.state st).set PWR_CTRL.target tg).set TB_STAT.pll_lock lock).set PWR_STAT.dp_step dp).set PWR_WAKE_EN.pin_en pe).set
    PWR_WAKE_EN.pin_pol pp
  let s := ((s.set PWR_WAKE_EN.alarm_en ae).wr PWR_ALARM (BitVec.ofNat 32 al)).set PWR_WAKE_EN.ic_en 1 |>.set (IC_SRC.wake 3) 1 |>.set GBL_HOST.dl_up
    (tg % 2)
  let s := (s.set (DMA_STAT.state 4) (1 + (tg % 3))).set (DMA_CTL.pause 5) 1
  let s := if he then { s with retained := some (retain s) } else if hd then { s with retained := some (retain (s.set PWR_CTRL.target 1)) } else s
  let s := { s with dma := { s.dma with chan := vmod s.dma.chan 4 fun c => { c with parked := true, xfer := some ⟨0,64,40,0,0,0,5,[1],[],5,[],[0],none,none⟩ } } }
  let s := s.set MNT_CTRL.lock (tg % 2)
  let s := if dp = 2 ∧ he then en 3 (fun _ => { l0 := some r0, l1 := none, busyTo := 0, sel := none }) s else s
  let s := { s with wakePin := wp, ic := { s.ic with queue := if hb then [3] else [] }, tb := { s.tb with aon := 77, gtb := 8000 * 1024, boundary := true }, health := ⟨true, true, false, he, hb, hd⟩ }
  let s := ((s.set FLT_PULSE.skipped (if hd then 65535 else 4)).set (ETH_STAT.link_up 0) 1).set (ETH_CTRL.en 0) 1 |>.wr64 TB_PARK_GTB 0x123456789
  let b := true
  P s b ((s.parkWakeCause).getD 0)

theorem witness_PowerCommands_1 : powerCommandsAt 0 0 1 0 0 0 false 0 0 false false false fun s b _ =>
    let st := s.get PWR_STAT.state
    let h := s.health
    s.wf = true ∧ st < 2 ∧ st ≠ 3 ∧ st ≠ 4 ∧ (s.deepParked && (s.pinWake || s.alarmWake)) = false ∧ (s.alarmWake = false ∨ s.deepParked = false) ∧ (s.flag
        PWR_WAKE_EN.pin_en = false ∨ st < 3 ∨ b ≠ s.flag PWR_WAKE_EN.pin_pol) ∧ s.toggleDue = true ∧ (h.ended = false ∨ 2 ≤ st) := by decide +kernel

theorem witness_PowerCommands_2 : powerCommandsAt 5 0 0 3 1 1 true 1 5 true true true fun s b _ =>
    let st := s.get PWR_STAT.state
    let lock := s.flag TB_STAT.pll_lock
    s.wf = true ∧ 2 < st ∧ st = 5 ∧ lock = false ∧ s.deepParked = true ∧ (s.pinWake = true ∨ s.alarmWake = true) ∧ s.alarmWake = true ∧ s.flag
        PWR_WAKE_EN.pin_en = true ∧ b = s.flag PWR_WAKE_EN.pin_pol ∧ s.toggleDue = false := by decide +kernel

theorem witness_PowerCommands_3 : powerCommandsAt 3 3 1 0 1 1 true 0 0 false false false fun s b c =>
    let st := s.get PWR_STAT.state
    let target := s.get PWR_CTRL.target
    s.wf = true ∧ st = 3 ∧ s.parkWakeCause = some c ∧ c < 4 ∧ target = 3 ∧ s.flag PWR_WAKE_EN.pin_en = true ∧ b = s.flag PWR_WAKE_EN.pin_pol := by decide +kernel

theorem witness_PowerCommands_4 : powerCommandsAt 0 0 1 0 0 0 false 0 0 true false false fun s _ _ =>
    let st := s.get PWR_STAT.state
    let h := s.health
    s.wf = true ∧ s.toggleDue = true ∧ h.ended = true ∧ h.bad = false ∧ st < 2 := by decide +kernel

theorem witness_PowerCommands_5 : powerCommandsAt 0 0 1 0 0 0 false 0 0 true true false fun s _ _ =>
    let st := s.get PWR_STAT.state
    let h := s.health
    s.wf = true ∧ s.toggleDue = true ∧ h.ended = true ∧ h.bad = true ∧ st < 2 := by decide +kernel

theorem witness_PowerCommands_6 : powerCommandsAt 2 0 1 0 0 0 false 0 0 false false false fun s _ _ =>
    let st := s.get PWR_STAT.state
    s.wf = true ∧ st = 2 ∧ s.parkReady = false := by decide +kernel

theorem witness_PowerCommands_7 : powerCommandsAt 2 2 1 0 0 0 false 0 0 false false false fun s _ _ =>
    let st := s.get PWR_STAT.state
    s.wf = true ∧ st = 2 ∧ s.parkReady = true := by decide +kernel

theorem witness_PowerCommands_8 : powerCommandsAt 4 0 1 0 0 0 false 0 0 false false false fun s _ _ =>
    let st := s.get PWR_STAT.state
    let target := s.get PWR_CTRL.target
    s.wf = true ∧ st = 4 ∧ target < 2 := by decide +kernel

theorem witness_PowerCommands_9 : powerCommandsAt 3 2 1 0 0 0 false 0 0 false false false fun s _ _ =>
    let st := s.get PWR_STAT.state
    s.wf = true ∧ st = 3 ∧ s.parkWakeCause = none := by decide +kernel

theorem witness_PowerCommands_10 : powerCommandsAt 5 0 1 0 0 0 false 0 0 false false false fun s _ _ =>
    let st := s.get PWR_STAT.state
    let lock := s.flag TB_STAT.pll_lock
    s.wf = true ∧ st = 5 ∧ lock = true ∧ s.get PWR_STAT.dp_step = 0 := by decide +kernel

theorem witness_PowerCommands_11 : powerCommandsAt 4 2 1 0 0 0 false 0 0 false false false fun s _ _ =>
    let st := s.get PWR_STAT.state
    let target := s.get PWR_CTRL.target
    s.wf = true ∧ st = 4 ∧ 2 ≤ target := by decide +kernel

theorem witness_PowerCommands_12 : powerCommandsAt 5 0 1 1 0 0 false 0 0 false false false fun s _ _ =>
    let st := s.get PWR_STAT.state
    let lock := s.flag TB_STAT.pll_lock
    s.wf = true ∧ st = 5 ∧ lock = true ∧ s.get PWR_STAT.dp_step = 1 := by decide +kernel

theorem witness_PowerCommands_13 : powerCommandsAt 5 0 1 2 0 0 false 0 0 false false false fun s _ _ =>
    let st := s.get PWR_STAT.state
    let lock := s.flag TB_STAT.pll_lock
    s.wf = true ∧ st = 5 ∧ lock = true ∧ s.get PWR_STAT.dp_step = 2 := by decide +kernel

theorem witness_PowerCommands_14 : powerCommandsAt 5 0 1 3 0 0 false 0 0 false false false fun s _ _ =>
    let st := s.get PWR_STAT.state
    let lock := s.flag TB_STAT.pll_lock
    s.wf = true ∧ st = 5 ∧ lock = true ∧ s.get PWR_STAT.dp_step = 3 := by decide +kernel

/-- States at which `Obligations.SlouloLinks` has its hypotheses met. -/
@[reducible] def slouloLinksAt (st : Nat) (k : Nat) (rs : List (BitVec 7 × Cell)) (nak : Bool) (slot : Nat) (win : Nat) (tries : Nat) (P : State → Fin 4 → BitVec 7 → Cell → (List (BitVec 7 × Cell)) → List Cell → Fin 4 → Prop) : Prop :=
  let s0 := mem someMem base
  let s0 := { s0 with asyEdges := [] }
  let p := (0 : Fin 4)
  let ask := none
  let owe := (false : Bool)
  let prog := 0
  let asked := (false : Bool)
  let heard := 100000
  let far := none
  let s := pm p (fun y => { y with resend := rs, nak := nak, ask := ask, owe := owe, slot := slot, window := (List.range win).map (fun i => (BitVec.ofNat 7 i, cl i)), tries := tries, progress := prog, asked := asked, heard := heard, far := far, expect := BitVec.ofNat 7 (k * 11), queue := Vector.ofFn (fun v => if v.val = k % 5 then [cl k, cl 2] else if v.val = 3 then [cl 4] else []), credit := #v[4,5,6,255], low := k * 100, high := k * 1000, farDegraded := k = 3, t1 := (if k % 2 = 0 then some 799000 else none), delays := (if k % 3 = 0 then [] else List.replicate 16 5) })
    s0
  let s := ((s.set (SLO_PORT_STAT.state p) st).set SLO_CTRL.en (k % 2)).set (SLO_PORT_CTRL.en p) 1
  let s := if k % 3 = 1 then ((s.set SLO_STAT.admitted 0).set (SLO_ROUTE.valid 7) 1).set (SLO_ROUTE.pri_port 7) p else s
  let s := if k % 3 = 2 then (((s.set SLO_STAT.admitted 1).set (SLO_ROUTE.valid 7) 1).set (SLO_ROUTE.pri_port 7) p).set TB_CTRL.slew_src 2 |>.set
    SLO_ALIGN.ki 3 |>.set SLO_ALIGN.kp 200 |>.set SLO_ALIGN.lost_lim (k % 5) else s
  let s := { s with slo := { s.slo with rootId := 7, joining := none, stepped := nak } }
  let s := s.set (SLO_PORT_CTRL.asym p) 0xFFF0
  let s := s.set (SLO_PORT_CNT.bad p) (if k = 5 then 65535 else 4)
  let s := (List.range 64).foldl (fun s i => s) s
  let v := (Fin.ofNat 4 (k % 5) : Fin 4)
  let q := BitVec.ofNat 7 (k * 11)
  let y := s.slo.port[p]
  let c := match rs with | (_, c) :: _ => c | [] => (if y.queue[v] = [] then cl k else (y.queue[v]).headD (cl 0))
  let q := match rs with | (q, _) :: _ => q | [] => q
  P s p q c (rs.drop 1) ((y.queue[v]).drop 1) v

theorem witness_SlouloLinks_1 : slouloLinksAt 2 0 [] true 1 64 7 fun s p q c _ _ _ =>
    let y := s.slo.port[p]
    let st := s.get (SLO_PORT_STAT.state p)
    let open' : Prop := st = 2 ∨ st = 3
    s.wf = true ∧ open' ∧ y.resend = [] ∧ y.nak = true ∧ (∀ w : Fin 4, y.mayLeave w = false) ∧ s.resendDue p = true ∧ st ≠ 0 ∧ ((match c.body with | .reserved _ => false | _ => true) = true) ∧ q = y.expect ∧ s.portUpDue p = false ∧ s.portDegradedDue p = false ∧ (st ≠ 0 ∨ s.flag SLO_CTRL.en = false ∨ s.flag (SLO_PORT_CTRL.en p) = false) ∧ s.parentPort ≠ some p := by decide +kernel

theorem witness_SlouloLinks_2 : slouloLinksAt 0 1 [] false 1 0 0 fun s p _ _ _ _ _ =>
    let st := s.get (SLO_PORT_STAT.state p)
    let open' : Prop := st = 2 ∨ st = 3
    s.wf = true ∧ st = 0 ∧ s.resendDue p = false ∧ (¬ open') ∧ s.flag SLO_CTRL.en = true ∧ s.flag (SLO_PORT_CTRL.en p) = true := by decide +kernel

theorem witness_SlouloLinks_3 : slouloLinksAt 2 10 [(5, cl 1), (6, cl 2)] false 1 0 0 fun s p q c r _ _ =>
    let y := s.slo.port[p]
    let st := s.get (SLO_PORT_STAT.state p)
    let open' : Prop := st = 2 ∨ st = 3
    s.wf = true ∧ open' ∧ y.resend = (q, c) :: r ∧ y.window = [] ∧ ((match c.body with | .reserved _ => false | _ => true) = true) ∧ q ≠ y.expect ∧ s.portDegradedDue p = true ∧ s.parentPort = some p ∧ s.slo.joining = none ∧ s.sloAdmitted = false := by decide +kernel

theorem witness_SlouloLinks_4 : slouloLinksAt 3 11 [] false 1 0 0 fun s p _ c _ r' v =>
    let y := s.slo.port[p]
    let st := s.get (SLO_PORT_STAT.state p)
    let open' : Prop := st = 2 ∨ st = 3
    s.wf = true ∧ open' ∧ y.resend = [] ∧ y.nak = false ∧ y.ask = none ∧ y.owe = false ∧ y.slot % 32 ≠ 0 ∧ y.queue[v] = c :: r' ∧ y.mayLeave v = true ∧
        (∀ w : Fin 4, w < v → y.mayLeave w = false) ∧ s.portUpDue p = true ∧ s.parentPort = some p ∧ s.slo.joining = none ∧
        s.sloAdmitted = true ∧ s.get TB_CTRL.slew_src = 2 := by decide +kernel

theorem witness_SlouloLinks_5 : slouloLinksAt 2 3 [] false 32 0 0 fun s p _ c _ r' _ =>
    let y := s.slo.port[p]
    let st := s.get (SLO_PORT_STAT.state p)
    let open' : Prop := st = 2 ∨ st = 3
    s.wf = true ∧ open' ∧ y.resend = [] ∧ y.nak = false ∧ y.ask = none ∧ y.owe = false ∧ y.slot % 32 = 0 ∧ y.queue[(3 : Fin 4)] = c :: r' ∧ y.mayLeave 3 = true ∧ ((match c.body with | .reserved _ => true | _ => false) = true) := by decide +kernel

theorem witness_SlouloLinks_6 : slouloLinksAt 1 0 [] false 1 0 0 fun s p _ _ _ _ _ =>
    let st := s.get (SLO_PORT_STAT.state p)
    s.wf = true ∧ st = 1 := by decide +kernel

/-- States at which `Obligations.SlouloFabric` has its hypotheses met. -/
@[reducible] def slouloFabricAt (root : Nat) (adm : Nat) (e : Nat) (br : Nat) (dep : Nat) (ns : Nat) (alw : Nat) (P : State → Fin 4 → Fin 4 → Fin 64 → RouteTable → Bool → Prop) : Prop :=
  let s0 := mem someMem base
  let s0 := { s0 with asyEdges := [] }
  let k := (0 : Fin 4)
  let src := (1 : Fin 4)
  let jn := none
  let hello := 0
  let meas := 0
  let sl := 2
  let nd := (9 : Fin 64)
  let s := (((s0.set SLO_STAT.root root).set SLO_STAT.admitted adm).set SLO_CTRL.en e).set SLO_CTRL.backup_root br
  let s := ((s.set SLO_STAT.node_id 7).set TB_CTRL.slew_src sl).set SLO_STAT.align (hello % 4)
  let s := (((s.set (SLO_MIR.src_node k) 9).set (SLO_MIR.src_dom k) src).set (SLO_MIR.en k) (dep % 2)).set (SLO_MIR_STAT.subscribed k) 1
  let s := ((s.set (SLO_ROUTE.valid 9) 1).set (SLO_ROUTE.pri_port 9) src).set (SLO_PORT_STAT.state src) 2 |>.set (SLO_PUB_ALLOW.allow src) alw
  let s := if ns = 15 then ((s.set (SLO_MIR.src_node (if k = 1 then 2 else 1)) 9).set (SLO_MIR.src_dom (if k = 1 then 2 else 1)) src).set (SLO_MIR.en
    (if k = 1 then 2 else 1)) 1 |>.set (SLO_MIR_STAT.subscribed src) 1 else s
  let s := { s with slo := { s.slo with helloTally := if hello = 0 then 0 else 99, measTally := meas, joining := jn, tree := #v[true, false, true, true], ofs := if sl = 2 then -77 else 5, rootId := 2, subs := Vector.replicate 4 ((List.range ns).map fun i => (Fin.ofNat 64 (i + 1), BitVec.ofNat 6 i)) } }
  let s := if hello = 0 then { s with tb := { s.tb with gtb := 8000 * 1000 + 5 } } else s
  let s := (s.set (TLR_CH_STAT.state 20) 1).set (TLR_CH_CTL.en 20) 1 |>.wr (TLR_CH_PEND 20) (if alw = 1 then 0x4000 else 0)
  let rt : RouteTable := ⟨5, 11, (List.range 64).map (fun i => BitVec.ofNat 32 (0x80000000 + i)), dep, #v[some 2, none, none, some 9], #v[true, true,
    false, false], 2, true⟩
  P s k src nd rt (alw = 1)

theorem witness_SlouloFabric_1 : slouloFabricAt 0 0 1 0 3 0 1 fun s k src node x _ =>
    let root := s.flag SLO_STAT.root
    let admitted := s.flag SLO_STAT.admitted
    let en := s.flag SLO_CTRL.en
    let subs := (s.slo.subs[src]).filter fun y => y.1 != node
    let alone : Bool := s.shared k (fun _ => true) = none
    s.wf = true ∧ root = false ∧ en = true ∧ x.depth < 16 ∧ admitted = false ∧ s.rootLostDue = false ∧ s.holdDue = false ∧ (admitted = false ∨ root =
        true) ∧ alone ∧ s.flag (SLO_PUB_ALLOW.allow src) = true ∧ subs.length < 16 ∧ subs.length < 32 := by decide +kernel

theorem witness_SlouloFabric_2 : slouloFabricAt 0 1 1 1 3 16 0 fun s k src node x acts =>
    let root := s.flag SLO_STAT.root
    let admitted := s.flag SLO_STAT.admitted
    let subs := (s.slo.subs[src]).filter fun y => y.1 != node
    let alone : Bool := s.shared k (fun _ => true) = none
    s.wf = true ∧ admitted = true ∧ x.depth < 16 ∧ s.rootLostDue = true ∧ (acts = false ∨ s.flag SLO_CTRL.backup_root = false) ∧ s.flag
        SLO_CTRL.backup_root = true ∧ s.holdDue = true ∧ root = false ∧ alone ∧ (s.mirSource k).1 ≠ s.nodeId ∧ s.routePort (s.mirSource k).1 = some
        src ∧ s.portOpen src = true ∧ (s.flag (SLO_PUB_ALLOW.allow src) = false ∨ 16 ≤ subs.length) := by decide +kernel

theorem witness_SlouloFabric_3 : slouloFabricAt 1 1 1 0 3 15 1 fun s k src _ _ _ =>
    let root := s.flag SLO_STAT.root
    let admitted := s.flag SLO_STAT.admitted
    let en := s.flag SLO_CTRL.en
    s.wf = true ∧ root = true ∧ en = true ∧ admitted = true ∧ (s.shared k (fun _ => true) = some src) ∧ s.flag (SLO_MIR.en k) = true ∧ s.flag
        (SLO_MIR_STAT.subscribed src) = true := by decide +kernel

theorem witness_SlouloFabric_4 : slouloFabricAt 0 0 0 0 0 15 1 fun s k _ _ _ _ =>
    let en := s.flag SLO_CTRL.en
    let alone : Bool := s.shared k (fun _ => true) = none
    s.wf = true ∧ en = false ∧ (¬ alone) ∧ s.flag (SLO_MIR.en k) = false := by decide +kernel

/-- States at which `Obligations.BulkMailbox` has its hypotheses met. -/
@[reducible] def bulkMailboxAt (te : Nat) (ne : Nat) (b : Nat) (wt : Nat) (ca : Nat) (qlᵢ : Nat) (P : State → LineEcc → Fin 64 → List Byte → (Option (Fin 512)) → Time → List BusReq → Bool → Prop) : Prop :=
  let s0 := mem someMem base
  let s0 := { s0 with asyEdges := [] }
  let pos := 0
  let lap := (true : Bool)
  let ec := (⟨0,0⟩ : LineEcc)
  let po := (false : Bool)
  let ld := 0
  let data := [(1 : Byte), 2, 3]
  let post := none
  let s := (((s0.set SLO_BTX_CTRL.en te).set SLO_BTX_SIZE.entries ne).set SLO_BTX_BASE.line b).set SLO_BTX_CONS.addr ca
  let s := (((s.set SLO_BRX_CTRL.en te).set SLO_BRX_SIZE.entries ne).set SLO_BRX_BASE.line b).set ASY_SEC_STAT.loading ld |>.wr (ASY_MBOX_DATA 1)
    0x1000000
  let s := { s with slo := { s.slo with btxPos := pos, btxLap := lap, brxPos := pos, brxLap := lap, consumed := 5, written := if wt = 5 then 5 else 4, writeTally := wt } }
  let s := if po then psn (4 * (b + pos) + 1) s else s
  let vp := 0
  let gr := (false : Bool)
  let ql := if qlᵢ = 0 then ([BusReq.entry ((List.range 22).map (fun j => data.getD j 0) ++ [0, 0] ++ leBytes 6 0x123456789ABC ++ [63]) post,
    BusReq.read 0 8 0 [] [] 0 .nowhere] : List BusReq) else ([] : List BusReq)
  let s := { s with vlt := { s.vlt with pos := vp, granted := gr, slo := ql } }
  let pooled := match s.winner [] with | some (_, p, _) => p | none => true
  P s ec 63 data post 0x123456789ABC (ql.drop 1) pooled

theorem witness_BulkMailbox_1 : bulkMailboxAt 0 5 0 0 8 0 fun s _ node data post time l pooled =>
    let tx := s.flag SLO_BTX_CTRL.en = true ∧ s.get SLO_BTX_SIZE.entries ≠ 0
    let rx := s.flag SLO_BRX_CTRL.en = true ∧ s.get SLO_BRX_SIZE.entries ≠ 0
    let slot := s.vlt.granted = false ∧ s.winner [] = some (6, pooled, 0)
    let open' : Prop := s.flag ASY_SEC_STAT.loading = false
    let entry : List Byte := (List.range 22).map (fun j => data.getD j 0) ++ [0, 0] ++ leBytes 6 time.toNat ++ [BitVec.ofNat 8 node]
    s.wf = true ∧ (¬ tx ∨ s.vlt.granted = true ∨ s.vlt.slo ≠ [] ∨ s.consumerDue = true) ∧ (s.consumerDue = false ∨ s.vlt.granted = true ∨ s.vlt.slo ≠ [])
        ∧ (¬ rx) ∧ slot ∧ s.vlt.slo = .entry entry post :: l ∧ open' := by decide +kernel

theorem witness_BulkMailbox_2 : bulkMailboxAt 1 1 0 0 8 1 fun s _ _ _ _ _ _ pooled =>
    let rx := s.flag SLO_BRX_CTRL.en = true ∧ s.get SLO_BRX_SIZE.entries ≠ 0
    let slot := s.vlt.granted = false ∧ s.winner [] = some (6, pooled, 0)
    let open' : Prop := s.flag ASY_SEC_STAT.loading = false
    s.wf = true ∧ slot ∧ s.vlt.slo = [] ∧ s.consumerDue = true ∧ open' ∧ rx := by decide +kernel

theorem witness_BulkMailbox_3 : bulkMailboxAt 1 1 2 100 8 1 fun s e _ _ _ _ _ pooled =>
    let x := s.slo
    let tx := s.flag SLO_BTX_CTRL.en = true ∧ s.get SLO_BTX_SIZE.entries ≠ 0
    let a := (32 * s.get SLO_BTX_BASE.line + 32 * x.btxPos) % 0x1000000
    let slot := s.vlt.granted = false ∧ s.winner [] = some (6, pooled, 0)
    let clean : Prop := e = ⟨0, 0⟩ ∧ (∀ j < 4, s.vlt.poisoned (a / 8 + j) = false)
    let lap : Bool := (s.vlt.byte (a + 31)).getLsbD 7
    s.wf = true ∧ slot ∧ tx ∧ s.vlt.slo = [] ∧ s.consumerDue = false ∧ clean ∧ lap = x.btxLap := by decide +kernel

theorem witness_BulkMailbox_4 : bulkMailboxAt 1 1 0x7FFFF 5 0x1FFFFF 1 fun s e _ _ _ _ _ pooled =>
    let x := s.slo
    let tx := s.flag SLO_BTX_CTRL.en = true ∧ s.get SLO_BTX_SIZE.entries ≠ 0
    let a := (32 * s.get SLO_BTX_BASE.line + 32 * x.btxPos) % 0x1000000
    let slot := s.vlt.granted = false ∧ s.winner [] = some (6, pooled, 0)
    let clean : Prop := e = ⟨0, 0⟩ ∧ (∀ j < 4, s.vlt.poisoned (a / 8 + j) = false)
    let lap : Bool := (s.vlt.byte (a + 31)).getLsbD 7
    s.wf = true ∧ slot ∧ tx ∧ s.vlt.slo = [] ∧ s.consumerDue = false ∧ clean ∧ lap ≠ x.btxLap := by decide +kernel

/-! ### Witnesses: host interfaces, Assayer, boot -/

/-- A helper of the states below. -/
def otpPut (l : List (Nat × Byte)) (s : State) : State := { s with asy := { s.asy with otp := l.foldl (fun m x => Sparse.put zeroByte m x.1 x.2) s.asy.otp } }

/-- A helper of the states below. -/
def le (n v : Nat) : List Byte := leBytes n v

/-- A helper of the states below. -/
def image (type flags sver addr : Nat) (pay key : List Byte) (sig tag : Byte) (bad : Nat) : List Byte :=
  le 4 0x4941474A ++ [BitVec.ofNat 8 type, BitVec.ofNat 8 flags] ++ le 2 1 ++ le 4 pay.length ++ le 4 sver ++ le 4 addr ++ List.replicate 12 5 ++ (tag :: List.replicate 15 3) ++ List.replicate 16 (BitVec.ofNat 8 bad) ++ (sig :: List.replicate 63 9) ++ pay ++ key

/-- A helper of the states below. -/
def recs (kind first : Nat) (items : List Nat) : List Byte := [BitVec.ofNat 8 kind, 0] ++ le 2 items.length ++ le 2 first ++ [0, 0] ++ (items.map fun v => le (if kind = 0 then 16 else 4) v).flatten

/-- A helper of the states below. -/
def at' (a : Nat) (l : List Byte) (s : State) : State := { s with vlt := s.vlt.putMasked a (l.map some) }

/-- States at which `Obligations.HostInterfaces` has its hypotheses met. -/
@[reducible] def hostInterfacesAt1 (hs : Nat) (rdy : Nat) (dl : Nat) (ln : Byte) (addr : Word) (sp : BitVec 3) (wd : BitVec 3) (P : State → Word → Byte → List Byte → BitVec 3 → BitVec 3 → Prop) : Prop :=
  let s0 := mem someMem base
  let s0 := { s0 with asyEdges := [] }
  let perst := (false : Bool)
  let q := ([] : List (Word × List Byte))
  let lev := 0
  let perm := 0
  let e := (false : Bool)
  let s := ((((s0.set GBL_STRAP.hostsel hs).set GBL_HOST.ready rdy).set GBL_HOST.dl_up dl).set ASY_DBG.level lev).set ASY_STAT.ready 1
  let s := if perm = 1 then otpPut [(0xE0, 8)] s else s
  let s := { s with dbk := base.dbk, host := { s.host with qspi := q, err := e, pcie := { s.host.pcie with perst := perst, mem := true } }, resetLow := sp = 2 }
  let s := { s with host := { s.host with qspiOut := wd = 4 ∨ wd = 1 }, vlt := { s.vlt with host := if wd = 4 then [.write 0x100 [some 3] []] else [] } }
  let bytes := leBytes 4 0x89ABCDEF
  P s addr ln bytes sp wd

theorem witness_HostInterfaces_1 : hostInterfacesAt1 1 1 1 3 0x10 3 4 fun s addr len bytes speed width =>
    let q := s.get GBL_STRAP.hostsel = 1
    let p := s.get GBL_STRAP.hostsel = 0
    let usable := s.flag GBL_HOST.ready
    let n := len.toNat + 1
    let a := addr.toNat
    let room : Bool := decide <| n ≤ bytes.length ∧ (s.host.qspi.map fun x => x.2.length).sum + n ≤ 512
    let aside : Bool := decide <| a + n ≤ 0x1E0000 ∨ 0x1E2000 ≤ a
    let level := s.jtagLevel
    let up : Bool := decide <| p ∧ s.host.pcie.perst = false ∧ s.resetLow = false ∧ 1 ≤ speed.toNat ∧ speed.toNat ≤ 3 ∧ (width = 1 ∨ width = 2 ∨ width =
        4)
    s.wf = true ∧ q ∧ usable = true ∧ s.host.qspi = [] ∧ len = 3 ∧ a < 0x1000000 ∧ a % 4 = 0 ∧ aside ∧ room ∧ ((a + n ≤ 0x1000000 ∧ aside ∧ a % 4 = 0 ∧ n
        % 4 = 0) ∨ (0x10000000 ≤ a ∧ a + n ≤ 0x12000000)) ∧ (usable = false ∨ s.host.qspi = []) ∧ s.host.qspiOut = true ∧ s.vlt.host ≠ [] ∧ (¬ p) ∧ (¬
        up) ∧ (¬ p ∨ s.host.pcie.perst = true) ∧ level = 0 := by decide +kernel

theorem witness_HostInterfaces_2 : hostInterfacesAt1 0 0 0 3 0x10 1 1 fun s _ _ _ _ _ =>
    let p := s.get GBL_STRAP.hostsel = 0
    let usable := s.flag GBL_HOST.ready
    s.wf = true ∧ p ∧ s.host.pcie.perst = false ∧ usable = false := by decide +kernel

theorem witness_HostInterfaces_3 : hostInterfacesAt1 1 1 1 3 0x1E0000 1 1 fun s addr len _ _ _ =>
    let q := s.get GBL_STRAP.hostsel = 1
    let usable := s.flag GBL_HOST.ready
    let n := len.toNat + 1
    let a := addr.toNat
    let aside : Bool := decide <| a + n ≤ 0x1E0000 ∨ 0x1E2000 ≤ a
    s.wf = true ∧ q ∧ (windowOf a n = none ∨ usable = false ∨ (a < 0x1000000 ∧ ¬ ((n = 4 ∨ n = 8) ∧ a % n = 0 ∧ aside))) := by decide +kernel

theorem witness_HostInterfaces_4 : hostInterfacesAt1 1 1 1 7 0x140018 1 1 fun s addr len _ _ _ =>
    let q := s.get GBL_STRAP.hostsel = 1
    let usable := s.flag GBL_HOST.ready
    let n := len.toNat + 1
    let a := addr.toNat
    let aside : Bool := decide <| a + n ≤ 0x1E0000 ∨ 0x1E2000 ≤ a
    s.wf = true ∧ q ∧ usable = true ∧ s.host.qspi = [] ∧ len = 7 ∧ a < 0x1000000 ∧ a % 8 = 0 ∧ aside := by decide +kernel

theorem witness_HostInterfaces_5 : hostInterfacesAt1 1 1 1 255 0x10000000 1 1 fun s addr len _ _ _ =>
    let q := s.get GBL_STRAP.hostsel = 1
    let usable := s.flag GBL_HOST.ready
    let n := len.toNat + 1
    let a := addr.toNat
    s.wf = true ∧ q ∧ usable = true ∧ s.host.qspi = [] ∧ 0x10000000 ≤ a ∧ a + n ≤ 0x11000000 := by decide +kernel

theorem witness_HostInterfaces_6 : hostInterfacesAt1 1 1 1 31 0x20000100 1 1 fun s addr len _ _ _ =>
    let q := s.get GBL_STRAP.hostsel = 1
    let usable := s.flag GBL_HOST.ready
    let n := len.toNat + 1
    let a := addr.toNat
    s.wf = true ∧ q ∧ usable = true ∧ s.host.qspi = [] ∧ 0x20000000 ≤ a ∧ a + n ≤ 0x30000000 ∧ s.get DBK_WIN.base * 2 ^ 20 + (a - 0x20000000) + n ≤
        0x38000000 := by decide +kernel

/-- States at which `Obligations.HostInterfaces` has its hypotheses met. -/
@[reducible] def hostInterfacesAt2 (hs : Nat) (ln : Byte) (q : List (Word × List Byte)) (lev : Nat) (e : Bool) (sp : BitVec 3) (wd : BitVec 3) (P : State → Word → Byte → List Byte → List Word → Word → (List (Word × List Byte)) → BitVec 3 → BitVec 3 → Prop) : Prop :=
  let s0 := mem someMem base
  let s0 := { s0 with asyEdges := [] }
  let rdy := 1
  let perst := (false : Bool)
  let dl := 1
  let perm := 0
  let s := ((((s0.set GBL_STRAP.hostsel hs).set GBL_HOST.ready rdy).set GBL_HOST.dl_up dl).set ASY_DBG.level lev).set ASY_STAT.ready 1
  let s := if perm = 1 then otpPut [(0xE0, 8)] s else s
  let s := { s with dbk := base.dbk, host := { s.host with qspi := q, err := e, pcie := { s.host.pcie with perst := perst, mem := true } }, resetLow := sp = 2 }
  let s := { s with host := { s.host with qspiOut := wd = 4 ∨ wd = 1 }, vlt := { s.vlt with host := if wd = 4 then [.write 0x100 [some 3] []] else [] } }
  let qa := (q.head?.map (·.1)).getD 0
  let ws : List Word := if q.length = 1 then [0x77, 0x12345678] else [0x12345678]
  let by' := (q.head?.map (·.2)).getD []
  P s qa ln by' ws 0x12345678 (q.drop 1) sp wd

theorem witness_HostInterfaces_7 : hostInterfacesAt2 0 3 [(0x10, leBytes 4 0x12345678), (5, [1])] 1 true 1 1 fun s addr _ bytes _ _ l speed width =>
    let q := s.get GBL_STRAP.hostsel = 1
    let p := s.get GBL_STRAP.hostsel = 0
    let usable := s.flag GBL_HOST.ready
    let level := s.jtagLevel
    let up : Bool := decide <| p ∧ s.host.pcie.perst = false ∧ s.resetLow = false ∧ 1 ≤ speed.toNat ∧ speed.toNat ≤ 3 ∧ (width = 1 ∨ width = 2 ∨ width =
        4)
    let config : Bool := decide <| p ∧ s.host.pcie.perst = false ∧ usable = true
    s.wf = true ∧ (¬ q) ∧ usable = true ∧ s.host.qspiOut = true ∧ s.host.qspi = (addr, bytes) :: l ∧ s.vlt.host = [] ∧ p ∧ up ∧ config ∧ level ≠ 0 := by decide +kernel

theorem witness_HostInterfaces_8 : hostInterfacesAt2 1 7 [(0x10, leBytes 4 0x12345678), (5, [1])] 0 false 4 2 fun s addr len bytes ws v l _ _ =>
    let q := s.get GBL_STRAP.hostsel = 1
    let usable := s.flag GBL_HOST.ready
    let n := len.toNat + 1
    let a := addr.toNat
    let room : Bool := decide <| n ≤ bytes.length ∧ (s.host.qspi.map fun x => x.2.length).sum + n ≤ 512
    let aside : Bool := decide <| a + n ≤ 0x1E0000 ∨ 0x1E2000 ≤ a
    s.wf = true ∧ q ∧ usable = true ∧ windowOf a n ≠ none ∧ (a < 0x1000000 → (n = 4 ∨ n = 8) ∧ a % n = 0 ∧ aside) ∧ s.host.qspi ≠ [] ∧ (¬ room ∨ windowOf
        a n = none ∨ 0x20000000 ≤ a ∨ (a < 0x1000000 ∧ ¬ (aside ∧ a % 4 = 0 ∧ n % 4 = 0))) ∧ s.host.qspiOut = false ∧ s.host.qspi = (addr, leBytes 4
        v.toNat) :: l ∧ a + 4 ≤ 0x1000000 ∧ (s.host.qspi = (addr, ws.flatMap fun w => leBytes 4 w.toNat) :: l) ∧ a + 4 * ws.length ≤ 0x1000000 := by decide +kernel

theorem witness_HostInterfaces_9 : hostInterfacesAt2 0 3 [(0x10000040, [1, 2, 3])] 0 false 4 2 fun s addr _ bytes _ _ l _ _ =>
    let usable := s.flag GBL_HOST.ready
    let a := addr.toNat
    s.wf = true ∧ usable = true ∧ s.host.qspiOut = false ∧ s.host.qspi = (addr, bytes) :: l ∧ bytes ≠ [] ∧ 0x10000000 ≤ a ∧ a + bytes.length ≤ 0x11000000 := by decide +kernel

/-- States at which `Obligations.MailboxCommands` has its hypotheses met. -/
@[reducible] def mailboxCommandsAt (op : Nat) (len : Nat) (resᵢ : Nat) (a0 : Word) (a1 : Word) (a2 : Word) (lgᵢ : Nat) (qn : Nat) (P : State → MboxCmd → Nat → List Word → Prop) : Prop :=
  let s0 := mem someMem base
  let s0 := { s0 with asyEdges := [] }
  let led (k : Nat) : LedgerEntry := ⟨BitVec.ofNat 32 k, 3, 2, ⟨1, 5, 7, 0x1234, 99⟩⟩
  let rom := 0
  let rdy := 1
  let res := if resᵢ = 0 then (none : Option (Nat × List Word)) else (some (0, []) : Option (Nat × List Word))
  let lg := if lgᵢ = 0 then [(5, led 4)] else [(5, led 4), (6, led 5), (7, led 2)]
  let s := ((s0.set ASY_STAT.ready rdy).set ASY_STAT.rom_mode rom).wr (ASY_MBOX_DATA 0) a0
  let s := (s.wr (ASY_MBOX_DATA 1) a1).wr (ASY_MBOX_DATA 2) a2
  let c : MboxCmd := ⟨BitVec.ofNat 8 op, 0x5A, len⟩
  let s := { s with asy := { s.asy with cmd := some c, result := res, ledger := lg, queue := List.replicate qn (led 9) }, vlt := { s.vlt with asy := if a0 = 5 ∧ qn = 64 then [.read 0 32 0 [] [] 0 .jtag] else [] } }
  let r := res.getD (0, [])
  P s c r.1 r.2

theorem witness_MailboxCommands_1 : mailboxCommandsAt 0x01 0 0 0xFFFFFFFF 1 0x40 0 0 fun s c _ _ =>
    let codes : List Nat := [0x01, 0x02, 0x03, 0x10, 0x11, 0x12, 0x13, 0x14, 0x15, 0x20, 0x21, 0x22, 0x30, 0x31]
    s.wf = true ∧ Running 0x01 0 s ∧ s.asy.cmd = some c ∧ c.op.toNat ∈ codes ∧ (s.asy.cmd = none ∨ s.asy.result = none ∨ s.asyReady = false) := by
  simp only [mailboxCommandsAt, running_iff]
  decide +kernel

theorem witness_MailboxCommands_2 : mailboxCommandsAt 0x01 0 1 0xFFFFFFFF 1 0x40 0 0 fun s c st ws => s.wf = true ∧ s.asy.cmd = some c ∧ s.asy.result
    = some (st, ws) ∧ s.asyReady = true ∧ s.vlt.asy = [] ∧ st < 256 ∧ ws.length ≤ 64 := by decide +kernel

theorem witness_MailboxCommands_3 : mailboxCommandsAt 0x01 0 1 5 256 0xFFE000 1 64 fun s c st ws => s.wf = true ∧ s.asy.cmd = some c ∧ s.asy.result =
    some (st, ws) ∧ s.asyReady = true ∧ s.vlt.asy ≠ [] := by decide +kernel

theorem witness_MailboxCommands_4 : mailboxCommandsAt 0x02 3 0 0xFFFFFFFF 1 0x40 0 0 fun s _ _ _ =>
    let count := (s.arg 1).toNat
    let a := (s.arg 2).toNat
    let bad := count < 1 ∨ 256 < count ∨ a % 32 ≠ 0 ∨ 0x1000000 < a + 32 * count
    s.wf = true ∧ Running 0x02 3 s ∧ (¬ bad) := by
  simp only [mailboxCommandsAt, running_iff]
  decide +kernel

theorem witness_MailboxCommands_5 : mailboxCommandsAt 0x11 0 0 0xFFFFFFFF 1 0x40 0 0 fun s _ _ _ => s.wf = true ∧ Running 0x11 0 s := by
  simp only [mailboxCommandsAt, running_iff]
  decide +kernel

theorem witness_MailboxCommands_6 : mailboxCommandsAt 0x03 3 0 0xFFFFFFFF 1 0x40 0 0 fun s _ _ _ => s.wf = true ∧ Running 0x03 3 s ∧
    s.asy.queue.length < 64 := by
  simp only [mailboxCommandsAt, running_iff]
  decide +kernel

theorem witness_MailboxCommands_7 : mailboxCommandsAt 0x02 3 0 5 257 0x40 0 0 fun s _ _ _ =>
    let count := (s.arg 1).toNat
    let a := (s.arg 2).toNat
    let bad := count < 1 ∨ 256 < count ∨ a % 32 ≠ 0 ∨ 0x1000000 < a + 32 * count
    s.wf = true ∧ Running 0x02 3 s ∧ bad := by
  simp only [mailboxCommandsAt, running_iff]
  decide +kernel

theorem witness_MailboxCommands_8 : mailboxCommandsAt 0x00 0 0 0xFFFFFFFF 1 0x40 0 0 fun s c _ _ =>
    let codes : List Nat := [0x01, 0x02, 0x03, 0x10, 0x11, 0x12, 0x13, 0x14, 0x15, 0x20, 0x21, 0x22, 0x30, 0x31]
    let free : Bool := s.asy.result = none ∧ s.asyReady = true
    s.wf = true ∧ s.asy.cmd = some c ∧ free ∧ c.op.toNat ∉ codes := by decide +kernel

/-- States at which `Obligations.SecurityCommands` has its hypotheses met. -/
@[reducible] def securityCommandsAt1 (op : Nat) (ln : Nat) (a0 : Word) (a1 : Word) (a2 : Word) (cfgᵢ : Nat) (cf1ᵢ : Nat) (ch : Option (BitVec 256)) (P : State → List Byte → BitVec 256 → Prop) : Prop :=
  let s0 := mem someMem base
  let s0 := { s0 with asyEdges := [] }
  let kh : List (Nat × Byte) := (List.range 32).map fun k => (0x40 + k, (0x41 : Byte))
  let cfg := if cfgᵢ = 0 then (0 : Byte) else (4 : Byte)
  let cf1 := if cf1ᵢ = 0 then (0 : Byte) else (1 : Byte)
  let sg := (0 : Word)
  let s := ((s0.set ASY_STAT.ready 1).set ASY_STAT.rom_mode 0).wr (ASY_MBOX_DATA 0) a0
  let s := ((s.wr (ASY_MBOX_DATA 1) a1).wr (ASY_MBOX_DATA 2) (if op = 0x31 then sg else a2))
  let s := otpPut ((if cfg = 4 then kh else []) ++ [(0xE0, cfg), (0xE1, cf1), (0xC0, 7), (0xD8, 0x1F)]) s
  let c : MboxCmd := ⟨BitVec.ofNat 8 op, 0x5A, ln⟩
  let s := { s with asy := { s.asy with cmd := some c, challenge := ch } }
  P { s with asy := { s.asy with fetch := some (List.replicate 32 7) } } (List.replicate 32 7) (ch.getD 0)

theorem witness_SecurityCommands_1 : securityCommandsAt1 0x20 3 0 0 0x40 0 0 none fun s bs _ =>
    let slot := (s.arg 0).toNat
    let kind := (s.arg 1).toNat
    let a := (s.arg 2).toNat
    let key := keyAt kind slot
    let holds (op : Nat) : Bool := decide <| (s.cmdBytes op = none ∧ bs = []) ∨ (s.cmdBytes op ≠ none ∧ s.asy.fetch = some bs)
    let badKey := 1 < slot ∨ 1 < kind ∨ 0x1000000 < a + 32
    let fullKey := s.otpBit 8 = true ∨ (s.otpBytes key 32).any (fun b => b != 0) = true
    s.wf = true ∧ Sparse.wf zeroByte s.asy.otp = true ∧ Running 0x20 3 s ∧ holds 0x20 ∧ (¬ badKey) ∧ (¬ fullKey) ∧ bs.length = 32 := by
  simp only [securityCommandsAt1, running_iff]
  decide +kernel

theorem witness_SecurityCommands_2 : securityCommandsAt1 0x20 3 0 0 0x40 0 1 none fun s bs _ =>
    let slot := (s.arg 0).toNat
    let kind := (s.arg 1).toNat
    let a := (s.arg 2).toNat
    let key := keyAt kind slot
    let holds (op : Nat) : Bool := decide <| (s.cmdBytes op = none ∧ bs = []) ∨ (s.cmdBytes op ≠ none ∧ s.asy.fetch = some bs)
    let badKey := 1 < slot ∨ 1 < kind ∨ 0x1000000 < a + 32
    let fullKey := s.otpBit 8 = true ∨ (s.otpBytes key 32).any (fun b => b != 0) = true
    s.wf = true ∧ Sparse.wf zeroByte s.asy.otp = true ∧ Running 0x20 3 s ∧ holds 0x20 ∧ (¬ badKey) ∧ fullKey := by
  simp only [securityCommandsAt1, running_iff]
  decide +kernel

theorem witness_SecurityCommands_3 : securityCommandsAt1 0x21 1 0 0 0x40 0 0 none fun s _ _ =>
    let w := s.arg 0
    s.wf = true ∧ Sparse.wf zeroByte s.asy.otp = true ∧ Running 0x21 1 s ∧ w &&& 0xFFFFFE00 = 0 ∧ (s.otpBit 8 = false ∨ w &&& 0xFFFFFF07 = 0) := by
  simp only [securityCommandsAt1, running_iff]
  decide +kernel

theorem witness_SecurityCommands_4 : securityCommandsAt1 0x20 3 2 0 0 0 0 none fun s bs _ =>
    let slot := (s.arg 0).toNat
    let kind := (s.arg 1).toNat
    let a := (s.arg 2).toNat
    let holds (op : Nat) : Bool := decide <| (s.cmdBytes op = none ∧ bs = []) ∨ (s.cmdBytes op ≠ none ∧ s.asy.fetch = some bs)
    let badKey := 1 < slot ∨ 1 < kind ∨ 0x1000000 < a + 32
    s.wf = true ∧ Sparse.wf zeroByte s.asy.otp = true ∧ Running 0x20 3 s ∧ holds 0x20 ∧ badKey := by
  simp only [securityCommandsAt1, running_iff]
  decide +kernel

theorem witness_SecurityCommands_5 : securityCommandsAt1 0x22 2 0 0 0x40 0 0 none fun s _ _ =>
    let slot := (s.arg 0).toNat
    let kind := (s.arg 1).toNat
    let badCnt := 3 < slot ∨ kind < s.counter slot ∨ 64 < kind
    s.wf = true ∧ Sparse.wf zeroByte s.asy.otp = true ∧ Running 0x22 2 s ∧ badCnt := by
  simp only [securityCommandsAt1, running_iff]
  decide +kernel

theorem witness_SecurityCommands_6 : securityCommandsAt1 0x21 1 1 1 0xFFFFE0 0 1 none fun s _ _ =>
    let w := s.arg 0
    s.wf = true ∧ Sparse.wf zeroByte s.asy.otp = true ∧ Running 0x21 1 s ∧ w &&& 0xFFFFFE00 = 0 ∧ s.otpBit 8 = true ∧ w &&& 0xFFFFFF07 ≠ 0 := by
  simp only [securityCommandsAt1, running_iff]
  decide +kernel

theorem witness_SecurityCommands_7 : securityCommandsAt1 0x22 2 1 1 0xFFFFE0 0 0 none fun s _ _ =>
    let slot := (s.arg 0).toNat
    let kind := (s.arg 1).toNat
    let badCnt := 3 < slot ∨ kind < s.counter slot ∨ 64 < kind
    s.wf = true ∧ Sparse.wf zeroByte s.asy.otp = true ∧ Running 0x22 2 s ∧ (¬ badCnt) := by
  simp only [securityCommandsAt1, running_iff]
  decide +kernel

theorem witness_SecurityCommands_8 : securityCommandsAt1 0x30 0 0 0 0x40 0 0 none fun s _ _ =>
    let opens := s.otpBit 2 = true ∧ s.otpBit 3 = false
    s.wf = true ∧ Sparse.wf zeroByte s.asy.otp = true ∧ Running 0x30 0 s ∧ (¬ opens) := by
  simp only [securityCommandsAt1, running_iff]
  decide +kernel

theorem witness_SecurityCommands_9 : securityCommandsAt1 0x30 0 0 0 0x40 1 0 none fun s _ _ =>
    let opens := s.otpBit 2 = true ∧ s.otpBit 3 = false
    s.wf = true ∧ Sparse.wf zeroByte s.asy.otp = true ∧ Running 0x30 0 s ∧ opens := by
  simp only [securityCommandsAt1, running_iff]
  decide +kernel

theorem witness_SecurityCommands_10 : securityCommandsAt1 0x31 18 0 0 0x40 0 0 none fun s _ _ =>
    let opens := s.otpBit 2 = true ∧ s.otpBit 3 = false
    s.wf = true ∧ Sparse.wf zeroByte s.asy.otp = true ∧ Running 0x31 18 s ∧ (s.asy.challenge = none ∨ ¬ opens) := by
  simp only [securityCommandsAt1, running_iff]
  decide +kernel

theorem witness_SecurityCommands_11 : securityCommandsAt1 0x31 18 0 0 0x40 1 0 (some 0x123456789ABCDEF) fun s _ xc =>
    let opens := s.otpBit 2 = true ∧ s.otpBit 3 = false
    s.wf = true ∧ Sparse.wf zeroByte s.asy.otp = true ∧ Running 0x31 18 s ∧ s.asy.challenge = some xc ∧ opens := by
  simp only [securityCommandsAt1, running_iff]
  decide +kernel

theorem witness_SecurityCommands_12 : securityCommandsAt1 0x21 1 0x200 0 0 0 0 none fun s _ _ =>
    let w := s.arg 0
    s.wf = true ∧ Sparse.wf zeroByte s.asy.otp = true ∧ Running 0x21 1 s ∧ w &&& 0xFFFFFE00 ≠ 0 := by
  simp only [securityCommandsAt1, running_iff]
  decide +kernel

/-- States at which `Obligations.SecurityCommands` has its hypotheses met. -/
@[reducible] def securityCommandsAt2 (op : Nat) (ty : Nat) (rom : Nat) (P : State → MboxCmd → Prop) : Prop :=
  let s0 := mem someMem base
  let s0 := { s0 with asyEdges := [] }
  let key : List Byte := List.replicate 64 0x41
  let kh : List (Nat × Byte) := (List.range 32).map fun k => (0x40 + k, (0x41 : Byte))
  let ak : List (Nat × Byte) := (List.range 32).map fun k => (0x80 + k, (0x42 : Byte))
  let fl := 0
  let sv := 0
  let sig := (0 : Byte)
  let tag := (0 : Byte)
  let bad := 0
  let addr := 0
  let pay := recs 0 0x600 [5, 6] ++ recs 1 0x1800 [7] ++ recs 2 0xE0 [0x80001800, 0x80000005]
  let lk := 0
  let run := 0
  let cnt := 0
  let so := (false : Bool)
  let img := image ty fl sv addr pay (if ty = 3 ∨ ty = 4 then key else []) sig tag bad
  let s := at' 0x1000 img s0
  let s := (((s.set ASY_STAT.ready 1).set ASY_STAT.rom_mode rom).set MNT_CTRL.lock lk).set TLR_CTRL.run run
  let s := (s.wr (ASY_MBOX_DATA 0) 0x1000).wr (ASY_MBOX_DATA 1) (BitVec.ofNat 32 (if lk = 1 ∧ sv = 65 then 3 else img.length))
  let s := otpPut (kh ++ ak ++ (if so then [(0xE0, 2)] else []) ++ (List.range 4).map (fun c => (0xC0 + 8 * c, BitVec.ofNat 8 (2 ^ cnt - 1)))) s
  let c : MboxCmd := ⟨BitVec.ofNat 8 op, 0x5A, 2⟩
  let s := { s with asy := { s.asy with cmd := some c, fetch := if lk = 1 ∧ cnt = 3 ∧ fl = 0 then none else some img } }
  P s c

theorem witness_SecurityCommands_13 : securityCommandsAt2 0x10 1 0 fun s _ => s.wf = true ∧ Sparse.wf zeroByte s.asy.otp = true ∧ Running 0x10 2 s := by
  simp only [securityCommandsAt2, running_iff]
  decide +kernel

theorem witness_SecurityCommands_14 : securityCommandsAt2 0x12 2 0 fun s _ => s.wf = true ∧ Sparse.wf zeroByte s.asy.otp = true ∧ Running 0x12 2 s := by
  simp only [securityCommandsAt2, running_iff]
  decide +kernel

theorem witness_SecurityCommands_15 : securityCommandsAt2 0x13 3 0 fun s _ => s.wf = true ∧ Sparse.wf zeroByte s.asy.otp = true ∧ Running 0x13 2 s := by
  simp only [securityCommandsAt2, running_iff]
  decide +kernel

theorem witness_SecurityCommands_16 : securityCommandsAt2 0x14 4 0 fun s _ => s.wf = true ∧ Sparse.wf zeroByte s.asy.otp = true ∧ Running 0x14 2 s := by
  simp only [securityCommandsAt2, running_iff]
  decide +kernel

theorem witness_SecurityCommands_17 : securityCommandsAt2 0x15 1 0 fun s _ => s.wf = true ∧ Sparse.wf zeroByte s.asy.otp = true ∧ Running 0x15 2 s := by
  simp only [securityCommandsAt2, running_iff]
  decide +kernel

theorem witness_SecurityCommands_18 : securityCommandsAt2 0x15 1 1 fun s c => s.wf = true ∧ Sparse.wf zeroByte s.asy.otp = true ∧ s.asy.cmd = some c ∧
    c.op = 0x15 ∧ 2 ≤ c.len ∧ s.asy.result = none ∧ s.asyReady = true ∧ s.flag ASY_STAT.rom_mode = true := by decide +kernel

/-- States at which `Obligations.LedgerAndSensors` has its hypotheses met. -/
@[reducible] def ledgerAndSensorsAt (qn : Nat) (pl : Nat) (lo : Nat) (ne : Nat) (P : State → LedgerEntry → List LedgerEntry → AsyEdge → List AsyEdge → Prop) : Prop :=
  let s0 := mem someMem base
  let s0 := { s0 with asyEdges := [] }
  let led (k : Nat) : LedgerEntry := ⟨BitVec.ofNat 32 k, 3, 2, ⟨1, 5, 7, 0x1234, 99⟩⟩
  let rdy := 1
  let hot := true
  let e (k : Nat) : AsyEdge := ⟨1, BitVec.ofNat 16 k, 7, 0x1234, 99⟩
  let s := (s0.set ASY_STAT.ready rdy).set DBK_GSTAT.throttle (qn % 3)
  let s := { s with asyEdges := (List.range ne).map e, asy := { s.asy with queue := (List.range qn).map led, place := pl, lost := lo, hot := Vector.replicate 18 hot, ledger := (List.range 300).map (fun k => (k, led (k + 7))) ++ [(4223, led 3)], cmd := if hot then some ⟨1, 2, 3⟩ else none } }
  P s (led 0) ((List.range qn).map led |>.drop 1) (e 0) ((List.range ne).map e |>.drop 1)

theorem witness_LedgerAndSensors_1 : ledgerAndSensorsAt 1 0 0 0 fun s x l _ _ =>
    let a := s.asy
    let p := a.place
    s.wf = true ∧ s.asyReady = true ∧ a.queue = x :: l ∧ a.lost = 0 ∧ p < 4224 ∧ (s.asyReady = false ∨ s.asyEdges = []) := by decide +kernel

theorem witness_LedgerAndSensors_2 : ledgerAndSensorsAt 0 0 0 1 fun s _ _ e r =>
    let a := s.asy
    s.wf = true ∧ (s.asyReady = false ∨ a.queue = []) ∧ s.asyReady = true ∧ s.asyEdges = e :: r ∧ a.queue.length < 64 := by decide +kernel

theorem witness_LedgerAndSensors_3 : ledgerAndSensorsAt 64 5 3 1 fun s x l e r =>
    let a := s.asy
    s.wf = true ∧ s.asyReady = true ∧ a.queue = x :: l ∧ a.lost ≠ 0 ∧ l.length < 64 ∧ s.asyEdges = e :: r ∧ 64 ≤ a.queue.length := by decide +kernel

/-- States at which `Obligations.ResetAndBoot` has its hypotheses met. -/
@[reducible] def resetAndBootAt (rl : Bool) (bs : Nat) (sl : Vector (Option FwSlot) 2) (fw : Nat) (pst : Nat) (P : State → FwSlot → FwSlot → Prop) : Prop :=
  let s0 := mem someMem base
  let s0 := { s0 with asyEdges := [] }
  let led (k : Nat) : LedgerEntry := ⟨BitVec.ofNat 32 k, 3, 2, ⟨1, 5, 7, 0x1234, 99⟩⟩
  let rdy := 0
  let hr := 1
  let uc := 0
  let db := 0
  let s := ((((s0.set ASY_STAT.ready rdy).set GBL_HOST.ready hr).set GBL_STRAP.boot_src bs).set FLT_BOOT.fw fw).set FLT_BOOT.ucode uc
  let s := (s.set FLT_BOOT.daybook db).set PWR_STAT.state pst
  let s := otpPut [(0xC0, 1)] s
  let s := { s with resetLow := rl, asy := { s.asy with slots := sl, ledger := [(3, led 4)] }, fct := vmod s.fct 7 fun f => { f with ext := some true, queue := [⟨1,2,false,3,false,none,true⟩] } }
  P s ((sl[0]).getD ⟨0,0,false,0⟩) ((sl[1]).getD ⟨0,0,false,0⟩)

theorem witness_ResetAndBoot_1 : resetAndBootAt false 1 (#v[none, none]) 0 0 fun s _ _ =>
    let a := s.asy
    let fw := s.flag FLT_BOOT.fw
    let ready := s.flag ASY_STAT.ready
    let boots := ready = false ∧ s.resetLow = false ∧ s.flag GBL_HOST.ready = true
    s.wf = true ∧ s.resetLow = false ∧ boots ∧ s.flag GBL_STRAP.boot_src = true ∧ a.slots[0] = none ∧ a.slots[1] = none ∧ (fw = false ∨ s.flag
        FLT_BOOT.ucode = true) ∧ (fw = false ∨ s.flag FLT_BOOT.daybook = true) := by decide +kernel

theorem witness_ResetAndBoot_2 : resetAndBootAt true 0 (#v[some ⟨5, 1, false, 77⟩, some ⟨3, 2, true, 88⟩]) 1 6 fun s _ _ =>
    let fw := s.flag FLT_BOOT.fw
    let ready := s.flag ASY_STAT.ready
    let boots := ready = false ∧ s.resetLow = false ∧ s.flag GBL_HOST.ready = true
    s.wf = true ∧ s.resetLow = true ∧ (¬ boots) ∧ fw = true ∧ s.flag FLT_BOOT.ucode = false ∧ s.flag FLT_BOOT.daybook = false := by decide +kernel

theorem witness_ResetAndBoot_3 : resetAndBootAt false 0 (#v[some ⟨5, 1, false, 77⟩, some ⟨3, 2, true, 88⟩]) 0 0 fun s x y =>
    let a := s.asy
    let ready := s.flag ASY_STAT.ready
    let boots := ready = false ∧ s.resetLow = false ∧ s.flag GBL_HOST.ready = true
    let valid (z : FwSlot) : Prop := s.counter 0 ≤ z.sver ∧ z.sver ≤ 64
    s.wf = true ∧ boots ∧ s.flag GBL_STRAP.boot_src = false ∧ a.slots[0] = some x ∧ a.slots[1] = some y ∧ valid x ∧ valid y ∧ y.sver < x.sver := by decide +kernel

/-! ### One step, with values the spec gives or that follow from it by hand -/

/-- The command answers a next state that passes `p`. -/
def givesB (r : Host.Outcome State Fault Refusal) (p : State → Bool) : Bool := match r with | .next t => p t | _ => false

/-- The routine on engine 2 after the instruction. -/
def topB (p : Routine → Bool) (t : State) : Bool := match t.routine 2 with | some r => p r | none => false

theorem test_add_wraps : givesB (exec (.add 2 5 1 2) (on 2 (rv 0xFFFFFFFFFFFFFFFF 1) base)) (topB fun r => r.v[5] == 0 && r.flags == 0x5) = true := by
  decide +kernel
theorem test_sub_borrows : givesB (exec (.sub 2 1 1 2) (on 2 (rv 0 1) base)) (topB fun r => r.v[1] == 0xFFFFFFFFFFFFFFFF && r.flags == 0x6) = true := by
  decide +kernel
theorem test_shift_by_64_is_by_0 : givesB (exec (.shl 2 5 1 2) (on 2 (rv 3 64) base)) (topB fun r => r.v[5] == 3) = true := by decide +kernel
theorem test_sar_keeps_sign : givesB (exec (.sari 2 5 1 1) (on 2 (rv 0xFFFFFFFFFFFFFFF8 0) base)) (topB fun r => r.v[5] == 0xFFFFFFFFFFFFFFFC) = true := by
  decide +kernel
theorem test_mulsh_signs : givesB (exec (.mulsh 2 5 1 2) (on 2 (rv 0xFFFFFFFFFFFFFFFF 0xFFFFFFFFFFFFFFFF) base)) (topB fun r => r.v[5] == 0) = true := by
  decide +kernel
theorem test_mulhu_unsigned :
    givesB (exec (.mulhu 2 5 1 2) (on 2 (rv 0xFFFFFFFFFFFFFFFF 0xFFFFFFFFFFFFFFFF) base)) (topB fun r => r.v[5] == 0xFFFFFFFFFFFFFFFE) = true := by
  decide +kernel
theorem test_divide_by_zero : givesB (exec (.divu 2 5 1 2) (on 2 (rv 7 0) base)) (topB fun r => r.v[5] == 0xFFFFFFFFFFFFFFFF && r.flags.getLsbD 3) = true := by
  decide +kernel
theorem test_addi_extends_sign : givesB (exec (.addi 2 5 1 0xFFFF) (on 2 (rv 7 0) base)) (topB fun r => r.v[5] == 6) = true := by decide +kernel
theorem test_andi_extends_zero : givesB (exec (.andi 2 5 1 0xFFFF) (on 2 (rv 0xFFFFFFFFFFFFFFFF 0) base)) (topB fun r => r.v[5] == 0xFFFF) = true := by
  decide +kernel
theorem test_movk_lane : givesB (exec (.movk 2 1 2 0xABCD) (on 2 (rv 0x1111222233334444 0) base)) (topB fun r => r.v[1] == 0x1111ABCD33334444) = true := by
  decide +kernel
theorem test_store_is_staged : givesB (exec (.stw 2 2 1 0) (on 2 (rv 0x40 0x1234) base)) (fun t =>
    topB (fun r => r.stage == [.store 0x40 [0x34, 0x12, 0, 0]]) t && t.vlt.byte 0x40 == 0) = true := by decide +kernel

/-- spec/02 Example 1: a Deep Park interval of 327,680 AON cycles after GTB 10,000,000,000. -/
theorem test_resume_time : resumeTime 0x2540BE400 327680 = 90000000000 := by decide
/-- spec/07 Example 2: the legacy time that wraps. -/
theorem test_legacy_time_wraps : legacyTime 34359600000 132704 = 34360800000 := by decide
/-- spec/11 Example 2: raw code 20,000 with gain 4,244,279 and offset 603. -/
theorem test_correction : correct 20000 false 4244279 603 = (20276, false) := by decide
/-- spec/10 Example 1: the positions 498 and 499 are pooled, 500–502 are engine slots. -/
theorem test_slot_owners : slotOwner 498 = 7 ∧ slotOwner 499 = 7 ∧ slotOwner 500 = 0 ∧ slotOwner 502 = 0 ∧ slotOwner 505 = 0 := by decide

/-- The facet of spec/03 Example 1 at GTB `g`, its queue given. -/
def examplePad (g : Nat) (q : List Armed) : State :=
  fm 40 (fun f => { f with queue := q }) ((base.set (FCT_CTRL.mode 40) 2).modTb fun b => { b with gtb := BitVec.ofNat 64 g })
def fire (t : Nat) (act : BitVec 2) (u : Bool) : Armed := ⟨BitVec.ofNat 64 t, act, false, 0, false, none, u⟩

/-- spec/03 Example 1, cycle c + 1: C is late and acts, D moves up. -/
theorem test_compare_late : givesB (exec (.facetCompareMatch 40) (examplePad 800008 [fire 800007 1 true, fire 800020 2 true])) (fun t =>
    (t.fct[(40 : Fin 256)]).out && t.flag (FCT_STAT.late 40) && (t.fct[(40 : Fin 256)]).queue.length == 1) = true := by decide +kernel
/-- spec/03 Example 1, cycle c + 2: D matches on time. -/
theorem test_compare_on_time : givesB (exec (.facetCompareMatch 40) (fm 40 (fun f => { f with out := true }) (examplePad 800016 [fire 800020 2 true])))
    (fun t => !(t.fct[(40 : Fin 256)]).out && !t.flag (FCT_STAT.late 40) && (t.fct[(40 : Fin 256)]).queue.isEmpty) = true := by decide +kernel
/-- spec/03 Example 2, cycle t: X lies ahead across the wrap of the compare field, Y is late. -/
theorem test_compare_wraps : (examplePad 0xFFFFFFFFF8 []).actsNow (fire 0x10000000004 1 true) = false ∧
    (examplePad 0xFFFFFFFFF8 []).actsNow (fire 0xFFFFFFFFF0 2 true) = true ∧ (examplePad 0x10000000000 []).actsNow (fire 0x10000000004 1 true) = true := by
  decide +kernel

theorem test_scratch_reads_back : givesB (exec (.registerWrite GBL_SCRATCH 0x12345678) State.reset) (fun t => t.rd GBL_SCRATCH == 0x12345678) = true := by
  decide +kernel
theorem test_read_only_ignored : givesB (exec (.registerWrite GBL_ID 0x12345678) State.reset) (fun t => t.rd GBL_ID == resetWord GBL_ID) = true := by
  decide +kernel
theorem test_step_takes_front : givesB (step { State.reset with pending := [.registerWrite GBL_SCRATCH 7, .abort] }) (fun t =>
    t.rd GBL_SCRATCH == 7 && t.pending == [.abort]) = true := by decide +kernel
theorem test_counter_value : givesB (exec (.counterValueWrite 3 77) State.reset) (fun t => t.rd (CNT_VAL 3) == 77) = true := by decide +kernel
theorem test_host_cause : givesB (exec (.hostCause 5) (base.set (TLR_CH_CTL.en 5) 1)) (fun t => t.flag (bitFld (TLR_CH_PEND 5) 17)) = true := by
  decide +kernel
theorem test_qspi_status_in_reset_state : givesB (exec .qspiStatus State.reset) (fun t => t.out.length == 0) = true := by decide +kernel

/-! ### Witnesses: the queue, and what every step keeps -/

theorem witness_CanonicalKept : State.reset.wf = true ∧ givesB (step { State.reset with pending := [.registerWrite GBL_SCRATCH 7] }) (fun t => t.wf) = true := by
  decide +kernel
theorem witness_MemoryFrame : (match Instr.facetFlush 255 with | .commitVaultWrite _ => False | _ => True) ∧
    givesB (exec (.facetFlush 255) (mem someMem base)) (fun t => t.vlt.byte 3 == 24) = true := by decide +kernel
theorem witness_MailboxCommands_busy : mailboxCommandsAt 0x10 1 1 0xFFFFFFFF 1 0x40 0 0 fun s c _ _ =>
    s.wf = true ∧ s.asy.cmd = some c ∧ c.op.toNat = 0x10 ∧ c.op.toNat ≠ 0x12 ∧ ¬ (s.asy.result = none ∧ s.asyReady = true) := by decide +kernel
theorem witness_MailboxCommands_short : mailboxCommandsAt 0x10 1 0 0xFFFFFFFF 1 0x40 0 0 fun s c _ _ =>
    s.wf = true ∧ s.asy.cmd = some c ∧ c.op.toNat = 0x10 ∧ (s.asy.result = none ∧ s.asyReady = true) ∧ s.flag ASY_STAT.rom_mode = false ∧ c.len < 2 := by
  decide +kernel
theorem witness_MailboxCommands_rom : mailboxCommandsAt 0x10 1 0 0xFFFFFFFF 1 0x40 0 0 fun s c _ _ =>
    let s := s.set ASY_STAT.rom_mode 1
    s.wf = true ∧ s.asy.cmd = some c ∧ c.op.toNat = 0x10 ∧ (s.asy.result = none ∧ s.asyReady = true) ∧ s.flag ASY_STAT.rom_mode = true ∧
    0x10 ∉ [0x01, 0x02, 0x15] := by decide +kernel

end Sys2Proof.Tests
end

section
/-!
PROOF. What a register write leaves of each bit of its word (R10, R11): the bit of `accessWrite` as a formula over the word's access codes.
-/
namespace Sys2Proof.Machine
open Sys2Proof

/-- Taking away a mask that lies within another clears its bits and no other: nothing is borrowed. -/
theorem testBit_sub_of_submask {a b : Nat} (h : ∀ j, b.testBit j = true → a.testBit j = true) (i : Nat) :
    (a - b).testBit i = (a.testBit i && !b.testBit i) := by
  have hab : a ||| b = a := Nat.eq_of_testBit_eq fun j => by
    rw [Nat.testBit_or]
    exact Bool.or_eq_left_iff_imp.mpr (h j)
  have key := testBit_or_sub i a b
  rwa [hab] at key

/-- A written value passes unchanged into a word with no reserved encoding (R9). -/
theorem cleanWrite_of_no_reserved {r : RegWord} (h : r.bad = []) (v : Word) : cleanWrite r v = v := by
  rw [cleanWrite, h, List.foldl_nil]

/-- The bits that a write replaces: the RW bits, less the RWL ones under a set lock. -/
theorem testBit_writable {r : RegWord} (h : ∀ j, r.rwl.testBit j = true → r.rw.testBit j = true) (lk : Bool) (k : Nat) :
    (if lk then r.rw - r.rwl else r.rw).testBit k = (r.rw.testBit k && !(lk && r.rwl.testBit k)) := by
  cases lk with
  | false => simp
  | true => simp [testBit_sub_of_submask h]

/-- One bit of the word a write leaves: replaced or kept by the RW codes, set by W1S, and cleared by W1C unless set in this cycle. -/
theorem getLsbD_accessWrite {r : RegWord} (hbad : r.bad = []) (hrwl : ∀ j, r.rwl.testBit j = true → r.rw.testBit j = true)
    (lk : Bool) (new old v : Word) {k : Nat} (hk : k < 32) :
    (accessWrite r lk new old v).getLsbD k =
      (((if r.rw.testBit k && !(lk && r.rwl.testBit k) then v.getLsbD k else old.getLsbD k) || (v.getLsbD k && r.w1s.testBit k)) &&
        !(v.getLsbD k && r.w1c.testBit k && !new.getLsbD k)) := by
  simp only [accessWrite, cleanWrite_of_no_reserved hbad, BitVec.getLsbD_and, BitVec.getLsbD_or, BitVec.getLsbD_not, BitVec.getLsbD_ofNat,
    testBit_writable hrwl, hk, decide_true, Bool.true_and]
  cases r.rw.testBit k && !(lk && r.rwl.testBit k) <;> simp

/-- Settles O15: the bit's formula, read for each access code; no bit has two, so the other terms of the formula drop out. -/
theorem accessCodes : Obligations.AccessCodes := by
  intro r lk new old v k hk hbad
  dsimp only
  intro _ hw1c hw1s hsub
  rw [getLsbD_accessWrite hbad hsub lk new old v hk]
  by_cases c : r.w1c.testBit k = true
  · obtain ⟨norw, nos⟩ := hw1c c
    simp [norw, nos, c]
  · by_cases s : r.w1s.testBit k = true
    · simp [hw1s s, c, s]
    · simp [c, s]

end Sys2Proof.Machine
end

section
/-!
PROOF. GBL_GO, GBL_HALT and GBL_GO_AT (R56–R58): what the pass over the 32 counters does to the words of one of them, and what it leaves of
every other word.
-/
namespace Sys2Proof.Machine
open Sys2Proof

/-! ### Words kept -/

/-- From `s` to `t` the register words at the offsets of `K`, their canonical form and the Vault are kept. -/
def WordsKept (K : Nat → Prop) (s t : State) : Prop :=
  s.regsWf = true → t.regsWf = true ∧ t.vlt = s.vlt ∧ ∀ off, K off → t.rd off = s.rd off

section
variable {K L : Nat → Prop} {s t u : State}

theorem WordsKept.refl (K : Nat → Prop) (s : State) : WordsKept K s s := fun h => ⟨h, rfl, fun _ _ => rfl⟩

theorem WordsKept.trans (a : WordsKept K s t) (b : WordsKept K t u) : WordsKept K s u := by
  intro h
  obtain ⟨ht, hvt, hrt⟩ := a h
  obtain ⟨hu, hvu, hru⟩ := b ht
  exact ⟨hu, hvu.trans hvt, fun off k => (hru off k).trans (hrt off k)⟩

theorem WordsKept.mono (a : WordsKept K s t) (hL : ∀ off, L off → K off) : WordsKept L s t := by
  intro h
  obtain ⟨ht, hv, hr⟩ := a h
  exact ⟨ht, hv, fun off k => hr off (hL off k)⟩

theorem WordsKept.flag (a : WordsKept K s t) (h : s.regsWf = true) (g : Fld) (hg : K g.off) : t.flag g = s.flag g := by
  obtain ⟨-, -, hr⟩ := a h
  rw [State.flag, State.flag, State.get, State.get, hr _ hg]

theorem wordsKept_wr (s : State) (off : Nat) (w : Word) (hK : ¬ K off) : WordsKept K s (s.wr off w) :=
  fun h => ⟨State.regsWf_wr s off w h, rfl, fun _ k => State.rd_wr_ne s w h fun e => hK (e ▸ k)⟩

theorem wordsKept_raise (s : State) (f : Fld) (hK : ¬ K f.off) : WordsKept K s (s.raise f) := wordsKept_wr s f.off _ hK

theorem wordsKept_clear (s : State) (f : Fld) (hK : ¬ K f.off) : WordsKept K s (s.clear f) := wordsKept_wr s f.off _ hK

/-- What every step of a pass keeps, the pass keeps. -/
theorem wordsKept_forAll {n : Nat} {f : Fin n → State → State} (hf : ∀ i t, WordsKept K t (f i t)) (s : State) :
    WordsKept K s (forAll n f s) :=
  forAll_keeps (WordsKept K s) f s (.refl K s) fun i t a => a.trans (hf i t)

theorem WordsKept.foldl_of_notMem {n : Nat} {f : Fin n → State → State} {i : Fin n} (hf : ∀ j t, j ≠ i → WordsKept K t (f j t))
    (l : List (Fin n)) (hl : i ∉ l) (s : State) : WordsKept K s (l.foldl (fun t j => f j t) s) := by
  induction l generalizing s with
  | nil => exact .refl K s
  | cons j r ih =>
    rw [List.mem_cons, not_or] at hl
    obtain ⟨hj, hr⟩ := hl
    exact (hf j s (Ne.symm hj)).trans (ih hr (f j s))

/-- A pass reaches the words that all its steps but step `i` keep in step `i` alone, which finds them as they were at the start. -/
theorem forAll_at {n : Nat} {f : Fin n → State → State} (i : Fin n) (hf : ∀ j t, j ≠ i → WordsKept K t (f j t)) (s : State) :
    ∃ t, WordsKept K s t ∧ WordsKept K (f i t) (forAll n f s) := by
  obtain ⟨l, r, e⟩ := List.append_of_mem (List.mem_finRange i)
  have nd := List.nodup_finRange n
  rw [e, List.nodup_append, List.nodup_cons] at nd
  obtain ⟨-, ⟨hr, -⟩, apart⟩ := nd
  have hl : i ∉ l := fun hi => apart i hi i List.mem_cons_self rfl
  rw [forAll, e, List.foldl_append, List.foldl_cons]
  exact ⟨_, .foldl_of_notMem hf l hl s, .foldl_of_notMem hf r hr _⟩

end

/-- A field reads 0 once cleared. -/
theorem State.flag_clear_same (s : State) (f : Fld) (h : s.regsWf = true) (hf : f.ok = true) : (s.clear f).flag f = false := by
  rw [State.flag, State.clear, State.get_set_same s f 0 h hf, Nat.zero_mod, bne_self_eq_false]

/-- Another field of the word reads as before once a bit is raised. -/
theorem State.flag_raise_other (s : State) (f g : Fld) (h : s.regsWf = true) (hf : f.ok = true) (hg : g.ok = true) (n : g.off = f.off)
    (d : g.hi < f.lo ∨ f.hi < g.lo) : (s.raise f).flag g = s.flag g := by
  rw [State.flag_raise, State.flag, State.flag, State.get_set_other s f g 1 h hf hg n d]

/-! ### The words of one counter -/

/-- The two words of counter `n` that a release or a halt can reach. -/
def CounterWord (n : Fin 32) (off : Nat) : Prop := off = CNT_CTRL n ∨ off = CNT_VAL n

theorem counterWord_ctrl (n : Fin 32) : CounterWord n (CNT_CTRL n) := .inl rfl
theorem counterWord_val (n : Fin 32) : CounterWord n (CNT_VAL n) := .inr rfl

theorem not_counterWord_of_ne {n j : Fin 32} (h : j ≠ n) {off : Nat} (hn : CounterWord n off) : ¬ CounterWord j off := by
  have hv : j.val ≠ n.val := fun e => h (Fin.ext e)
  unfold CounterWord CNT_CTRL CNT_VAL at *
  omega

theorem not_counterWord_goAtStat (n : Fin 32) : ¬ CounterWord n GBL_GO_AT_STAT := by
  unfold CounterWord CNT_CTRL CNT_VAL GBL_GO_AT_STAT
  omega

theorem cntCtrl_ne_of_ne {n j : Fin 32} (h : j ≠ n) : CNT_CTRL n ≠ CNT_CTRL j :=
  fun e => not_counterWord_of_ne h (counterWord_ctrl n) (.inl e)

theorem cntVal_ne_cntCtrl (n : Fin 32) : CNT_VAL n ≠ CNT_CTRL n := by
  unfold CNT_VAL CNT_CTRL
  omega

/-! ### One counter started (R45) -/

theorem wordsKept_startRun (n : Fin 32) (s : State) : WordsKept (· ≠ CNT_VAL n) s (startRun n s) := by
  rw [startRun]
  split
  · exact wordsKept_wr _ (CNT_VAL n) 0 (not_not_intro rfl)
  · exact .refl _ s

theorem flag_run_startRun (n : Fin 32) (s : State) (h : s.regsWf = true) :
    (startRun n s).flag (CNT_CTRL.run n) = s.flag (CNT_CTRL.run n) :=
  (wordsKept_startRun n s).flag h (CNT_CTRL.run n) (cntVal_ne_cntCtrl n).symm

theorem rd_val_startRun (n : Fin 32) (s : State) (h : s.regsWf = true) :
    (startRun n s).rd (CNT_VAL n) = if s.flag (CNT_CTRL.zero_on_go n) then 0 else s.rd (CNT_VAL n) := by
  rw [startRun, State.modCnt_flag]
  by_cases hz : s.flag (CNT_CTRL.zero_on_go n) = true
  · rw [if_pos hz, if_pos hz]
    exact State.rd_wr_same _ _ _ h
  · rw [if_neg hz, if_neg hz, State.modCnt_rd]

/-! ### GBL_GO (R56) -/

/-- The step of `goMask` at counter `n`: mask `m`, and `was` the counters halted in this cycle. -/
def goStep (m was : Word) (n : Fin 32) (s : State) : State :=
  if m.getLsbD n then (if was.getLsbD n then s.raise (CNT_CTRL.run n) else setRun n s) else s

theorem goMask_eq_forAll (m : Word) (s : State) : goMask m s = forAll 32 (goStep m s.haltNow) { s with goNow := s.goNow ||| m } := rfl

theorem wordsKept_goStep (m was : Word) (n : Fin 32) (s : State) : WordsKept (fun off => ¬ CounterWord n off) s (goStep m was n s) := by
  have raised : WordsKept (fun off => ¬ CounterWord n off) s (s.raise (CNT_CTRL.run n)) :=
    wordsKept_raise s _ (not_not_intro (counterWord_ctrl n))
  rw [goStep, setRun]
  split
  · split
    · exact raised
    · split
      · exact .refl _ s
      · exact raised.trans ((wordsKept_startRun n _).mono fun _ k e => k (.inr e))
  · exact .refl _ s

theorem flag_run_goStep (m was : Word) (n : Fin 32) (s : State) (h : s.regsWf = true) :
    (goStep m was n s).flag (CNT_CTRL.run n) = (m.getLsbD n || s.flag (CNT_CTRL.run n)) := by
  have raised : (s.raise (CNT_CTRL.run n)).flag (CNT_CTRL.run n) = true := State.flag_raise_same s _ h rfl rfl
  rw [goStep, setRun]
  split
  · next hm =>
    rw [hm, Bool.true_or]
    split
    · exact raised
    · split
      · assumption
      · rw [flag_run_startRun n _ (State.regsWf_raise s _ h), raised]
  · next hm => rw [eq_false_of_ne_true hm, Bool.false_or]

theorem rd_val_goStep (m was : Word) (n : Fin 32) (s : State) (h : s.regsWf = true) :
    (goStep m was n s).rd (CNT_VAL n) =
      if m.getLsbD n = true ∧ s.flag (CNT_CTRL.run n) = false ∧ was.getLsbD n = false ∧ s.flag (CNT_CTRL.zero_on_go n) = true then 0
      else s.rd (CNT_VAL n) := by
  have raised : (s.raise (CNT_CTRL.run n)).rd (CNT_VAL n) = s.rd (CNT_VAL n) := State.rd_raise_ne s _ _ h (cntVal_ne_cntCtrl n)
  have zeroOnGo : (s.raise (CNT_CTRL.run n)).flag (CNT_CTRL.zero_on_go n) = s.flag (CNT_CTRL.zero_on_go n) :=
    State.flag_raise_other s _ _ h rfl rfl rfl (.inr (Nat.zero_lt_succ 4))
  rw [goStep, setRun]
  split
  · next hm =>
    split
    · next hw => rw [raised, if_neg fun ⟨_, _, a, _⟩ => Bool.eq_false_iff.1 a hw]
    · next hw =>
      split
      · next hr => rw [if_neg fun ⟨_, a, _⟩ => Bool.eq_false_iff.1 a hr]
      · next hr =>
        rw [rd_val_startRun n _ (State.regsWf_raise s _ h), zeroOnGo, raised]
        simp only [hm, eq_false_of_ne_true hw, eq_false_of_ne_true hr, true_and]
  · next hm => rw [if_neg fun ⟨a, _⟩ => hm a]

/-- From `s` to `t` the counters of mask `m` were released and no other (R56). -/
structure Released (m : Word) (s t : State) : Prop where
  run : ∀ n : Fin 32, t.flag (CNT_CTRL.run n) = (m.getLsbD n || s.flag (CNT_CTRL.run n))
  count : ∀ n : Fin 32, t.rd (CNT_VAL n) =
    if m.getLsbD n = true ∧ s.flag (CNT_CTRL.run n) = false ∧ s.haltNow.getLsbD n = false ∧ s.flag (CNT_CTRL.zero_on_go n) = true then 0
    else s.rd (CNT_VAL n)
  vault : t.vlt = s.vlt

/-- The same as the statement says it. -/
theorem Released.clauses {m : Word} {s t : State} (a : Released m s t) :
    (∀ n : Fin 32, t.flag (CNT_CTRL.run n) = (m.getLsbD n || s.flag (CNT_CTRL.run n))) ∧
    (∀ n : Fin 32,
      (m.getLsbD n = true → s.flag (CNT_CTRL.run n) = false → s.haltNow.getLsbD n = false → s.flag (CNT_CTRL.zero_on_go n) = true →
        t.rd (CNT_VAL n) = 0) ∧
      (m.getLsbD n = false ∨ s.flag (CNT_CTRL.run n) = true ∨ s.haltNow.getLsbD n = true ∨ s.flag (CNT_CTRL.zero_on_go n) = false →
        t.rd (CNT_VAL n) = s.rd (CNT_VAL n))) ∧
    VaultKept s t := by
  refine ⟨a.run, fun n => ⟨fun hm hr hw hz => ?_, fun hn => ?_⟩, fun x => congrArg (·.byte x) a.vault⟩
  · rw [a.count, if_pos ⟨hm, hr, hw, hz⟩]
  · rw [a.count, if_neg]
    rintro ⟨hm, hr, hw, hz⟩
    simp only [hm, hr, hw, hz, Bool.true_eq_false, Bool.false_eq_true, or_self] at hn

/-- A pass of `goMask` reaches no word but those of the counters. -/
theorem wordsKept_goMask (m : Word) (s : State) : WordsKept (fun off => ∀ n, ¬ CounterWord n off) s (goMask m s) := by
  rw [goMask_eq_forAll]
  exact wordsKept_forAll (fun n t => (wordsKept_goStep m s.haltNow n t).mono fun _ k => k n) { s with goNow := s.goNow ||| m }

/-- In a pass of `goMask` the words of counter `n` are reached by the counter's own step alone. -/
theorem goMask_at (m : Word) (s : State) (n : Fin 32) :
    ∃ t, WordsKept (CounterWord n) s t ∧ WordsKept (CounterWord n) (goStep m s.haltNow n t) (goMask m s) := by
  rw [goMask_eq_forAll]
  exact forAll_at (s := { s with goNow := s.goNow ||| m }) n fun j t hj =>
    (wordsKept_goStep m s.haltNow j t).mono fun _ => not_counterWord_of_ne hj

theorem flag_run_goMask (m : Word) (s : State) (h : s.regsWf = true) (n : Fin 32) :
    (goMask m s).flag (CNT_CTRL.run n) = (m.getLsbD n || s.flag (CNT_CTRL.run n)) := by
  obtain ⟨t, before, later⟩ := goMask_at m s n
  obtain ⟨ht, -, -⟩ := before h
  obtain ⟨hg, -, -⟩ := wordsKept_goStep m s.haltNow n t ht
  rw [later.flag hg _ (counterWord_ctrl n), flag_run_goStep m _ n t ht, before.flag h _ (counterWord_ctrl n)]

theorem rd_val_goMask (m : Word) (s : State) (h : s.regsWf = true) (n : Fin 32) :
    (goMask m s).rd (CNT_VAL n) =
      if m.getLsbD n = true ∧ s.flag (CNT_CTRL.run n) = false ∧ s.haltNow.getLsbD n = false ∧ s.flag (CNT_CTRL.zero_on_go n) = true then 0
      else s.rd (CNT_VAL n) := by
  obtain ⟨t, before, later⟩ := goMask_at m s n
  obtain ⟨ht, -, rt⟩ := before h
  obtain ⟨hg, -, -⟩ := wordsKept_goStep m s.haltNow n t ht
  obtain ⟨-, -, rg⟩ := later hg
  rw [rg _ (counterWord_val n), rd_val_goStep m _ n t ht, rt _ (counterWord_val n), before.flag h (CNT_CTRL.run n) (counterWord_ctrl n),
    before.flag h (CNT_CTRL.zero_on_go n) (counterWord_ctrl n)]

theorem released_goMask (m : Word) (s : State) (h : s.regsWf = true) : Released m s (goMask m s) where
  run := flag_run_goMask m s h
  count := rd_val_goMask m s h
  vault := by
    obtain ⟨-, hv, -⟩ := wordsKept_goMask m s h
    exact hv

theorem startRun_goAt (n : Fin 32) (s : State) : (startRun n s).goAt = s.goAt := by
  rw [startRun]
  split
  · rw [State.wr_goAt, State.modCnt_goAt]
  · rw [State.modCnt_goAt]

theorem goStep_goAt (m was : Word) (n : Fin 32) (s : State) : (goStep m was n s).goAt = s.goAt := by
  rw [goStep, setRun]
  split
  · split
    · rw [State.raise_goAt]
    · split
      · rfl
      · rw [startRun_goAt, State.raise_goAt]
  · rfl

theorem goMask_goAt (m : Word) (s : State) : (goMask m s).goAt = s.goAt := by
  rw [goMask_eq_forAll]
  refine forAll_keeps (fun t => t.goAt = s.goAt) (goStep m s.haltNow) { s with goNow := s.goNow ||| m } rfl fun n t ht => ?_
  exact (goStep_goAt m s.haltNow n t).trans ht

/-- A release counts as one from `s` when what comes before it and after it keeps the counters' words. -/
theorem Released.of_kept {m : Word} {s s' t t' : State} (a : Released m s' t) (h : s.regsWf = true) (ht : t.regsWf = true)
    (before : WordsKept (fun off => ∃ n, CounterWord n off) s s') (hw : s'.haltNow = s.haltNow)
    (later : WordsKept (fun off => ∃ n, CounterWord n off) t t') : Released m s t' := by
  obtain ⟨-, hv, hr⟩ := before h
  obtain ⟨-, hv', hr'⟩ := later ht
  have ctrl (n : Fin 32) (g : Fld) (hg : g.off = CNT_CTRL n) : s'.flag g = s.flag g := before.flag h g ⟨n, .inl hg⟩
  constructor
  case run =>
    intro n
    rw [later.flag ht _ ⟨n, counterWord_ctrl n⟩, a.run, ctrl n _ rfl]
  case count =>
    intro n
    rw [hr' _ ⟨n, counterWord_val n⟩, a.count, hw, ctrl n _ rfl, ctrl n _ rfl, hr _ ⟨n, counterWord_val n⟩]
  case vault => exact hv'.trans (a.vault.trans hv)

/-! ### GBL_HALT (R56) -/

/-- The step of `haltMask` at counter `n`: mask `m`, and `go` the counters released in this cycle. -/
def haltStep (m go : Word) (n : Fin 32) (s : State) : State :=
  if m.getLsbD n && !go.getLsbD n && s.flag (CNT_CTRL.run n) then
    ({ s with haltNow := s.haltNow ||| BitVec.twoPow 32 n }).clear (CNT_CTRL.run n) else s

theorem haltMask_eq_forAll (m : Word) (s : State) : haltMask m s = forAll 32 (haltStep m s.goNow) s := rfl

theorem wordsKept_haltStep (m go : Word) (n : Fin 32) (s : State) : WordsKept (· ≠ CNT_CTRL n) s (haltStep m go n s) := by
  rw [haltStep]
  split
  · exact wordsKept_wr s (CNT_CTRL n) _ (not_not_intro rfl)
  · exact .refl _ s

theorem flag_run_haltStep (m go : Word) (n : Fin 32) (s : State) (h : s.regsWf = true) :
    (haltStep m go n s).flag (CNT_CTRL.run n) = (s.flag (CNT_CTRL.run n) && !(m.getLsbD n && !go.getLsbD n)) := by
  rw [haltStep]
  cases m.getLsbD n && !go.getLsbD n with
  | false => rw [Bool.false_and, if_neg Bool.false_ne_true, Bool.not_false, Bool.and_true]
  | true =>
    rw [Bool.true_and, Bool.not_true, Bool.and_false]
    split
    · exact State.flag_clear_same s _ h rfl
    · next hr => exact eq_false_of_ne_true hr

/-- A pass of `haltMask` reaches no word but the control words of the counters. -/
theorem wordsKept_haltMask (m : Word) (s : State) : WordsKept (fun off => ∀ n : Fin 32, off ≠ CNT_CTRL n) s (haltMask m s) := by
  rw [haltMask_eq_forAll]
  exact wordsKept_forAll (fun n t => (wordsKept_haltStep m s.goNow n t).mono fun _ k => k n) s

theorem flag_run_haltMask (m : Word) (s : State) (h : s.regsWf = true) (n : Fin 32) :
    (haltMask m s).flag (CNT_CTRL.run n) = (s.flag (CNT_CTRL.run n) && !(m.getLsbD n && !s.goNow.getLsbD n)) := by
  obtain ⟨t, before, later⟩ := forAll_at (K := (· = CNT_CTRL n)) (s := s) n fun j t hj =>
    (wordsKept_haltStep m s.goNow j t).mono fun _ k => k ▸ cntCtrl_ne_of_ne hj
  obtain ⟨ht, -, -⟩ := before h
  obtain ⟨hg, -, -⟩ := wordsKept_haltStep m s.goNow n t ht
  rw [haltMask_eq_forAll, later.flag hg _ rfl, flag_run_haltStep m _ n t ht, before.flag h _ rfl]

theorem rd_val_haltMask (m : Word) (s : State) (h : s.regsWf = true) (n : Fin 32) : (haltMask m s).rd (CNT_VAL n) = s.rd (CNT_VAL n) := by
  obtain ⟨-, -, hr⟩ := wordsKept_haltMask m s h
  refine hr _ fun j => ?_
  unfold CNT_VAL CNT_CTRL
  omega

theorem vaultKept_haltMask (m : Word) (s : State) (h : s.regsWf = true) : VaultKept s (haltMask m s) := by
  obtain ⟨-, hv, -⟩ := wordsKept_haltMask m s h
  exact fun a => congrArg (·.byte a) hv

/-! ### GBL_GO_AT (R57, R58) -/

/-- The state once the release has taken its request, `past` the release carried out last for another node. -/
def goAtTaken (past : Option (Fin 64 × Nat)) (s : State) : State :=
  ({ s with goAt := none, goDone := past }).clear GBL_GO_AT_STAT.pending

theorem wordsKept_goAtTaken (past : Option (Fin 64 × Nat)) (s : State) : WordsKept (· ≠ GBL_GO_AT_STAT) s (goAtTaken past s) :=
  wordsKept_clear { s with goAt := none, goDone := past } GBL_GO_AT_STAT.pending (not_not_intro rfl)

theorem flag_pending_goAtTaken (past : Option (Fin 64 × Nat)) (s : State) (h : s.regsWf = true) :
    (goAtTaken past s).flag GBL_GO_AT_STAT.pending = false :=
  State.flag_clear_same { s with goAt := none, goDone := past } _ h rfl

section
variable {s : State} {q : GoAtReq}

/-- A request at its boundary is taken, its mask released, and done set. -/
theorem goAtRelease_of_due (hq : s.goAt = some q) (hb : s.tb.boundary = true) (ht : q.tally ≤ s.tally) :
    ∃ past, goAtRelease s = (goMask q.mask (goAtTaken past s)).raise GBL_GO_AT_STAT.done' := by
  exists (match q.remote with | some o => some (o, q.tally) | none => s.goDone)
  rw [goAtRelease, hq]
  exact if_pos ⟨hb, ht⟩

theorem gives_goAtRelease (h : s.regsWf = true) (hq : s.goAt = some q) (hb : s.tb.boundary = true) (ht : q.tally ≤ s.tally) :
    Gives .goAtRelease s fun t =>
      Released q.mask s t ∧ t.goAt = none ∧ t.flag GBL_GO_AT_STAT.done' = true ∧ t.flag GBL_GO_AT_STAT.pending = false := by
  obtain ⟨past, e⟩ := goAtRelease_of_due hq hb ht
  have stat {off : Nat} : (∃ n, CounterWord n off) → off ≠ GBL_GO_AT_STAT := fun ⟨n, hn⟩ e => not_counterWord_goAtStat n (e ▸ hn)
  have taken := wordsKept_goAtTaken past s
  have pass := wordsKept_goMask q.mask (goAtTaken past s)
  obtain ⟨wfTaken, -, -⟩ := taken h
  obtain ⟨wfPass, -, -⟩ := pass wfTaken
  refine ⟨goAtRelease s, rfl, ?_⟩
  rw [e]
  refine ⟨?counters, ?request, State.flag_raise_same _ _ wfPass rfl rfl, ?pending⟩
  case counters =>
    exact (released_goMask q.mask _ wfTaken).of_kept h wfPass (taken.mono fun _ => stat) rfl (wordsKept_raise _ _ fun k => stat k rfl)
  case request => rw [State.raise_goAt, goMask_goAt, goAtTaken, State.clear_goAt]
  case pending =>
    rw [State.flag_raise_other _ GBL_GO_AT_STAT.done' GBL_GO_AT_STAT.pending wfPass rfl rfl rfl (by decide),
      pass.flag wfTaken _ not_counterWord_goAtStat, flag_pending_goAtTaken past s h]

theorem goAtArm_of_outstanding (h : s.goAt.isSome = true) : goAtArm s = s.raise GBL_GO_AT_STAT.busy := by
  obtain ⟨q, hq⟩ := Option.isSome_iff_exists.1 h
  rw [goAtArm, hq]

theorem goAtArm_of_late (h : s.goAt = none) (ht : (s.rd64 GBL_GO_AT_TALLY).toNat ≤ s.tally + 1) :
    goAtArm s = s.raise GBL_GO_AT_STAT.late := by
  rw [goAtArm, h]
  exact if_neg (by omega)

theorem goAtArm_of_local (h : s.goAt = none) (ht : s.tally + 2 ≤ (s.rd64 GBL_GO_AT_TALLY).toNat) (hf : s.flag GBL_GO_AT_CTRL.fabric = false) :
    goAtArm s = ({ s with goAt := some ⟨s.rd GBL_GO_AT_MASK, (s.rd64 GBL_GO_AT_TALLY).toNat, none, false⟩ }).raise GBL_GO_AT_STAT.pending := by
  rw [goAtArm, h]
  simp only [ht, hf, if_true, Bool.false_eq_true, if_false]

theorem goAtCancel_of_none (h : s.goAt = none) : goAtCancel s = s := by rw [goAtCancel, h]

theorem goAtCancel_of_local (hq : s.goAt = some q) (ht : s.tally < q.tally) (hf : q.fabric = false) :
    goAtCancel s = ({ s with goAt := none }).clear GBL_GO_AT_STAT.pending := by
  rw [goAtCancel, hq]
  simp only [ht, hf, if_true, Bool.false_and, Bool.false_eq_true, if_false]

theorem goAtCancel_of_past (hq : s.goAt = some q) (ht : q.tally ≤ s.tally) : goAtCancel s = s := by
  rw [goAtCancel, hq]
  exact if_neg (by omega)

variable {node : Fin 64} {tally : Dword}

theorem goatReceive_refused (ha : s.flag GBL_GO_AT_CTRL.accept_remote = false) :
    goatReceive node false tally s = sendNotice node .refused tally s := by
  rw [goatReceive, if_neg Bool.false_ne_true, if_pos ha]

theorem goatReceive_busy (ha : s.flag GBL_GO_AT_CTRL.accept_remote = true) (h : s.goAt.isSome = true) :
    goatReceive node false tally s = sendNotice node .busy tally (s.raise GBL_GO_AT_STAT.busy) := by
  rw [goatReceive, if_neg Bool.false_ne_true, if_neg fun e => Bool.false_ne_true (e.symm.trans ha), if_pos h]

theorem goatReceive_late (ha : s.flag GBL_GO_AT_CTRL.accept_remote = true) (h : s.goAt = none) (ht : tally.toNat ≤ s.tally + 1) :
    goatReceive node false tally s = sendNotice node .late tally (s.raise GBL_GO_AT_STAT.late) := by
  have idle : ¬ s.goAt.isSome = true := by simp only [h, Option.isSome_none, Bool.false_eq_true, not_false_eq_true]
  rw [goatReceive, if_neg Bool.false_ne_true, if_neg fun e => Bool.false_ne_true (e.symm.trans ha), if_neg idle, if_pos ht]

theorem goatReceive_arms (ha : s.flag GBL_GO_AT_CTRL.accept_remote = true) (h : s.goAt = none) (ht : s.tally + 2 ≤ tally.toNat) :
    goatReceive node false tally s =
      ({ s with goAt := some ⟨s.rd GBL_GO_AT_MASK, tally.toNat, some node, false⟩ }).raise GBL_GO_AT_STAT.pending := by
  have idle : ¬ s.goAt.isSome = true := by simp only [h, Option.isSome_none, Bool.false_eq_true, not_false_eq_true]
  rw [goatReceive, if_neg Bool.false_ne_true, if_neg fun e => Bool.false_ne_true (e.symm.trans ha), if_neg idle, if_neg (by omega)]

theorem goatReceive_cancel_of_done (hd : s.goDone = some (node, tally.toNat)) :
    goatReceive node true tally s = sendNotice node .cancelLate tally s := by
  rw [goatReceive, if_pos rfl, if_pos hd]

theorem goatReceive_cancel_of_none (hd : s.goDone ≠ some (node, tally.toNat)) (h : s.goAt = none) : goatReceive node true tally s = s := by
  rw [goatReceive, if_pos rfl, if_neg hd, h]

/-- A cancel of the outstanding request drops it before the node's boundary of T − 1, and is too late from then on. -/
theorem goatReceive_cancel_of_match (hd : s.goDone ≠ some (node, tally.toNat)) (hq : s.goAt = some q) (hr : q.remote = some node)
    (ht : q.tally = tally.toNat) : goatReceive node true tally s =
      if s.tally + 1 < tally.toNat then ({ s with goAt := none }).clear GBL_GO_AT_STAT.pending else sendNotice node .cancelLate tally s := by
  rw [goatReceive, if_pos rfl, if_neg hd, hq]
  exact if_pos ⟨hr, ht⟩

end

/-- Settles O21: a pass over the counters reaches the words of each counter in that counter's own step; the rest follows the branches of arm, cancel,
release and receive. -/
theorem goAndHalt : Obligations.GoAndHalt := by
  intro s m node tally wf
  have h : s.regsWf = true := State.regsWf_of_wf wf
  refine ⟨?go, ?halt, ?release, ?armBusy, ?armLate, ?armLocal, ?cancelNone, ?cancelLocal, ?cancelPast, ?remoteArms, ?remoteRefused, ?remoteBusy,
    ?remoteLate, ?remoteDone, ?remoteCancel, ?remoteNone, rfl, rfl, rfl, rfl⟩
  case go => exact ⟨_, rfl, (released_goMask m s h).clauses⟩
  case halt => exact ⟨_, rfl, flag_run_haltMask m s h, rd_val_haltMask m s h, vaultKept_haltMask m s h⟩
  case release =>
    intro q hq hb ht
    obtain ⟨t, e, released, rest⟩ := gives_goAtRelease h hq hb ht
    exact ⟨t, e, released.clauses, rest⟩
  case armBusy => exact fun hs => congrArg _ (goAtArm_of_outstanding hs)
  case armLate => exact fun hn ht => congrArg _ (goAtArm_of_late hn ht)
  case armLocal => exact fun hn ht hf => congrArg _ (goAtArm_of_local hn ht hf)
  case cancelNone => exact fun hn => congrArg _ (goAtCancel_of_none hn)
  case cancelLocal => exact fun q hq ht hf => congrArg _ (goAtCancel_of_local hq ht hf)
  case cancelPast => exact fun q hq ht => congrArg _ (goAtCancel_of_past hq ht)
  case remoteArms => exact fun ha hn ht => congrArg _ (goatReceive_arms ha hn ht)
  case remoteRefused => exact fun ha => congrArg _ (goatReceive_refused ha)
  case remoteBusy => exact fun ha hs => congrArg _ (goatReceive_busy ha hs)
  case remoteLate => exact fun ha hn ht => congrArg _ (goatReceive_late ha hn ht)
  case remoteDone => exact fun hd => congrArg _ (goatReceive_cancel_of_done hd)
  case remoteCancel =>
    intro q hd hq hr ht
    have e := goatReceive_cancel_of_match hd hq hr ht
    exact ⟨fun before => congrArg _ (e.trans (if_pos before)), fun late => congrArg _ (e.trans (if_neg (Nat.not_lt.2 late)))⟩
  case remoteNone => exact fun hd hn => congrArg _ (goatReceive_cancel_of_none hd hn)

end Sys2Proof.Machine
end

section
/-!
PROOF. Branches (R177, R178, R181, R182): a taken branch costs 4 cycles and goes to its target, another costs 1 and goes to the next instruction.
-/
namespace Sys2Proof.Machine
open Sys2Proof

/-- A branch target is (address of the branch + offset) mod 65,536 (R177): of the offset only the low 16 bits count. -/
theorem add_setWidth_eq_ofNat (pc : BitVec 16) (off : BitVec 24) : pc + off.setWidth 16 = BitVec.ofNat 16 (pc.toNat + off.toNat) := by
  rw [BitVec.ofNat_add, BitVec.ofNat_toNat, BitVec.ofNat_toNat, BitVec.setWidth_eq]

/-- The return address of a CALL wraps in 16 bits before it is widened (R182). -/
theorem succ_setWidth_eq_ofNat (pc : BitVec 16) : (pc + 1).setWidth 64 = BitVec.ofNat 64 ((pc.toNat + 1) % 65536) := by
  rw [← BitVec.ofNat_toNat, BitVec.toNat_add]
  rfl

section
variable {e : Fin 17} {r : Routine} {s : State}

/-- A jump by an offset on an engine that issues: the routine, as `x` makes it, goes on at the target after 4 cycles. -/
theorem runOn_jump_issues (x : Routine → Routine) (off : BitVec 24) (h : Issues e r s) :
    runOn e (fun r s => jump e (x r) (r.pc + off.setWidth 16) s) s = after e r 4 (BitVec.ofNat 16 (r.pc.toNat + off.toNat)) (x r) s := by
  rw [runOn_issues e _ h, jump_eq, add_setWidth_eq_ofNat, after]

/-- A jump to the address in bits 15:0 of a register (R182), on an engine that issues. -/
theorem runOn_jump_register_issues (a : Fin 16) (h : Issues e r s) :
    runOn e (fun r s => jump e r ((r.v[a]).setWidth 16) s) s = after e r 4 (BitVec.ofNat 16 r.v[a].toNat) r s := by
  rw [runOn_issues e _ h, jump_eq, BitVec.ofNat_toNat, after]

/-- A conditional branch on an engine that issues. -/
theorem branchIf_issues (c : Cond) (off : BitVec 24) (h : Issues e r s) :
    branchIf c e off s =
      if c.holds r.flags then after e r 4 (BitVec.ofNat 16 (r.pc.toNat + off.toNat)) r s else after e r 1 (r.pc + 1) r s := by
  rw [branchIf, runOn_issues e _ h, jump_eq, finish_eq, add_setWidth_eq_ofNat, after, after]

end

/-- Settles O4: B and CALL jump by their offset, JR jumps to its register, and each conditional branch is `branchIf` of its own condition. -/
theorem branches : Obligations.Branches := by
  intro e a off r s h
  have goes (c : Cond) := congrArg (.next : State → Result) (branchIf_issues c off h)
  refine ⟨?b, ?call, ?jr, goes .eq, goes .ne, goes .lt, goes .ge, goes .gt, goes .le, goes .lo, goes .hs, goes .hi, goes .ls, goes .mi, goes .pl,
    goes .vs, goes .vc, goes .late, goes .nlate, goes .qe, goes .nqe⟩
  case b => exact congrArg (.next : State → Result) (runOn_jump_issues id off h)
  case call =>
    rw [← succ_setWidth_eq_ofNat]
    exact congrArg (.next : State → Result) (runOn_jump_issues (fun r => r.setV 15 ((r.pc + 1).setWidth 64)) off h)
  case jr => exact congrArg (.next : State → Result) (runOn_jump_register_issues a h)

end Sys2Proof.Machine
end
